-- ==== Sys2Proof/Word.lean ====
section
/-! DEFINITION. The word types of the Z32 and the sparse table type that holds every register file and memory. -/

namespace Sys2Proof

/-- A 64-bit scalar word: a g or s register, a queue entry, a memory word (05 R104). -/
abbrev Word := BitVec 64

/-- A byte of a memory space (00 R2). -/
abbrev Byte := BitVec 8

/-- The contents of a vector register, VLEN = 1,024 bits on the Z32 (00 R9, 05 R104). -/
abbrev Vec := BitVec 1024

/-- A predicate of the X-stream, one bit for each byte of a vector (05 R104). -/
abbrev Pred := BitVec 128

/-- A sparse table from natural numbers to values: rising keys, no entry equal to what an unlisted key reads as.
Its operations are in `Machine/Store.lean`. -/
abbrev Table (α : Type) := List (Nat × α)

end Sys2Proof
end

