-- ==== Sys2Proof/Machine/Store.lean ====
section
/-! DEFINITION. The operations of a sparse table: every register file and every memory of the model is read and written
through them. They keep the table in canonical form: keys strictly rising, no entry equal to what an unlisted key reads as. -/

namespace Sys2Proof.Machine

/-- The value at key `k`; an unlisted key reads as `d`. -/
def tget {α : Type} (d : α) (k : Nat) : Table α → α
  | [] => d
  | (j, v) :: t => if j = k then v else tget d k t

/-- The table without key `k`. -/
def tdel {α : Type} (k : Nat) : Table α → Table α
  | [] => []
  | (j, v) :: t => if j = k then tdel k t else (j, v) :: tdel k t

/-- The table with an entry for `k` placed before the first greater key. -/
def tins {α : Type} (k : Nat) (v : α) : Table α → Table α
  | [] => [(k, v)]
  | (j, w) :: t => if k < j then (k, v) :: (j, w) :: t else (j, w) :: tins k v t

/-- The table with `v` at key `k`; the value of unlisted keys is `d`. -/
def tput {α : Type} [DecidableEq α] (d : α) (k : Nat) (v : α) (t : Table α) : Table α :=
  if v = d then tdel k t else tins k v (tdel k t)

/-- `n` consecutive values from key `k` on. -/
def tgets {α : Type} (d : α) (k : Nat) : Nat → Table α → List α
  | 0, _ => []
  | n + 1, t => tget d k t :: tgets d (k + 1) n t

/-- Consecutive values written from key `k` on. -/
def tputs {α : Type} [DecidableEq α] (d : α) (k : Nat) : List α → Table α → Table α
  | [], t => t
  | v :: vs, t => tputs d (k + 1) vs (tput d k v t)

/-- The canonical form: keys strictly rising, no entry equal to what an unlisted key reads as. -/
def twf {α : Type} [DecidableEq α] (d : α) : Table α → Bool
  | [] => true
  | [(_, v)] => decide (v ≠ d)
  | (j, v) :: (k, w) :: t => decide (j < k) && decide (v ≠ d) && twf d ((k, w) :: t)

/-- `n` bytes of a memory as a little-endian number (00 R2). -/
def rdLe (t : Table Byte) (a n : Nat) : Nat :=
  (tgets 0 a n t).foldr (fun b r => b.toNat + 256 * r) 0

/-- The low `n` bytes of a number, little-endian (00 R2). -/
def leBytes (v : Nat) : Nat → List Byte
  | 0 => []
  | n + 1 => BitVec.ofNat 8 v :: leBytes (v / 256) n

/-- The number that little-endian bytes stand for (00 R2). -/
def leNat : List Byte → Nat
  | [] => 0
  | b :: bs => b.toNat + 256 * leNat bs

/-- A memory with the low `n` bytes of `v` written at `a`, little-endian (00 R2). -/
def wrLe (t : Table Byte) (a n v : Nat) : Table Byte := tputs 0 a (leBytes v n) t

end Sys2Proof.Machine
end

