-- ==== Sys2Proof/Machine/Bits.lean ====
section
/-! DEFINITION. Bit fields, sign extension and bit counts on natural numbers and words. -/

namespace Sys2Proof.Machine

/-- Bits [lo + w - 1 : lo] of a number. -/
def fld (n lo w : Nat) : Nat := n / 2 ^ lo % 2 ^ w

/-- Bit `i` of a number. -/
def bitAt (n i : Nat) : Bool := n / 2 ^ i % 2 == 1

/-- A truth value as 0 or 1. -/
def b01 (b : Bool) : Nat := if b then 1 else 0

/-- A truth value as a word. -/
def bw (b : Bool) : Word := if b then 1 else 0

/-- The two's-complement value of the low `w` bits of a number. -/
def toS (n w : Nat) : Int :=
  let m := n % 2 ^ w
  if 2 * m < 2 ^ w then (m : Int) else (m : Int) - 2 ^ w

/-- An integer modulo 2^w. -/
def ofS (i : Int) (w : Nat) : Nat := (i % (2 ^ w : Int)).toNat

/-- The low `w` bits of a number, sign-extended to `v` bits. -/
def sext (n w v : Nat) : Nat := ofS (toS n w) v

/-- The low `w` bits sign-extended or zero-extended to 64 (05 R126). -/
def ext64 (sgn : Bool) (w n : Nat) : Word :=
  if sgn then BitVec.ofInt 64 (toS n w) else BitVec.ofNat 64 (n % 2 ^ w)

/-- Number with bits [lo + w - 1 : lo] of `n` replaced by the low bits of `v`. -/
def setFld (n lo w v : Nat) : Nat :=
  n % 2 ^ lo + (v % 2 ^ w) * 2 ^ lo + n / 2 ^ (lo + w) * 2 ^ (lo + w)

/-- One bits among the low `w` bits. -/
def popNat (n : Nat) : Nat → Nat
  | 0 => 0
  | w + 1 => b01 (bitAt n w) + popNat n w

/-- Zero bits above the highest one bit among the low `w` bits (06 R141). -/
def clzNat (n : Nat) : Nat → Nat
  | 0 => 0
  | w + 1 => if bitAt n w then 0 else 1 + clzNat n w

/-- Zero bits below the lowest one bit, from bit `i` on, `w` bits in all (06 R141). -/
def ctzNat (n i : Nat) : Nat → Nat
  | 0 => 0
  | w + 1 => if bitAt n i then 0 else 1 + ctzNat n (i + 1) w

/-- Bits from a function of the bit number, `w` of them from bit `i`. -/
def mkBits (f : Nat → Bool) (i : Nat) : Nat → Nat
  | 0 => 0
  | w + 1 => b01 (f i) + 2 * mkBits f (i + 1) w

/-- A number from `n` lanes of `w` bits, lane `i` first. -/
def mkLanes (f : Nat → Nat) (w i : Nat) : Nat → Nat
  | 0 => 0
  | n + 1 => f i % 2 ^ w + 2 ^ w * mkLanes f w (i + 1) n

/-- `k` copies of a `w`-bit pattern. -/
def rep (v w : Nat) (k : Nat) : Nat := mkLanes (fun _ => v) w 0 k

/-- Numbers `i`, `i + 1`, … below `i + n`. -/
def upFrom (i : Nat) : Nat → List Nat
  | 0 => []
  | n + 1 => i :: upFrom (i + 1) n

/-- The list without its elements equal to `a`. -/
def without {α : Type} [DecidableEq α] (a : α) (l : List α) : List α := l.filter (fun b => decide (b ≠ a))

/-- The list with element `i` replaced. -/
def setAt {α : Type} (i : Nat) (v : α) (l : List α) : List α := l.set i v

/-- Floor of the base-2 logarithm; 0 for 0. -/
def lg (n : Nat) : Nat := Nat.log2 n

end Sys2Proof.Machine
end

