-- ==== Sys2Proof/Syntax.lean ====
section
/-! DEFINITION. The syntax of Dzilux: operand descriptors, family forms, the messages that events carry, and the one
inductive `Instr` with a constructor for every row of the table of operations and events. -/

namespace Sys2Proof

/-- The fields of bits [95:66] that every instruction word has beside OP and FN (05 R121). -/
structure Hdr where
  gneg  : Bool
  gpred : BitVec 4
  stall : BitVec 4
  w     : Bool
  deriving DecidableEq, Repr

/-- An operand descriptor (05 R122, R123). -/
inductive Desc where
  | g (i : BitVec 6)
  | v (i : BitVec 5)
  | p (i : BitVec 4)
  | s (i : BitVec 4)
  | const (slot : BitVec 8)
  | imm (v : BitVec 19)
  | port (c : BitVec 4)
  | remote (tgt : BitVec 6) (file : BitVec 2) (index : BitVec 5)
  deriving DecidableEq, Repr

/-- The fields of family M (05 R126); DCLASS follows from the instruction. -/
structure MForm where
  scope : BitVec 5
  mode  : BitVec 3
  didx  : BitVec 6
  base  : Desc
  sz    : BitVec 3
  off   : BitVec 19
  deriving DecidableEq, Repr

/-- The first source of family V: SACLASS with SAIDX (05 R129). -/
inductive VSrc where
  | none
  | v (i : BitVec 5)
  | p (i : BitVec 4)
  | const (slot : BitVec 8)
  deriving DecidableEq, Repr

/-- The fields of family V (05 R129); DCLASS follows from the instruction. -/
structure VForm where
  fmt    : BitVec 5
  rm     : BitVec 2
  sp     : Bool
  stride : BitVec 2
  sbase  : BitVec 4
  didx   : BitVec 5
  sfmt   : BitVec 5
  sa     : VSrc
  sb     : Option Desc
  deriving DecidableEq, Repr

/-- The fields of CPY (09 R233). -/
structure CpyForm where
  gs    : BitVec 6
  gc    : BitVec 6
  gm    : BitVec 6
  ch    : BitVec 3
  acq   : Bool
  rel   : Bool
  scope : BitVec 5
  dir   : Bool
  rule  : BitVec 3
  sgn   : Bool
  cw    : Bool
  mc    : Bool
  fe    : Bool
  deriving DecidableEq, Repr

/-- The fields of GMMA (11 R296); SUMR and AFMT have one value each. -/
structure GForm where
  ta   : BitVec 3
  tb   : BitVec 3
  tm   : BitVec 3
  msk  : Bool
  bank : Bool
  accr : BitVec 8
  mm1  : BitVec 8
  acc  : Bool
  rm   : BitVec 2
  ct   : BitVec 3
  deriving DecidableEq, Repr

/-- The fields of OP 0xC3 and 0xC4 (11 R301). -/
structure AForm where
  td    : BitVec 3
  bank  : Bool
  accr  : BitVec 8
  mm1   : BitVec 8
  fmt   : BitVec 5
  rm    : BitVec 2
  sp    : Bool
  clr   : Bool
  sidx  : BitVec 4
  ct    : BitVec 3
  add   : Bool
  ns    : BitVec 8
  bank2 : Bool
  accr2 : BitVec 8
  deriving DecidableEq, Repr

/-- Who writes a device register: a compute core at level S, a Welwick core, or the host over PCIe (16 R428, 19 R423). -/
inductive Writer where
  | core (n : Nat)
  | welwick (n : Nat)
  | host
  deriving DecidableEq, Repr

/-- The coordinates an error record takes from its responsible task (16 R373, R428); `task` says that there is one. -/
structure Ctx where
  task   : Bool
  launch : Word
  wid    : Word
  take   : Nat
  core   : Nat
  peer   : Nat
  deriving DecidableEq, Repr

/-- A register send in flight (06 R158, R159) to the task `wid` of launch `run`; `value` is 64 bits, or VLEN bits for a v register. -/
structure SendMsg where
  dst   : Nat
  run   : Nat
  wid   : Word
  file  : BitVec 2
  index : BitVec 5
  value : Nat
  ctx   : Ctx
  deriving DecidableEq, Repr

/-- A granted exchange send in flight (13 R330, R331): `lm` is the LM offset of the LM form, `lands` the router cycle it lands in. -/
structure XMsg where
  dst   : Nat
  run   : Nat
  wid   : Word
  lm    : Option Nat
  index : BitVec 5
  data  : List Word
  lands : Nat
  ctx   : Ctx
  deriving DecidableEq, Repr

/-- A barrier message on the arrival tree above the device (13 R336): `kind` 0 goes up and represents the arrivals of device
`dev`, 1 brings the completed phase down, 2 names a barrier to a device none of whose members has arrived yet. `sb`, `nth` and
`idx` name the launch, `bid`, `level` and `parent` the barrier; OPC 8 stands for no arrival. -/
structure BarMsg where
  sb       : Word
  nth      : Nat
  idx      : Nat
  bid      : Nat
  level    : Nat
  parent   : Nat
  dev      : Nat
  kind     : Nat
  opc      : Nat
  mismatch : Bool
  value    : Word
  deriving DecidableEq, Repr

/-- The words of a queue-pair write that reaches this device as its target (13 R348). -/
structure QpWrite where
  space    : Nat
  addr     : Nat
  bsum     : Bool
  data     : List Word
  evRemote : Nat
  ctx      : Ctx
  deriving DecidableEq, Repr

/-- A TLB invalidation as broadcast (16 R366, 18 R408): `vec` is the issuing die's vector. -/
structure Inval where
  id    : Nat
  kind  : Nat
  space : Nat
  va    : Nat
  vec   : Table Nat
  deriving DecidableEq, Repr

/-- A contribution of DRAIN.ADD (11 R306): M rows of 64 columns. -/
structure Contribution where
  src  : Nat
  dst  : Nat
  opId : Nat
  run  : Nat
  mm1  : Nat
  slot : Nat
  rows : List (BitVec 32)
  ctx  : Ctx
  deriving DecidableEq, Repr

/-- A deferred record (08 R205): the 40-byte header, its data, and what the reports of R214 and R339 need. -/
structure DRec where
  peer     : Nat
  lpa      : Nat
  rule     : BitVec 3
  len      : BitVec 2
  esz      : BitVec 2
  sgn      : Bool
  swid     : Word
  seq      : Nat
  take     : Nat
  score    : Nat
  speer    : Nat
  ncontrib : Nat
  mask     : BitVec 64
  data     : List Byte
  cbm      : Word
  va       : Nat
  run      : Nat
  group    : Nat
  launch   : Word
  copyId   : Option (Nat × Nat)
  deriving DecidableEq, Repr

/-- An acknowledgement of a deferred record (13 R339). -/
structure RecAck where
  swid  : Word
  seq   : Nat
  speer : Nat
  cbm   : Word
  deriving DecidableEq, Repr

/-- A message of launch agreement (02 R42): PASS with its check values, a fault report, GO or FAULT. -/
structure Agree where
  sb    : Word
  nth   : Nat
  idx   : Nat
  dev   : Nat
  code  : Nat
  level : Nat
  slate : Word
  check : Word
  deriving DecidableEq, Repr

/-- A report of a local abort, or ABORT from device 0 (02 R430): the launch it names, as ABORT of a cut names it too. -/
structure AbortMsg where
  sb  : Word
  nth : Nat
  idx : Nat
  deriving DecidableEq, Repr

/-- START of one core (17 R380, R389); `xrun` says that a resumed X-stream runs on. -/
structure StartMsg where
  core   : Nat
  run    : Nat
  group  : Nat
  gidx   : Nat
  resume : Bool
  xrun   : Bool
  deriving DecidableEq, Repr

/-- What every management request carries beside its command and payload (19 R424): its sequence number, the partition index or
0x3F for the module, and the length of its payload. -/
structure MgmtReq where
  seq  : BitVec 32
  part : Nat
  len  : Nat
  deriving DecidableEq, Repr

/-- What is known of a packet dropped on a link (16 R370, R428). -/
structure LinkDrop where
  va   : Nat
  peer : Nat
  cls  : Nat
  ctx  : Ctx
  deriving DecidableEq, Repr

/-- One constructor for every row of the table of operations and events: the instructions in the table's order, then the
events that travel as messages, then the other events; its comment gives the row's mnemonic and rule. Instructions carry
their header and operand fields, events what the event is about. -/
inductive Instr where
  /-- NOP (R133): Does nothing beyond its guard, stall count and wait bit. -/
  | nop (h : Hdr)
  /-- ADD (R140): Writes a + b modulo 2^64. -/
  | add (h : Hdr) (d a b : Desc)
  /-- SUB (R140): Writes a − b modulo 2^64. -/
  | sub (h : Hdr) (d a b : Desc)
  /-- MUL (R140): Writes the low 64 bits of a × b. -/
  | mul (h : Hdr) (d a b : Desc)
  /-- MULHS (R140): Writes the high 64 bits of the signed 128-bit product. -/
  | mulhs (h : Hdr) (d a b : Desc)
  /-- MULHZ (R140): Writes the high 64 bits of the unsigned 128-bit product. -/
  | mulhz (h : Hdr) (d a b : Desc)
  /-- AND (R140): Writes the bitwise AND of a and b. -/
  | and (h : Hdr) (d a b : Desc)
  /-- OR (R140): Writes the bitwise OR of a and b. -/
  | or (h : Hdr) (d a b : Desc)
  /-- XOR (R140): Writes the bitwise XOR of a and b. -/
  | xor (h : Hdr) (d a b : Desc)
  /-- ANDN (R140): Writes a AND NOT b. -/
  | andn (h : Hdr) (d a b : Desc)
  /-- SHL (R140): Shifts a left by b[5:0]. -/
  | shl (h : Hdr) (d a b : Desc)
  /-- SHR (R140): Shifts a logically right by b[5:0]. -/
  | shr (h : Hdr) (d a b : Desc)
  /-- SAR (R140): Shifts a arithmetically right by b[5:0]. -/
  | sar (h : Hdr) (d a b : Desc)
  /-- ROT (R140): Rotates a right by b[5:0]. -/
  | rot (h : Hdr) (d a b : Desc)
  /-- MOV (R141): Copies a source operand to the destination, including queue pushes and pops. -/
  | mov (h : Hdr) (d a : Desc)
  /-- MOVK (R141): Replaces one 16-bit field of the destination with an immediate. -/
  | movk (h : Hdr) (d a b : Desc)
  /-- SEXT (R141): Sign-extends the low n bits of a. -/
  | sext (h : Hdr) (d a b : Desc)
  /-- ZEXT (R141): Zero-extends the low n bits of a. -/
  | zext (h : Hdr) (d a b : Desc)
  /-- CLZ (R141): Counts the leading zero bits of a. -/
  | clz (h : Hdr) (d a : Desc)
  /-- CTZ (R141): Counts the trailing zero bits of a. -/
  | ctz (h : Hdr) (d a : Desc)
  /-- POPC (R141): Counts the one bits of a. -/
  | popc (h : Hdr) (d a : Desc)
  /-- BFX (R141): Extracts a bit field of a, zero-extended. -/
  | bfx (h : Hdr) (d a b : Desc)
  /-- BFI (R141): Inserts the low bits of a into a field of the destination. -/
  | bfi (h : Hdr) (d a b : Desc)
  /-- MINS (R141): Writes the smaller operand as s64. -/
  | mins (h : Hdr) (d a b : Desc)
  /-- MAXS (R141): Writes the larger operand as s64. -/
  | maxs (h : Hdr) (d a b : Desc)
  /-- MINZ (R141): Writes the smaller operand as z64. -/
  | minz (h : Hdr) (d a b : Desc)
  /-- MAXZ (R141): Writes the larger operand as z64. -/
  | maxz (h : Hdr) (d a b : Desc)
  /-- CMPEQ (R143): Writes 1 when a equals b, else 0. -/
  | cmpeq (h : Hdr) (d a b : Desc)
  /-- CMPNE (R143): Writes 1 when a differs from b, else 0. -/
  | cmpne (h : Hdr) (d a b : Desc)
  /-- CMPLTS (R143): Writes 1 when a < b as s64. -/
  | cmplts (h : Hdr) (d a b : Desc)
  /-- CMPLES (R143): Writes 1 when a ≤ b as s64. -/
  | cmples (h : Hdr) (d a b : Desc)
  /-- CMPLTZ (R143): Writes 1 when a < b as z64. -/
  | cmpltz (h : Hdr) (d a b : Desc)
  /-- CMPLEZ (R143): Writes 1 when a ≤ b as z64. -/
  | cmplez (h : Hdr) (d a b : Desc)
  /-- PAND (R144): Combines two predicates bitwise by AND. -/
  | pand (h : Hdr) (d a b : Desc)
  /-- POR (R144): Combines two predicates bitwise by OR. -/
  | por (h : Hdr) (d a b : Desc)
  /-- PXOR (R144): Combines two predicates bitwise by XOR. -/
  | pxor (h : Hdr) (d a b : Desc)
  /-- PNOT (R144): Complements a predicate. -/
  | pnot (h : Hdr) (d a : Desc)
  /-- ADDSAT (R142): Writes a + b saturated as s64. -/
  | addsat (h : Hdr) (d a b : Desc)
  /-- SUBSAT (R142): Writes a − b saturated as s64. -/
  | subsat (h : Hdr) (d a b : Desc)
  /-- DIVS (R142): Writes the signed quotient, variable latency, never trapping. -/
  | divs (h : Hdr) (d a b : Desc)
  /-- DIVZ (R142): Writes the unsigned quotient, variable latency. -/
  | divz (h : Hdr) (d a b : Desc)
  /-- REMS (R142): Writes the signed remainder, variable latency. -/
  | rems (h : Hdr) (d a b : Desc)
  /-- REMZ (R142): Writes the unsigned remainder, variable latency. -/
  | remz (h : Hdr) (d a b : Desc)
  /-- LEA (R145): Computes base plus shifted index plus offset. -/
  | lea (h : Hdr) (d a b : BitVec 6) (sh : BitVec 3) (nob : Bool) (off : BitVec 32)
  /-- LEAX (R145): Computes base plus shifted sign-extended 32-bit index plus offset. -/
  | leax (h : Hdr) (d a b : BitVec 6) (sh : BitVec 3) (nob : Bool) (off : BitVec 32)
  /-- RDSR (R146): Reads an A-stream special register. -/
  | rdsr (h : Hdr) (r n : BitVec 6)
  /-- WRSR (R146): Writes the RW fields of an A-stream special register. -/
  | wrsr (h : Hdr) (r n : BitVec 6)
  /-- RDSX (R146): Reads an X-stream special register. -/
  | rdsx (h : Hdr) (r : BitVec 4) (n : BitVec 6)
  /-- WRSX (R146): Writes the RW fields of an X-stream special register, such as the key context. -/
  | wrsx (h : Hdr) (r : BitVec 4) (n : BitVec 6)
  /-- BR (R148): Transfers control by a slot offset when its guard holds. -/
  | br (h : Hdr) (off : BitVec 19)
  /-- BRQ (R148): Pops a branch-outcome bit and transfers when it is 1. -/
  | brq (h : Hdr) (q : Desc) (off : BitVec 19)
  /-- BRQN (R148): Pops a branch-outcome bit and transfers when it is 0. -/
  | brqn (h : Hdr) (q : Desc) (off : BitVec 19)
  /-- JMP (R148): Transfers to the slot held in a register. -/
  | jmp (h : Hdr) (r : Desc)
  /-- LOOP (R149): Opens a counted hardware loop or skips it when the count is zero. -/
  | loop (h : Hdr) (n : Desc) (off : BitVec 19)
  /-- BREAKL (R151): Pops the innermost loop above the floor and transfers past it. -/
  | breakl (h : Hdr)
  /-- CALL (R152): Pushes a return entry, spilling if needed, raises the loop floor and transfers. -/
  | call (h : Hdr) (off : BitVec 19)
  /-- CALLI (R152): Calls the slot held in a register. -/
  | calli (h : Hdr) (r : Desc)
  /-- RET (R152): Pops a return entry, refilling from LM if needed, ends the routine's loops and transfers. -/
  | ret (h : Hdr)
  /-- XGO (R153): Starts the X-stream at a slot, stalling while it runs. -/
  | xgo (h : Hdr) (r : Desc)
  /-- XEND (R154): Waits for pending results and makes the X-stream idle. -/
  | xend (h : Hdr)
  /-- TEND (R155): Waits for the X-stream and the task's outstanding operations before ending the task. -/
  | tend (h : Hdr)
  /-- SAFEPT (R162): Declares a safe point, restarting the watchdog or waiting for a pending pre-emption. -/
  | safept (h : Hdr) (cslot : BitVec 8) (lmx : BitVec 10)
  /-- TRAP (R163): Raises USER_TRAP with a code. -/
  | trap (h : Hdr) (code : BitVec 16)
  /-- BRK (R163): Raises DEBUG, or halts the stream when a debugger is attached. -/
  | brk (h : Hdr) (code : BitVec 16)
  /-- TRYPOP (R156): Pops a queue if it holds an entry and reports the outcome in a predicate. -/
  | trypop (h : Hdr) (d q p : Desc)
  /-- TRYPUSH (R156): Pushes to a queue if it has room and reports the outcome. -/
  | trypush (h : Hdr) (q a p : Desc)
  /-- PUSHB (R157): Pushes one bit derived from a predicate onto a branch-outcome queue. -/
  | pushb (h : Hdr) (q p : Desc) (m : Option Desc)
  /-- SEND (R158): Sends a 64-bit value to a remote g register or inbox. -/
  | send (h : Hdr) (d a : Desc)
  /-- VSEND (R158): Sends a vector to a remote v register. -/
  | vsend (h : Hdr) (d a : Desc)
  /-- CLRP (R160): Makes a presence register absent after earlier writes land. -/
  | clrp (h : Hdr) (r : Desc)
  /-- LL (R222): Loads from local memory, optionally as a synchronising access. -/
  | ll (h : Hdr) (m : MForm)
  /-- LS (R222): Stores to local memory, optionally as a synchronising access. -/
  | ls (h : Hdr) (m : MForm)
  /-- LD (R223): Loads from device or fabric memory at a virtual address. -/
  | ld (h : Hdr) (m : MForm)
  /-- ST (R223): Stores to device memory, deferred with EXCL in a take launch where R195 applies. -/
  | st (h : Hdr) (m : MForm)
  /-- LDC (R224): Loads through the read-only path from an ROP page. -/
  | ldc (h : Hdr) (m : MForm)
  /-- LDFE (R226): Performs a synchronising 64-bit load under a full/empty mode. -/
  | ldfe (h : Hdr) (m : MForm)
  /-- STFE (R226): Performs a synchronising 64-bit store under a full/empty mode. -/
  | stfe (h : Hdr) (m : MForm)
  /-- TRYLDFE (R227): Attempts a synchronising load once without waiting and reports the outcome. -/
  | tryldfe (h : Hdr) (m : MForm)
  /-- TRYSTFE (R227): Attempts a synchronising store once without waiting and reports the outcome. -/
  | trystfe (h : Hdr) (m : MForm)
  /-- ATADD (R228): Adds to a memory word at its home without returning. -/
  | atadd (h : Hdr) (m : MForm)
  /-- ATMIN (R228): Takes the minimum into a memory word without returning. -/
  | atmin (h : Hdr) (m : MForm)
  /-- ATMAX (R228): Takes the maximum into a memory word without returning. -/
  | atmax (h : Hdr) (m : MForm)
  /-- ATOR (R228): ORs into a memory word without returning. -/
  | ator (h : Hdr) (m : MForm)
  /-- ATAND (R228): ANDs into a memory word without returning. -/
  | atand (h : Hdr) (m : MForm)
  /-- AXADD (R228): Adds to a memory word and returns the old value. -/
  | axadd (h : Hdr) (m : MForm)
  /-- AXMIN (R228): Takes the minimum and returns the old value. -/
  | axmin (h : Hdr) (m : MForm)
  /-- AXMAX (R228): Takes the maximum and returns the old value. -/
  | axmax (h : Hdr) (m : MForm)
  /-- AXOR (R228): ORs and returns the old value. -/
  | axor (h : Hdr) (m : MForm)
  /-- AXAND (R228): ANDs and returns the old value. -/
  | axand (h : Hdr) (m : MForm)
  /-- AXCHG (R228): Exchanges a memory word with a register. -/
  | axchg (h : Hdr) (m : MForm)
  /-- ACAS (R228): Compares and swaps a memory word, returning the old value. -/
  | acas (h : Hdr) (m : MForm)
  /-- FENCE (R229): Acts as release and acquire at a scope and waits for earlier accesses. -/
  | fence (h : Hdr) (scope : BitVec 5)
  /-- REL (R229): Releases at a scope, writing back dirty lines and sending horizons. -/
  | rel (h : Hdr) (scope : BitVec 5)
  /-- ACQ (R229): Acquires at a scope, merging horizons and invalidating the cluster cache. -/
  | acq (h : Hdr) (scope : BitVec 5)
  /-- FENCE_AX (R229): Orders the two streams' memory accesses through the queues and fences device memory. -/
  | fenceAx (h : Hdr) (scope : BitVec 5)
  /-- DST (R230): Writes under a conflict rule, deferred or performed at once by target. -/
  | dst (h : Hdr) (m : MForm)
  /-- RDSUM (R231): Pulls one reduced 64-byte line from a reduce aperture. -/
  | rdsum (h : Hdr) (m : MForm)
  /-- CUTA (R207): Ends the task's take, arrives at the cut and enters the next take. -/
  | cuta (h : Hdr)
  /-- CUTW (R208): Waits until the previous cut is closed and acquires at pod scope. -/
  | cutw (h : Hdr)
  /-- CUTST (R232): Reads the cut status word of the latest closed cut. -/
  | cutst (h : Hdr) (d : BitVec 6)
  /-- CPY (R233): Starts a multi-dimensional copy between device memory and LM on a channel. -/
  | cpy (h : Hdr) (c : CpyForm)
  /-- NMC (R242): Checks a near-memory command record and sends it to its stack's engine. -/
  | nmc (h : Hdr) (gr : BitVec 6) (acq rel : Bool) (scope : BitVec 5)
  /-- NFENCE (R247): Waits for the task's earlier near-memory commands and releases at a scope. -/
  | nfence (h : Hdr) (scope : BitVec 5)
  /-- BARINIT (R333): Binds a barrier identifier to the members of a tree level. -/
  | barinit (h : Hdr) (bid : BitVec 11) (scope : BitVec 5)
  /-- BARINIT_DOM (R333): Binds a barrier identifier to the cores of an LM member mask. -/
  | barinitDom (h : Hdr) (bid : BitVec 11) (gm : BitVec 6) (anc : BitVec 3)
  /-- BARARR (R334): Arrives at the barrier's current phase with a value, as a release. -/
  | bararr (h : Hdr) (bid : BitVec 11) (opc : BitVec 3) (v : BitVec 6)
  /-- BARWAIT (R335): Waits for its arrival's phase and acquires, writing the combined value. -/
  | barwait (h : Hdr) (bid : BitVec 11) (d : BitVec 6) (res : Bool)
  /-- XSEND (R330): Sends a register value to a remote register at a granted slot. -/
  | xsend (h : Hdr) (d : Desc) (src : BitVec 6) (slot : BitVec 10)
  /-- XSEND_LM (R330): Sends 64 bytes of registers to a remote LM at a granted slot. -/
  | xsendLm (h : Hdr) (d : Desc) (src : BitVec 6) (slot : BitVec 10) (off : BitVec 16)
  /-- XBAR (R327): Arrives at the exchange barrier of the residency group. -/
  | xbar (h : Hdr)
  /-- QPOST (R344): Checks a work entry and appends it to a queue pair's ring. -/
  | qpost (h : Hdr) (qpn : BitVec 8) (ge : BitVec 6) (acq rel : Bool) (scope : BitVec 5)
  /-- QTRIG (R349): Releases and adds an increment to a trigger counter. -/
  | qtrig (h : Hdr) (cnt : BitVec 10) (g : BitVec 6) (scope : BitVec 5)
  /-- QWAIT (R349): Waits until a trigger counter reaches a threshold and acquires. -/
  | qwait (h : Hdr) (cnt : BitVec 10) (g : BitVec 6) (scope : BitVec 5)
  /-- LAUNCH (R57): Releases and submits a storyboard to the launch unit from a task. -/
  | launch (h : Hdr) (a : Desc)
  /-- WLOC (R49): Returns the core number of the co-resident task at a logical coordinate. -/
  | wloc (h : Hdr) (d a : Desc) (scope : BitVec 5)
  /-- MFSV (R359): Reads a supervisor register. -/
  | mfsv (h : Hdr) (g : BitVec 6) (n : BitVec 12)
  /-- MTSV (R359): Writes the RW fields of a supervisor register. -/
  | mtsv (h : Hdr) (g : BitVec 6) (n : BitVec 12)
  /-- RFT (R363): Restores predicates, returns to level T and resumes the saved PCs. -/
  | rft (h : Hdr)
  /-- WAITI (R365): Stalls until the mailbox holds an entry or a pre-emption request is pending. -/
  | waiti (h : Hdr)
  /-- TLBINV_PAGE (R366): Fences and broadcasts invalidation of one page's entries in a space. -/
  | tlbinvPage (h : Hdr) (gv gs : BitVec 6) (wait : Bool)
  /-- TLBINV_SPACE (R366): Fences and broadcasts invalidation of every entry of a space. -/
  | tlbinvSpace (h : Hdr) (gs : BitVec 6) (wait : Bool)
  /-- TLBINV_ALL (R366): Fences and broadcasts invalidation of every entry. -/
  | tlbinvAll (h : Hdr) (wait : Bool)
  /-- VADD (R255): Adds floating lanes with one rounding. -/
  | vadd (h : Hdr) (f : VForm)
  /-- VSUB (R255): Subtracts floating lanes with one rounding. -/
  | vsub (h : Hdr) (f : VForm)
  /-- VMUL (R255): Multiplies floating lanes with one rounding. -/
  | vmul (h : Hdr) (f : VForm)
  /-- VFMA (R255): Computes a × b + d per lane with one rounding. -/
  | vfma (h : Hdr) (f : VForm)
  /-- VFMS (R255): Computes d − a × b per lane with one rounding. -/
  | vfms (h : Hdr) (f : VForm)
  /-- VMIN (R257): Writes the smaller floating value per lane. -/
  | vmin (h : Hdr) (f : VForm)
  /-- VMAX (R257): Writes the larger floating value per lane. -/
  | vmax (h : Hdr) (f : VForm)
  /-- VABS (R257): Clears the sign bit per lane. -/
  | vabs (h : Hdr) (f : VForm)
  /-- VNEG (R257): Flips the sign bit per lane. -/
  | vneg (h : Hdr) (f : VForm)
  /-- VIADD (R258): Adds integer lanes modulo 2^w. -/
  | viadd (h : Hdr) (f : VForm)
  /-- VISUB (R258): Subtracts integer lanes modulo 2^w. -/
  | visub (h : Hdr) (f : VForm)
  /-- VIMUL (R258): Writes the low bits of integer lane products. -/
  | vimul (h : Hdr) (f : VForm)
  /-- VIMIN (R258): Writes the smaller integer per lane. -/
  | vimin (h : Hdr) (f : VForm)
  /-- VIMAX (R258): Writes the larger integer per lane. -/
  | vimax (h : Hdr) (f : VForm)
  /-- VIABS (R258): Writes the integer absolute value per lane. -/
  | viabs (h : Hdr) (f : VForm)
  /-- VINEG (R258): Negates integer lanes modulo 2^w. -/
  | vineg (h : Hdr) (f : VForm)
  /-- VIADDS (R258): Adds integer lanes with saturation. -/
  | viadds (h : Hdr) (f : VForm)
  /-- VISUBS (R258): Subtracts integer lanes with saturation. -/
  | visubs (h : Hdr) (f : VForm)
  /-- VCMPEQ (R259): Writes lane predicates for equality. -/
  | vcmpeq (h : Hdr) (f : VForm)
  /-- VCMPNE (R259): Writes lane predicates for inequality. -/
  | vcmpne (h : Hdr) (f : VForm)
  /-- VCMPLT (R259): Writes lane predicates for less-than. -/
  | vcmplt (h : Hdr) (f : VForm)
  /-- VCMPLE (R259): Writes lane predicates for less-or-equal. -/
  | vcmple (h : Hdr) (f : VForm)
  /-- VCMPUN (R259): Writes lane predicates for unordered floating operands. -/
  | vcmpun (h : Hdr) (f : VForm)
  /-- VSEL (R260): Selects every lane from va or vb by the guard. -/
  | vsel (h : Hdr) (f : VForm)
  /-- VAND (R261): ANDs integer lanes. -/
  | vand (h : Hdr) (f : VForm)
  /-- VOR (R261): ORs integer lanes. -/
  | vor (h : Hdr) (f : VForm)
  /-- VXOR (R261): XORs integer lanes. -/
  | vxor (h : Hdr) (f : VForm)
  /-- VANDN (R261): Computes a AND NOT b per lane. -/
  | vandn (h : Hdr) (f : VForm)
  /-- VSHL (R261): Shifts lanes left. -/
  | vshl (h : Hdr) (f : VForm)
  /-- VSHR (R261): Shifts lanes logically right. -/
  | vshr (h : Hdr) (f : VForm)
  /-- VSAR (R261): Shifts lanes arithmetically right. -/
  | vsar (h : Hdr) (f : VForm)
  /-- VCVT (R262): Converts elements between formats with one rounding each, including MX, E8M0, integer and BSI forms. -/
  | vcvt (h : Hdr) (f : VForm)
  /-- VCVT_EF (R266): Narrows FP32 with error feedback, writing the result and the carried error. -/
  | vcvtEf (h : Hdr) (f : VForm)
  /-- VMXDOT (R267): Forms one window sum of MX block-pair terms and an accumulator input. -/
  | vmxdot (h : Hdr) (f : VForm)
  /-- VREDSUM (R268): Sums active FP32 lanes by one window sum into every element. -/
  | vredsum (h : Hdr) (f : VForm)
  /-- VREDMAX (R269): Writes the largest active element into every element. -/
  | vredmax (h : Hdr) (f : VForm)
  /-- VPERM (R270): Permutes elements by an index vector. -/
  | vperm (h : Hdr) (f : VForm)
  /-- VBCAST (R270): Broadcasts a scalar, constant or immediate to active lanes. -/
  | vbcast (h : Hdr) (f : VForm)
  /-- VBCAST_ELEMENT (R270): Broadcasts one element of a vector to active lanes. -/
  | vbcastElement (h : Hdr) (f : VForm)
  /-- VSLIDE (R270): Slides elements by a signed distance. -/
  | vslide (h : Hdr) (f : VForm)
  /-- VMOV (R270): Copies a vector or broadcast constant to active lanes. -/
  | vmov (h : Hdr) (f : VForm)
  /-- VMOV_PREDICATE (R270): Expands predicate bits into z8 elements. -/
  | vmovPredicate (h : Hdr) (f : VForm)
  /-- VLL (R271): Loads a vector from LM per guarded byte. -/
  | vll (h : Hdr) (m : MForm)
  /-- VLS (R271): Stores a vector to LM per guarded byte. -/
  | vls (h : Hdr) (m : MForm)
  /-- VRAND (R273): Fills lanes with keyed generator draws. -/
  | vrand (h : Hdr) (f : VForm)
  /-- KSET (R272): Writes the key context from a register or constant pair. -/
  | kset (h : Hdr) (f : VForm)
  /-- VEXP2 (R274): Computes 2^x per lane rounded once. -/
  | vexp2 (h : Hdr) (f : VForm)
  /-- VLOG2 (R274): Computes log2 x per lane rounded once. -/
  | vlog2 (h : Hdr) (f : VForm)
  /-- VRCP (R274): Computes 1/x per lane rounded once. -/
  | vrcp (h : Hdr) (f : VForm)
  /-- VRSQRT (R274): Computes 1/√x per lane rounded once. -/
  | vrsqrt (h : Hdr) (f : VForm)
  /-- VSQRT (R274): Computes √x per lane rounded once. -/
  | vsqrt (h : Hdr) (f : VForm)
  /-- PRANGE (R253): Builds a governing predicate covering the remaining elements. -/
  | prange (h : Hdr) (f : VForm)
  /-- VLEN (R254): Writes the vector width in bits into active elements. -/
  | vlen (h : Hdr) (f : VForm)
  /-- VSTAT (R275): Writes the VFLAGS word into active 64-bit elements. -/
  | vstat (h : Hdr) (f : VForm)
  /-- VSTAT_PREDICATE (R275): Sets predicate bits when selected VFLAGS counters are nonzero. -/
  | vstatPredicate (h : Hdr) (f : VForm)
  /-- VCLRF (R276): Clears selected VFLAGS counters after earlier events are counted. -/
  | vclrf (h : Hdr) (f : VForm)
  /-- TCFG (R281): Writes a tile shape control after checking it. -/
  | tcfg (h : Hdr) (t : BitVec 3) (s : BitVec 4)
  /-- TSTAT (R308): Reads a tile's counter set. -/
  | tstat (h : Hdr) (t : BitVec 3) (s : BitVec 4)
  /-- TSTAT_BANK (R308): Waits for the core's gang instructions and reads a bank's counter set. -/
  | tstatBank (h : Hdr) (bk : Bool) (s : BitVec 4)
  /-- TCLR (R309): Clears selected counters of a tile after its writers complete. -/
  | tclr (h : Hdr) (t : BitVec 3) (m : BitVec 4)
  /-- TCLR_BANK (R309): Clears selected counters of a bank in matrix-queue order. -/
  | tclrBank (h : Hdr) (bk : Bool) (m : BitVec 4)
  /-- TLDL (R282): Loads a tile's footprint from LM. -/
  | tldl (h : Hdr) (t : BitVec 3) (s : BitVec 4) (off : BitVec 19)
  /-- TSTL (R282): Stores a tile's footprint to LM. -/
  | tstl (h : Hdr) (t : BitVec 3) (s : BitVec 4) (off : BitVec 19)
  /-- WLD (R295): Loads the gang's stationary operand from the eight bands. -/
  | wld (h : Hdr) (tw tm : BitVec 3) (sparse : Bool)
  /-- GMMA_F (R297): Streams activations against the stationary operand into accumulator rows. -/
  | gmmaF (h : Hdr) (f : GForm)
  /-- GMMA_B (R298): Reduces gradients over n against the stationary operand into accumulator rows. -/
  | gmmaB (h : Hdr) (f : GForm)
  /-- GMMA_O (R299): Accumulates outer products of paired rows into the outer values. -/
  | gmmaO (h : Hdr) (f : GForm)
  /-- DRAIN (R302): Scales, clips and converts accumulator rows into each slot's tile. -/
  | drain (h : Hdr) (f : AForm)
  /-- DRAIN_ADD (R306): Sends accumulator rows as a contribution to another gang's join. -/
  | drainAdd (h : Hdr) (f : AForm)
  /-- ODRAIN (R303): Writes or adds the outer values into accumulator rows and clears them. -/
  | odrain (h : Hdr) (f : AForm)
  /-- JOIN (R305): Declares a join on the gang's accumulator rows for n contributors. -/
  | join (h : Hdr) (f : AForm)
  /-- ACCLD (R304): Loads accumulator rows from each slot's tile. -/
  | accld (h : Hdr) (f : AForm)
  /-- ACCST (R304): Stores accumulator rows into each slot's tile. -/
  | accst (h : Hdr) (f : AForm)
  /-- ACCCP (R304): Copies accumulator rows between banks. -/
  | acccp (h : Hdr) (f : AForm)
  /-- CSIG (R318): Forms the signature of the gang's activation tile for a block. -/
  | csig (h : Hdr) (t : BitVec 3) (blk : BitVec 6)
  /-- CTEST (R319): Compares the signature with the table entry and decides skip or compute. -/
  | ctest (h : Hdr) (s pd : BitVec 4) (blk : BitVec 6)
  /-- CSTORE (R320): Writes each slot's output tile to the continuity store and retires the pending entry. -/
  | cstore (h : Hdr) (t : BitVec 3) (s : BitVec 4) (blk : BitVec 6)
  /-- CSHEET (R321): Reads a continuity register into all eight cores. -/
  | csheet (h : Hdr) (s : BitVec 4) (n : BitVec 7)
  /-- CCFG (R321): Writes a continuity register from slot 0. -/
  | ccfg (h : Hdr) (s : BitVec 4) (n : BitVec 7)
  /-- SEND_ARRIVAL (R159): A register send arrives and writes its register or inbox, or is discarded if late. -/
  | sendArrival (m : SendMsg)
  /-- HELD_SEND_DELIVERY (R159): A send held at a full inbox is appended once a word frees. -/
  | heldSendDelivery (core : Nat)
  /-- BARRIER_ARRIVAL_MESSAGE (R336): A class-1 barrier message crosses devices on the arrival tree. -/
  | barrierArrivalMessage (m : BarMsg)
  /-- XSEND_LANDING (R331): A granted exchange send lands at its target in its ejection cycle. -/
  | xsendLanding (m : XMsg)
  /-- WRITE (R348): At a Z32 target, stores each word of an incoming queue-pair write and raises EVREMOTE. -/
  | write (w : QpWrite)
  /-- WRITE_REDUCE (R348): At a Z32 target, adds each word or lane as a non-returning atomic and raises EVREMOTE. -/
  | writeReduce (w : QpWrite)
  /-- INVALIDATION_MESSAGE (R408): A die receives an invalidation, merges its vector and removes matching entries. -/
  | invalidationMessage (die : Nat) (m : Inval)
  /-- JOIN_CONTRIBUTION (R305): A contribution arrives at a gang and is held, dropped or closes the join by window sum. -/
  | joinContribution (c : Contribution)
  /-- CONTRIBUTION_ACK (R306): The target's acknowledgement arrives and the sender's DRAIN.ADD completes. -/
  | contributionAck (gang opId : Nat)
  /-- HORIZON_MESSAGE (R172): A horizon message reaches a home and raises its horizon once the chain is applied. -/
  | horizonMessage (home die hz last : Nat)
  /-- DEFERRED_RECORD (R205): A deferred record reaches the target cut buffer and is filed in its parity bank and acknowledged. -/
  | deferredRecord (r : DRec)
  /-- RECORD_ACK (R339): An acknowledgement reaches the source and the record counts as acknowledged. -/
  | recordAck (a : RecAck)
  /-- RECORD_LOST (R214): A record unacknowledged within the retry limit counts as failed and is recorded as lost. -/
  | recordLost (r : DRec) (why : Nat)
  /-- DEVICE_ARRIVED (R209): All member tasks have arrived or ended and records are settled, so the device sends ARRIVE. -/
  | deviceArrived (grp n : Nat)
  /-- ARRIVE (R209): The root receives ARRIVE(n) and sends APPLY once all members have arrived. -/
  | arrive (grp n dev : Nat) (ended : Bool)
  /-- APPLY (R209): A member receives APPLY(n) and applies its bank unit by unit. -/
  | apply (grp n : Nat)
  /-- APPLY_FINISHED (R209): Bank application finishes and the device sends REPORT. -/
  | applyFinished (grp n : Nat)
  /-- REPORT (R209): The root receives REPORT(n) and sends DONE once all have reported. -/
  | report (grp n dev : Nat) (st : Word)
  /-- DONE (R209): A member receives DONE(n), writes status, empties the bank, invalidates and closes the cut. -/
  | done (grp n : Nat) (st : Word) (last : Bool)
  /-- CUT_ABORT (R209): A member receives ABORT(n), empties both banks and aborts the launch; the lowest member that is late, if the
  skew timer ran out, and the launch. -/
  | cutAbort (grp n : Nat) (late : Option Nat × AbortMsg)
  /-- SUSPEND (R215): The root receives SUSPEND and suspends the skew timer. -/
  | suspend (grp n dev : Nat)
  /-- RESUME (R215): The root receives RESUME and resumes the skew timer. -/
  | resume (grp n dev : Nat)
  /-- PULL_READ_REQUEST (R340): A device answers an incoming pull read with a published line or zero lanes. -/
  | pullReadRequest (lpa peer : Nat)
  /-- LAUNCH_ACCEPT (R38): A launch whose predecessors retired is accepted and checked, sending PASS or a fault report. -/
  | launchAccept (sb idx : Nat)
  /-- PASS (R42): Device 0 receives a check result and sends GO or FAULT. -/
  | pass (m : Agree)
  /-- GO (R42): A device receives GO and may place the launch's groups. -/
  | go (m : Agree)
  /-- FAULT (R42): A device receives FAULT and ends its share as faulted. -/
  | fault (m : Agree)
  /-- GROUP_START (R380): The die launch unit broadcasts state, loads beats and sends START for a group. -/
  | groupStart (run group : Nat)
  /-- START (R380): START reaches a core, which begins fetching at ENTRY or resumes. -/
  | start (m : StartMsg)
  /-- ABORT_REPORT (R430): Device 0 receives a report of a local abort and sends ABORT. -/
  | abortReport (m : AbortMsg)
  /-- ABORT (R430): A device receives ABORT and ends its share of the launch. -/
  | abort (m : AbortMsg)
  /-- PREEMPTION_REQUEST (R383): The launch unit cannot place a group and sends pre-emption requests to a victim's tasks. -/
  | preemptionRequest (run cls : Nat)
  /-- CODE_STORE (R382): A code store reaches a core and writes a slot, or is dropped when busy; its word, and whether it is of the
  code load in progress (R381). -/
  | codeStore (core slot : Nat) (w : Nat × Bool)
  /-- MAILBOX_PLACEMENT (R112): A producer held at a full mailbox places its entry once one frees. -/
  | mailboxPlacement (core : Nat)
  /-- CONTROL_MESSAGE_RESEND (R429): An unacknowledged class-1 message is resent on the next usable port, or lost and its launch aborted. -/
  | controlMessageResend (id : Nat)
  /-- TASK_END (R47): Once TEND's waits are over, releases the task's stores, counts it arrived at barriers and cuts and frees its core. -/
  | taskEnd (core : Nat)
  /-- SAFEPOINT_OVERDUE (R162): The safe-point watchdog passes SPI with a request pending and the A-stream traps. -/
  | safepointOverdue (core : Nat)
  /-- COPY_ELEMENT (R236): A streamer moves one copy element and the channel watermark advances. -/
  | copyElement (core ch : Nat)
  /-- CLIP_BOX_MESSAGE (R239): The streamer places a clip-box message in the issuing core's mailbox, waiting for room. -/
  | clipBoxMessage (core ch : Nat)
  /-- COPY_COMPLETE (R240): A copy completes, releases if flagged and writes its completion word. -/
  | copyComplete (core ch : Nat)
  /-- NMC_GRANULE (R244): The engine reads, computes and writes one granule, or skips or holds it. -/
  | nmcGranule (id : Nat)
  /-- NMC_COMPLETE (R246): The engine releases if flagged and writes the command's completion record. -/
  | nmcComplete (id : Nat)
  /-- BAR_STALL (R335): A BARWAIT waiting 2^24 cycles traps. -/
  | barStall (core : Nat)
  /-- XBAR_RELEASE (R327): All members have arrived and the previous phase has ended, so slot counters reset and a new phase begins. -/
  | xbarRelease (run group : Nat)
  /-- QP_ENTRY_START (R345): The head entry starts once its trigger counter reaches its threshold. -/
  | qpEntryStart (qp : Nat)
  /-- SRC_REUSE (R346): Every source byte is held or acknowledged and the reuse counter rises. -/
  | srcReuse (qp : Nat)
  /-- LOCAL_DONE (R346): The remote port has acknowledged every byte and the local counter rises. -/
  | localDone (qp : Nat)
  /-- ALL_DONE (R346): The remote has placed and released every byte and the all-done counter rises. -/
  | allDone (qp : Nat)
  /-- INVALIDATION_COMPLETE (R409): An invalidation completes on every die and SDSTAT.PEND falls. -/
  | invalidationComplete (id : Nat)
  /-- GANG_TIMEOUT (R286): A core waits 2^20 cycles at the wired barrier, traps and withdraws its arrival. -/
  | gangTimeout (core : Nat)
  /-- JOIN_OPEN (R305): A JOIN reaches the head of the matrix queue and opens, accepting held contributions. -/
  | joinOpen (gang : Nat)
  /-- JOIN_TIMEOUT (R307): A join open 2^24 cycles closes with the slots it holds. -/
  | joinTimeout (gang : Nat)
  /-- DRAIN_ADD_TIMEOUT (R307): An unacknowledged DRAIN.ADD after 2^24 cycles discards its contribution and completes. -/
  | drainAddTimeout (gang : Nat)
  /-- PENDING_RESULT_WRITTEN (R109): A variable-latency result arrives and its pending destination is written. -/
  | pendingResultWritten (core id : Nat)
  /-- HOME_WRITE_APPLY (R173): A home applies a write once its chain and horizon conditions hold. -/
  | homeWriteApply (id : Nat)
  /-- HOME_LOAD_ANSWER (R175): A home answers a load or performs an atomic once its horizons cover the carried vector. -/
  | homeLoadAnswer (id : Nat)
  /-- RETRY_BACKOFF (R185): A refused synchronising access retries after its back-off delay. -/
  | retryBackoff (id : Nat)
  /-- FE_STALL (R186): A synchronising access not done after 2^24 cycles traps and withdraws. -/
  | feStall (core : Nat)
  /-- SKEW_TIMER_EXPIRY (R215): The skew timer exceeds CUTTMO.LIM and the root sends ABORT(n). -/
  | skewTimerExpiry (grp n : Nat)
  /-- CUTHOLD (R216): Writing CUTHOLD holds a cut or, when cleared, lets waiting CUTAs retire. -/
  | cuthold (w : Writer) (v : Word)
  /-- LPORT (R376): Writing LPORT submits a storyboard with the current domain. -/
  | lport (w : Writer) (v : Word)
  /-- LABORT (R377): Writing LABORT aborts every launch of a storyboard on the device. -/
  | labort (w : Writer) (v : Word)
  /-- XCL (R378): Writing XCL reads the exclusion bitmap for later launches. -/
  | xcl (w : Writer) (v : Word)
  /-- DEAL (R51): A place falls free and the binder deals it a chunk of groups. -/
  | deal (run : Nat) (cores : List Nat) (free : Nat)
  /-- LAUNCH_RETIRE (R54): All tasks and cuts of a launch end, releasing its writes and starting successors. -/
  | launchRetire (run : Nat)
  /-- CONTEXT_SAVE (R384): Once tasks wait at safe points and traffic has landed, each core's context is saved and units freed. -/
  | contextSave (run : Nat)
  /-- RESUMPTION (R389): A saved launch's units are free and its cores are restored and restarted. -/
  | resumption (run : Nat)
  /-- CLDCTL_GO (R381): Writing CLDCTL with GO starts a code-image broadcast to every core. -/
  | cldctlGo (w : Writer) (v : Word)
  /-- CODE_LOAD_COMPLETE (R381): Every core has written every slot and BUSY returns to 0. -/
  | codeLoadComplete
  /-- SVABORT (R364): Writing 1 stops both streams, records it and aborts the launch. -/
  | svabort (core : Nat)
  /-- ERROR_CLASS (R374): An enabled error class traps the responsible task at its next A-stream boundary. -/
  | errorClass (core : Nat)
  /-- ERRSW (R372): Writing ERRSW appends a SOFT record. -/
  | errsw (w : Writer) (v : Word)
  /-- ERRCORR (R372): Reading ERRCORR returns and clears the corrected-error counts. -/
  | errcorr
  /-- ERRLOST (R372): Reading ERRLOST returns and clears the lost-record count. -/
  | errlost
  /-- PORTSTAT (R415): Reading PORTSTAT returns the port state and clears its retry count. -/
  | portstat
  /-- QCCLR (R341): Writing QCCLR sets a trigger counter to zero. -/
  | qcclr (w : Writer) (v : Word)
  /-- MBPOST (R422): Writing MBPOST places a 64-byte message in a core's mailbox, waiting for room. -/
  | mbpost (w : Writer) (v : Word)
  /-- REGISTER_WRITE (R359): Writes the RW fields of a supervisor or device register that has no row of its own. -/
  | registerWrite (w : Writer) (n : Nat) (v : Word)
  /-- DEBUG_HALT (R391): Halts the selected streams at their next issue boundary. -/
  | debugHalt (a x : Bool)
  /-- DEBUG_RESUME (R391): Resumes the selected halted streams. -/
  | debugResume (a x : Bool)
  /-- DEBUG_STEP (R391): Issues one instruction of a halted stream and halts again. -/
  | debugStep (a x : Bool)
  /-- DBGDATA (R390): Writing DBGDATA sets the selected register word of a halted stream. -/
  | dbgdata (w : Writer) (v : Word)
  /-- DBGIW (R390): Writing word index 2 commits an instruction slot as a code store. -/
  | dbgiw (w : Writer) (v : Word)
  /-- ISLFREQ (R420): Writing ISLFREQ requests a new island frequency, stopping its clock briefly. -/
  | islfreq (w : Writer) (v : Word)
  /-- ISLAND_CAP_CHANGE (R420): Ngupor lowers or raises an island's ceiling for power or temperature. -/
  | islandCapChange (cl mhz : Nat)
  /-- REELCTL_GO (R426): Writing GO starts a reel or refuses it. -/
  | reelctlGo (w : Writer) (v : Word)
  /-- REEL_END (R426): The reel engine finishes, sets STATUS and raises INTPEND[2]. -/
  | reelEnd
  /-- HOST_WINDOW_ACCESS (R423): A host access through BAR2 is performed at its home as a device-scope access. -/
  | hostWindowAccess (off : Nat) (len : Nat) (data : Option (List Byte))
  /-- STATUS (R424): Management command returning device status, power, temperatures and frequencies. -/
  | status (q : MgmtReq)
  /-- ERRREAD (R424): Management command returning error-ring records from an index. -/
  | errread (q : MgmtReq) (idx n : Nat)
  /-- FLASHWR (R424): Management command writing the inactive flash image region, from an offset on. -/
  | flashwr (q : MgmtReq × Nat) (data : List Byte)
  /-- FLASHSEL (R424): Management command marking an image region active after its digest checks: 0 for A, 1 for B. -/
  | flashsel (q : MgmtReq × Nat)
  /-- RESET (R424): Management command resetting a partition or the module. -/
  | reset (q : MgmtReq)
  /-- MSG (R424): Management command placing 64 bytes for the Welwick cores and setting INTPEND[3]. -/
  | msg (q : MgmtReq × List Byte)
  /-- MODULE_RESET (R427): A module reset restarts bring-up at stage 1 and clears every stack. -/
  | moduleReset
  /-- LINK_RETRY (R370): A link packet fails its CRC and is retried or dropped with a record. -/
  | linkRetry (port : Nat) (drop : Option LinkDrop)
  /-- ERROR_CORRECTED (R370): A correctable error is corrected and counted in ERRCORR; of an SRAM the cluster and address of a clean
  cache line with an uncorrectable one. -/
  | errorCorrected (kind : Nat × Option (Nat × Nat))
  /-- SRAM_UNCORRECTABLE (R370): An uncorrectable error in core storage aborts the launch with a record. -/
  | sramUncorrectable (core kind index : Nat)
  /-- RESULT_LANDS (R107): A fixed-latency result lands in its destination at the end of cycle t + L − 1, or later under R108, and reads issued afterwards see it. -/
  | resultLands (core : Nat) (x : Bool)
  /-- GANG_INSTRUCTION_COMPLETE (R287): A queued gang instruction finishes its writes to the accumulator, array and tiles, counts its events, releases its tile holds and lets the next queued instruction start. -/
  | gangInstructionComplete (gang : Nat)
  /-- PORT_UP_CHANGE (R415): A Zadon link port trains and comes up, or loses its link, changing PORTSTAT.UP and the usable ports of R417 and R429. -/
  | portUpChange (port lanes : Nat) (up : Bool)
  deriving DecidableEq, Repr

end Sys2Proof
end

