-- ==== Sys2Proof/WellFormed.lean ====
section
/-! DEFINITION. Which instructions are well formed: the accepted operand classes, field ranges and zero fields of step 1 of
05 R131, by the stream that would execute the instruction; which stream may execute it and which privilege it needs. -/

namespace Sys2Proof

/-- What may execute an instruction (05 R134); an event is no instruction word. -/
inductive Side where
  | a
  | x
  | both
  | event
  deriving DecidableEq, Repr

/-- Signed value of an 18-bit-and-sign immediate or offset (05 R122). -/
def imm19 (v : BitVec 19) : Int := v.toInt

namespace Desc

/-- A register of the scalar file of the stream (05 R134). -/
def isReg (x : Bool) : Desc → Bool
  | .g _ => !x
  | .s _ => x
  | _ => false

/-- A predicate register. -/
def isP : Desc → Bool
  | .p _ => true
  | _ => false

/-- A vector register. -/
def isV : Desc → Bool
  | .v _ => true
  | _ => false

/-- A g register. -/
def isG : Desc → Bool
  | .g _ => true
  | _ => false

/-- A port that the stream may push (05 R111): AQ and BQA by the A-stream, XQ and BQX by the X-stream. -/
def isPush (x : Bool) : Desc → Bool
  | .port c => if x then c == 1 || c == 3 else c == 0 || c == 2
  | _ => false

/-- The branch-outcome port that the stream may push (05 R111). -/
def isPushB (x : Bool) : Desc → Bool
  | .port c => if x then c == 3 else c == 2
  | _ => false

/-- A port that the stream may pop (05 R111, R112). -/
def isPop (x : Bool) : Desc → Bool
  | .port c => if x then c == 0 || c == 2 else c == 1 || c == 3 || c == 4 || c == 5
  | _ => false

/-- The branch-outcome port that the stream may pop (06 R148). -/
def isPopB (x : Bool) : Desc → Bool
  | .port c => if x then c == 2 else c == 3
  | _ => false

/-- An immediate whose value, as a signed integer, lies between two bounds. -/
def isImm (lo hi : Int) : Desc → Bool
  | .imm n => decide (lo ≤ imm19 n) && decide (imm19 n ≤ hi)
  | _ => false

/-- A destination of a scalar instruction (06 R139). -/
def isDst (x : Bool) (d : Desc) : Bool := d.isReg x || d.isPush x

/-- A source of a scalar instruction (06 R139). -/
def isSrc (x : Bool) : Desc → Bool
  | .const _ => true
  | .imm _ => true
  | d => d.isReg x || d.isPop x

/-- The field operand of BFX and BFI (06 R141). -/
def isField : Desc → Bool
  | .imm k =>
    let n := k.toNat
    let lo := n % 64
    let wid := n / 64 % 128
    decide (n < 8192) && decide (1 ≤ wid) && decide (lo + wid ≤ 64)
  | _ => false

/-- A base of family M (05 R126): a constant slot, or a scalar register of the stream. -/
def isBase (x : Bool) : Desc → Bool
  | .const _ => true
  | d => d.isReg x

end Desc

/-- A scope field: physical values 11 to 15 are ill formed (02 R43). -/
def scopeOk (s : BitVec 5) : Bool := decide (s.toNat < 27)

/-- A scope field that is zero unless one of the flags is set (09 R233, R242, 13 R344). -/
def flagScopeOk (acq rel : Bool) (s : BitVec 5) : Bool := scopeOk s && (acq || rel || s == 0)

namespace MForm

/-- LL and LS (09 R219, R222; modes of 07 R183). -/
def lmOk (load : Bool) (m : MForm) : Bool :=
  m.base.isBase false && decide (m.sz.toNat ≤ 6) && scopeOk m.scope &&
  (if m.mode == 0 then m.scope == 0
   else m.sz == 3 && (m.mode == 5 || (if load then m.mode == 1 || m.mode == 2 else m.mode == 3 || m.mode == 4)))

/-- LD, ST and LDC (09 R219). -/
def plainOk (m : MForm) : Bool := m.base.isBase false && decide (m.sz.toNat ≤ 6) && m.scope == 0 && m.mode == 0

/-- LDFE and STFE (09 R219; modes of 07 R183). -/
def feOk (load : Bool) (m : MForm) : Bool :=
  m.base.isBase false && m.sz == 3 && scopeOk m.scope &&
  (m.mode == 0 || m.mode == 5 || (if load then m.mode == 1 || m.mode == 2 else m.mode == 3 || m.mode == 4))

/-- TRYLDFE and TRYSTFE (09 R227). -/
def tryOk (load : Bool) (m : MForm) : Bool := m.feOk load && decide (m.didx.toNat ≤ 62)

/-- The atomics (09 R228): `minmax` forms take SGN, which 8-byte ones need. -/
def atOk (minmax : Bool) (m : MForm) : Bool :=
  m.base.isBase false && decide (m.sz.toNat ≤ 3) && m.scope == 0 &&
  (if minmax then decide (m.mode.toNat ≤ 1) && (m.sz != 3 || m.mode == 1) else m.mode == 0)

/-- ACAS (09 R228). -/
def casOk (m : MForm) : Bool := m.atOk false && m.didx.toNat % 2 == 0

/-- DST (09 R219, R230). -/
def dstOk (m : MForm) : Bool :=
  m.base.isBase false && decide (m.sz.toNat ≤ 6) && m.scope == 0 && (m.mode != 3 || m.sz == 3)

/-- RDSUM (09 R231). -/
def rdsumOk (m : MForm) : Bool :=
  m.base.isBase false && m.sz == 3 && m.scope == 0 && m.mode == 0 && m.didx.toNat % 8 == 0

/-- VLL and VLS (10 R271). -/
def vecOk (m : MForm) : Bool :=
  m.base.isBase true && m.sz == 0 && m.scope == 0 && m.mode == 0 && decide (m.didx.toNat < 32)

end MForm

/-- Integer format codes (10 R249). -/
def isIntFmt (f : Nat) : Bool := decide (16 ≤ f) && decide (f ≤ 23)

/-- Width codes: formats whose elements are 8, 16, 32 or 64 bits wide (10 R249). -/
def isWidthFmt (f : Nat) : Bool := decide (f ≤ 4) || f == 13 || f == 14 || isIntFmt f

/-- MX format codes (03 R76). -/
def isMxFmt (f : Nat) : Bool := decide (8 ≤ f) && decide (f ≤ 12)

/-- FP32, BF16 and FP16. -/
def isWideFloat (f : Nat) : Bool := decide (f ≤ 2)

/-- Element width of a format code in bits (10 R249). -/
def fmtWidth (f : Nat) : Nat :=
  if f = 0 ∨ f = 18 ∨ f = 22 then 32
  else if f = 14 ∨ f = 19 ∨ f = 23 then 64
  else if f = 1 ∨ f = 2 ∨ f = 17 ∨ f = 21 then 16
  else if f = 5 ∨ f = 6 ∨ f = 10 ∨ f = 11 then 6
  else if f = 7 ∨ f = 12 then 4
  else 8

namespace VForm

/-- FMT as a number. -/
def fm (f : VForm) : Nat := f.fmt.toNat

/-- SFMT as a number. -/
def sm (f : VForm) : Nat := f.sfmt.toNat

/-- No rounding field is used (05 R129). -/
def noRound (f : VForm) : Bool := f.rm == 0 && !f.sp && f.stride == 0 && f.sbase == 0

/-- The rounding fields of an instruction that rounds: STRIDE and SBASE are zero unless RM = 2 (05 R129). -/
def rounds (f : VForm) (rz sr : Bool) : Bool :=
  (f.rm == 0 || (rz && f.rm == 1) || (sr && f.rm == 2)) && (f.rm == 2 || (f.stride == 0 && f.sbase == 0))

def saV (f : VForm) : Bool := match f.sa with
  | .v _ => true
  | _ => false

def saVC (f : VForm) : Bool := match f.sa with
  | .v _ => true
  | .const _ => true
  | _ => false

def saP (f : VForm) : Bool := match f.sa with
  | .p _ => true
  | _ => false

def saNone (f : VForm) : Bool := match f.sa with
  | .none => true
  | _ => false

/-- SB is a v register or a constant, or, where allowed, an immediate. -/
def sbVC (imm : Bool) (f : VForm) : Bool := match f.sb with
  | some (.v _) => true
  | some (.const _) => true
  | some (.imm _) => imm
  | _ => false

/-- SB is an s register or a constant, or, where allowed, an immediate. -/
def sbS (imm : Bool) (f : VForm) : Bool := match f.sb with
  | some (.s _) => true
  | some (.const _) => true
  | some (.imm _) => imm
  | _ => false

def sbNone (f : VForm) : Bool := f.sb == none

/-- SB is an immediate of the bits [3:0] (10 R275, R276). -/
def sbMask (f : VForm) : Bool := match f.sb with
  | some (.imm v) => decide (v.toNat < 16)
  | _ => false

/-- Floating arithmetic of two operands (10 R255). -/
def arithOk (f : VForm) : Bool :=
  isWideFloat f.fm && f.sm == 0 && f.saVC && f.sbVC false && f.rounds true true

/-- VMIN, VMAX (10 R257). -/
def minOk (f : VForm) : Bool := isWideFloat f.fm && f.sm == 0 && f.saVC && f.sbVC false && f.noRound

/-- VABS, VNEG (10 R257). -/
def signOk (f : VForm) : Bool := isWideFloat f.fm && f.sm == 0 && f.saVC && f.sbNone && f.noRound

/-- Integer arithmetic, logic and shifts (10 R258, R261). -/
def intOk (f : VForm) : Bool := isIntFmt f.fm && f.sm == 0 && f.saVC && f.sbVC true && f.noRound

/-- VIABS, VINEG (10 R258). -/
def intUnOk (f : VForm) : Bool := isIntFmt f.fm && f.sm == 0 && f.saVC && f.sbNone && f.noRound

/-- Compares (10 R259). -/
def cmpOk (un : Bool) (f : VForm) : Bool :=
  f.fm == 0 && (decide (f.sm ≤ 4) || (!un && isIntFmt f.sm)) && f.saVC && f.sbVC (isIntFmt f.sm) && f.noRound &&
  decide (f.didx.toNat < 16)

/-- VSEL (10 R260). -/
def selOk (f : VForm) : Bool := isWidthFmt f.fm && f.sm == 0 && f.saVC && f.sbVC (isIntFmt f.fm) && f.noRound

/-- Floating formats that VCVT names (10 R263). -/
def isFloat (f : Nat) : Bool := decide (f ≤ 7)

/-- The format pairs of VCVT with RM other than 3 (10 R262, R263): the RM values the pair takes. -/
def cvtPair (sf df : Nat) : Bool × Bool × Bool :=
  -- (accepted, RZ, SR)
  if decide (max (fmtWidth sf) (fmtWidth df) < 8) then (false, false, false)
  else if isFloat sf && isFloat df then (true, true, true)
  else if isWideFloat sf && isMxFmt df then (true, true, true)
  else if isMxFmt sf && isWideFloat df then (true, true, true)
  else if isFloat sf && df == 13 then (true, false, false)
  else if sf == 13 && isWideFloat df then (true, true, true)
  else if isFloat sf && isIntFmt df then (true, true, true)
  else if isIntFmt sf && isFloat df then (true, true, true)
  else if isIntFmt sf && isIntFmt df then (true, false, false)
  else if decide (sf ≤ 4) && df == 14 then (true, true, true)
  else if sf == 14 && decide (df ≤ 4) then (true, true, true)
  else (false, false, false)

/-- VCVT with RM other than 3 (10 R262 to R265). -/
def cvtOk (f : VForm) : Bool :=
  let (ok, rz, sr) := cvtPair f.sm f.fm
  ok && f.rounds rz sr && f.saV &&
  (if f.fm == 14 || f.sm == 14 then f.sbS true else f.sbNone) &&
  (!isMxFmt f.fm || decide (f.didx.toNat ≤ 30)) &&
  (!isMxFmt f.sm || (match f.sa with
    | .v i => decide (i.toNat ≤ 30)
    | _ => false))

/-- VCVT with RM = 3 (10 R266). -/
def efOk (f : VForm) : Bool :=
  f.rm == 3 && f.stride == 0 && f.sbase == 0 && f.sm == 0 && decide (1 ≤ f.fm) && decide (f.fm ≤ 7) &&
  (match f.sa, f.sb with
   | .v a, some (.v e) => e != a && e != f.didx
   | _, _ => false)

/-- VMXDOT (10 R267). -/
def mxdotOk (f : VForm) : Bool :=
  f.fm == 0 && isMxFmt f.sm && f.rounds false true && f.stride == 0 &&
  (match f.sa, f.sb with
   | .v a, some (.v b) => decide (a.toNat ≤ 30) && decide (b.toNat ≤ 30)
   | _, _ => false)

/-- VREDSUM (10 R268). -/
def redsumOk (f : VForm) : Bool :=
  isWideFloat f.fm && f.sm == 0 && f.saV && f.sbNone && f.rounds false true && f.stride == 0

/-- VREDMAX (10 R269). -/
def redmaxOk (f : VForm) : Bool :=
  (isWideFloat f.fm || isIntFmt f.fm) && f.sm == 0 && f.saV && f.sbNone && f.noRound

/-- VPERM (10 R270). -/
def permOk (f : VForm) : Bool := isIntFmt f.fm && f.sm == 0 && f.saV && (match f.sb with
  | some (.v _) => true
  | _ => false) && f.noRound

/-- VBCAST of a scalar (10 R270). -/
def bcastOk (f : VForm) : Bool := isWidthFmt f.fm && f.sm == 0 && f.saNone && f.sbS (isIntFmt f.fm) && f.noRound

/-- VBCAST of an element, and VSLIDE (10 R270). -/
def slideOk (f : VForm) : Bool := isWidthFmt f.fm && f.sm == 0 && f.saV && f.sbS true && f.noRound

/-- VMOV (10 R270). -/
def movOk (f : VForm) : Bool := isWidthFmt f.fm && f.sm == 0 && f.saVC && f.sbNone && f.noRound

/-- VMOV of a predicate (10 R270). -/
def movPOk (f : VForm) : Bool := f.fm == 20 && f.sm == 0 && f.saP && f.sbNone && f.noRound

/-- VRAND (10 R273). -/
def randOk (f : VForm) : Bool := (f.fm == 22 || f.fm == 23) && f.sm == 0 && f.saNone && f.sbS true && f.noRound

/-- KSET (10 R272). -/
def ksetOk (f : VForm) : Bool :=
  f.fm == 0 && f.sm == 0 && f.didx == 0 && f.saNone && f.noRound &&
  (match f.sb with
   | some (.s i) => decide (i.toNat ≤ 14)
   | some (.const k) => decide (k.toNat ≤ 0xFE)
   | _ => false)

/-- The special functions (10 R274). -/
def specialOk (f : VForm) : Bool := f.fm == 0 && f.sm == 0 && f.saVC && f.sbNone && f.rounds false false

/-- PRANGE (10 R253). -/
def prangeOk (f : VForm) : Bool :=
  isWidthFmt f.fm && f.sm == 0 && f.saNone && f.noRound && decide (f.didx.toNat < 16) &&
  (match f.sb with
   | some (.s i) => decide (i.toNat ≤ 14)
   | _ => false)

/-- VLEN (10 R254). -/
def vlenOk (f : VForm) : Bool :=
  isIntFmt f.fm && f.fm != 16 && f.fm != 20 && f.sm == 0 && f.saNone && f.sbNone && f.noRound

/-- VSTAT to a v register (10 R275). -/
def vstatOk (f : VForm) : Bool := f.fm == 23 && f.sm == 0 && f.saNone && f.sbNone && f.noRound

/-- VSTAT to a predicate (10 R275). -/
def vstatPOk (f : VForm) : Bool :=
  f.fm == 0 && f.sm == 0 && f.saNone && f.sbMask && f.noRound && decide (f.didx.toNat < 16)

/-- VCLRF (10 R276). -/
def vclrfOk (f : VForm) : Bool := f.fm == 0 && f.sm == 0 && f.didx == 0 && f.saNone && f.sbMask && f.noRound

end VForm

/-- CPY (09 R233). -/
def CpyForm.ok (c : CpyForm) : Bool :=
  flagScopeOk c.acq c.rel c.scope && (c.cw || c.gc == 0) && (c.mc || c.gm == 0) &&
  (c.dir || (!c.mc && c.rule == 0)) && (!c.dir || !c.fe) && (!c.sgn || c.rule == 4 || c.rule == 5)

namespace GForm

/-- What the three forms of GMMA have in common (11 R296): RM 0 or 2, and CT only with RM = 2. -/
def rmOk (f : GForm) : Bool := f.rm == 2 || (f.rm == 0 && f.ct == 0)

/-- GMMA.F (11 R296). -/
def fOk (f : GForm) : Bool :=
  f.rmOk && decide (f.accr.toNat + f.mm1.toNat + 1 ≤ 256) && f.tb == 0 && f.tm == 0 && !f.msk

/-- GMMA.B (11 R296). -/
def bOk (f : GForm) : Bool :=
  f.rmOk && decide (f.accr.toNat + f.mm1.toNat + 1 ≤ 256) && f.tb == 0 && (f.msk || f.tm == 0)

/-- GMMA.O (11 R296). -/
def oOk (f : GForm) : Bool := f.rmOk && decide (f.mm1.toNat + 1 ≤ 255) && f.accr == 0 && (f.msk || f.tm == 0)

end GForm

namespace AForm

/-- Rows within the bank (11 R301). -/
def rowsOk (f : AForm) : Bool := decide (f.accr.toNat + f.mm1.toNat + 1 ≤ 256)

/-- No second bank. -/
def no2 (f : AForm) : Bool := !f.bank2 && f.accr2 == 0

/-- DRAIN (11 R301). -/
def drainOk (f : AForm) : Bool :=
  f.rowsOk && f.no2 && (decide (f.fmt.toNat ≤ 4) || isMxFmt f.fmt.toNat) && f.rm != 3 && f.ct == 0 && !f.add && f.ns == 0

/-- DRAIN.ADD (11 R301). -/
def drainAddOk (f : AForm) : Bool :=
  f.rowsOk && f.no2 && f.td == 0 && f.fmt == 0 && f.rm == 0 && !f.sp && f.ct == 0 && !f.add && decide (f.ns.toNat ≤ 254)

/-- ODRAIN (11 R301). -/
def odrainOk (f : AForm) : Bool :=
  f.no2 && f.td == 0 && decide (f.accr.toNat ≤ 192) && f.mm1 == 0 && f.fmt == 0 && !f.sp && !f.clr && f.sidx == 0 &&
  f.ns == 0 && (if f.add then f.rm == 2 || (f.rm == 0 && f.ct == 0) else f.rm == 0 && f.ct == 0)

/-- JOIN (11 R301). -/
def joinOk (f : AForm) : Bool :=
  f.rowsOk && f.no2 && f.td == 0 && f.fmt == 0 && !f.sp && !f.clr && f.sidx == 0 && !f.add && f.ns != 0 &&
  (f.rm == 2 || (f.rm == 0 && f.ct == 0))

/-- No field of the drains and joins is used. -/
def plain (f : AForm) : Bool :=
  f.fmt == 0 && f.rm == 0 && !f.sp && !f.clr && f.sidx == 0 && f.ct == 0 && !f.add && f.ns == 0

/-- ACCLD and ACCST (11 R301). -/
def accOk (f : AForm) : Bool := f.rowsOk && f.no2 && f.plain

/-- ACCCP (11 R301). -/
def acccpOk (f : AForm) : Bool :=
  f.rowsOk && f.plain && f.td == 0 && decide (f.accr2.toNat + f.mm1.toNat + 1 ≤ 256)

end AForm

/-- Special register numbers of the A-stream and of the X-stream (05 R110, 06 R146). -/
def srOk (x : Bool) (n : BitVec 6) : Bool :=
  if x then n == 0 || n == 3 || n == 4 || n == 0x10 || n == 0x11 || n == 0x12 || n == 0x13 else decide (n.toNat ≤ 4)

/-- Registers of the continuity unit (12 R311): assigned numbers, and those with a writable field. -/
def contRegOk (write : Bool) (n : BitVec 7) : Bool :=
  let k := n.toNat
  decide (k ≤ 5) || decide (0x40 ≤ k) ||
  (!write && (k == 6 || (decide (0x10 ≤ k) && decide (k ≤ 0x17)) || (decide (0x20 ≤ k) && decide (k ≤ 0x28))))

/-- Core-local supervisor registers of a compute core (16 R360). -/
def svLocal (n : Nat) : Bool := decide (n ≤ 0x00B)

/-- Core-local supervisor registers of a Welwick core (19 R421; trap registers under 16 R357). -/
def svWelwick (n : Nat) : Bool := decide (0x020 ≤ n) && decide (n ≤ 0x023)

/-- Assigned device registers (16 R361, 08 R204, 13 R340, R341, 17 R375, R390, 18 R394, R407, 19 R415, R420, R422, R426). -/
def svDevice (n : Nat) : Bool :=
  (decide (0x100 ≤ n) && decide (n ≤ 0x10B)) || (decide (0x110 ≤ n) && decide (n ≤ 0x115)) ||
  (decide (0x120 ≤ n) && decide (n ≤ 0x131)) || (decide (0x200 ≤ n) && decide (n ≤ 0x204)) || n == 0x208 ||
  n == 0x210 || n == 0x211 || n == 0x218 || (decide (0x220 ≤ n) && decide (n ≤ 0x226)) || n == 0x240 || n == 0x241 ||
  n == 0x248 || (decide (0x250 ≤ n) && decide (n ≤ 0x253)) || (decide (0x260 ≤ n) && decide (n ≤ 0x262)) ||
  n == 0x268 || n == 0x269 || (decide (0x270 ≤ n) && decide (n ≤ 0x272)) || n == 0x280 || n == 0x281 ||
  n == 0x2E0 || n == 0x2E1 || n == 0x2F0 || n == 0x2F1 || n == 0x2F8 || n == 0x2FA

/-- An assigned supervisor register number (16 R359). -/
def svOk (n : BitVec 12) : Bool := svLocal n.toNat || svWelwick n.toNat || svDevice n.toNat

/-- A remote destination (05 R123, 06 R158). -/
def sendDstOk : Desc → Bool
  | .remote _ file index => file == 0 || (file == 2 && index == 0)
  | _ => false

def vsendDstOk : Desc → Bool
  | .remote tgt file _ => file == 1 && decide (tgt.toNat < 16)
  | _ => false

def xsendDstOk : Desc → Bool
  | .remote _ file _ => file == 0
  | _ => false

/-- CLRP of a register with a presence bit (06 R160). -/
def clrpOk (x : Bool) : Desc → Bool
  | .g i => !x && decide (32 ≤ i.toNat)
  | .v _ => x
  | _ => false

/-- A branch offset (05 R127). -/
def offOk (o : BitVec 19) : Bool := decide (-4095 ≤ imm19 o) && decide (imm19 o ≤ 4095)

/-- A loop offset (05 R128). -/
def loopOffOk (o : BitVec 19) : Bool := decide (1 ≤ o.toNat) && decide (o.toNat ≤ 4095)

/-- A trip count (05 R128). -/
def tripOk (x : Bool) : Desc → Bool
  | .imm _ => true
  | d => d.isReg x

namespace Instr

/-- Which stream may execute an instruction (05 R134). -/
def side : Instr → Side
  | .nop .. | .add .. | .sub .. | .mul .. | .mulhs .. | .mulhz .. | .and .. | .or .. | .xor .. | .andn .. | .shl ..
  | .shr .. | .sar .. | .rot .. | .mov .. | .movk .. | .sext .. | .zext .. | .clz .. | .ctz .. | .popc .. | .bfx ..
  | .bfi .. | .mins .. | .maxs .. | .minz .. | .maxz .. | .cmpeq .. | .cmpne .. | .cmplts .. | .cmples ..
  | .cmpltz .. | .cmplez .. | .pand .. | .por .. | .pxor .. | .pnot .. | .addsat .. | .subsat .. | .divs ..
  | .divz .. | .rems .. | .remz .. | .br .. | .brq .. | .brqn .. | .jmp .. | .loop .. | .breakl .. | .call ..
  | .calli .. | .ret .. | .trap .. | .brk .. | .trypop .. | .trypush .. | .pushb .. | .clrp .. => .both
  | .rdsx .. | .wrsx .. | .xend .. | .vsend .. | .vadd .. | .vsub .. | .vmul .. | .vfma .. | .vfms .. | .vmin ..
  | .vmax .. | .vabs .. | .vneg .. | .viadd .. | .visub .. | .vimul .. | .vimin .. | .vimax .. | .viabs ..
  | .vineg .. | .viadds .. | .visubs .. | .vcmpeq .. | .vcmpne .. | .vcmplt .. | .vcmple .. | .vcmpun .. | .vsel ..
  | .vand .. | .vor .. | .vxor .. | .vandn .. | .vshl .. | .vshr .. | .vsar .. | .vcvt .. | .vcvtEf .. | .vmxdot ..
  | .vredsum .. | .vredmax .. | .vperm .. | .vbcast .. | .vbcastElement .. | .vslide .. | .vmov ..
  | .vmovPredicate .. | .vll .. | .vls .. | .vrand .. | .kset .. | .vexp2 .. | .vlog2 .. | .vrcp .. | .vrsqrt ..
  | .vsqrt .. | .prange .. | .vlen .. | .vstat .. | .vstatPredicate .. | .vclrf .. | .tcfg .. | .tstat ..
  | .tstatBank .. | .tclr .. | .tclrBank .. | .tldl .. | .tstl .. | .wld .. | .gmmaF .. | .gmmaB .. | .gmmaO ..
  | .drain .. | .drainAdd .. | .odrain .. | .join .. | .accld .. | .accst .. | .acccp .. | .csig .. | .ctest ..
  | .cstore .. | .csheet .. | .ccfg .. => .x
  | .lea .. | .leax .. | .rdsr .. | .wrsr .. | .xgo .. | .tend .. | .safept .. | .send .. | .ll .. | .ls .. | .ld ..
  | .st .. | .ldc .. | .ldfe .. | .stfe .. | .tryldfe .. | .trystfe .. | .atadd .. | .atmin .. | .atmax .. | .ator ..
  | .atand .. | .axadd .. | .axmin .. | .axmax .. | .axor .. | .axand .. | .axchg .. | .acas .. | .fence .. | .rel ..
  | .acq .. | .fenceAx .. | .dst .. | .rdsum .. | .cuta .. | .cutw .. | .cutst .. | .cpy .. | .nmc .. | .nfence ..
  | .barinit .. | .barinitDom .. | .bararr .. | .barwait .. | .xsend .. | .xsendLm .. | .xbar .. | .qpost ..
  | .qtrig .. | .qwait .. | .launch .. | .wloc .. | .mfsv .. | .mtsv .. | .rft .. | .waiti .. | .tlbinvPage ..
  | .tlbinvSpace .. | .tlbinvAll .. => .a
  | .taskEnd .. | .safepointOverdue .. | .sendArrival .. | .heldSendDelivery .. | .copyElement ..
  | .clipBoxMessage .. | .copyComplete .. | .nmcGranule .. | .nmcComplete .. | .barrierArrivalMessage ..
  | .barStall .. | .xsendLanding .. | .xbarRelease .. | .qpEntryStart .. | .srcReuse .. | .localDone .. | .allDone ..
  | .write .. | .writeReduce .. | .invalidationMessage .. | .invalidationComplete .. | .gangTimeout .. | .joinOpen ..
  | .joinContribution .. | .contributionAck .. | .joinTimeout .. | .drainAddTimeout .. | .pendingResultWritten ..
  | .homeWriteApply .. | .homeLoadAnswer .. | .horizonMessage .. | .retryBackoff .. | .feStall ..
  | .deferredRecord .. | .recordAck .. | .recordLost .. | .deviceArrived .. | .arrive .. | .apply ..
  | .applyFinished .. | .report .. | .done .. | .cutAbort .. | .suspend .. | .resume .. | .skewTimerExpiry ..
  | .cuthold .. | .pullReadRequest .. | .lport .. | .labort .. | .xcl .. | .launchAccept .. | .pass .. | .go ..
  | .fault .. | .deal .. | .groupStart .. | .start .. | .launchRetire .. | .abortReport .. | .abort ..
  | .preemptionRequest .. | .contextSave .. | .resumption .. | .cldctlGo .. | .codeLoadComplete .. | .codeStore ..
  | .svabort .. | .errorClass .. | .errsw .. | .errcorr .. | .errlost .. | .portstat .. | .qcclr .. | .mbpost ..
  | .mailboxPlacement .. | .registerWrite .. | .debugHalt .. | .debugResume .. | .debugStep .. | .dbgdata ..
  | .dbgiw .. | .islfreq .. | .islandCapChange .. | .reelctlGo .. | .reelEnd .. | .hostWindowAccess .. | .status ..
  | .errread .. | .flashwr .. | .flashsel .. | .reset .. | .msg .. | .moduleReset .. | .linkRetry ..
  | .controlMessageResend .. | .errorCorrected .. | .sramUncorrectable .. | .resultLands ..
  | .gangInstructionComplete .. | .portUpChange .. => .event

/-- Every field breaks neither its family map nor the instruction's accepted classes, where `x` says that the X-stream
executes it (05 R131 step 1). Events are no words. -/
def fieldsOk (x : Bool) : Instr → Bool
  | .nop _ | .breakl _ | .ret _ | .xend _ | .tend _ | .cuta _ | .cutw _ | .xbar _ | .rft _ | .waiti _ => true
  | .add _ d a b | .sub _ d a b | .mul _ d a b | .mulhs _ d a b | .mulhz _ d a b | .and _ d a b | .or _ d a b
  | .xor _ d a b | .andn _ d a b | .shl _ d a b | .shr _ d a b | .sar _ d a b | .rot _ d a b | .mins _ d a b
  | .maxs _ d a b | .minz _ d a b | .maxz _ d a b | .addsat _ d a b | .subsat _ d a b | .divs _ d a b | .divz _ d a b
  | .rems _ d a b | .remz _ d a b => d.isDst x && a.isSrc x && b.isSrc x
  | .mov _ d a | .clz _ d a | .ctz _ d a | .popc _ d a => d.isDst x && a.isSrc x
  | .movk _ d a b => d.isReg x && a.isImm 0 65535 && b.isImm 0 3
  | .sext _ d a b | .zext _ d a b => d.isDst x && a.isSrc x && b.isImm 1 64
  | .bfx _ d a b => d.isDst x && a.isSrc x && b.isField
  | .bfi _ d a b => d.isReg x && a.isSrc x && b.isField
  | .cmpeq _ d a b | .cmpne _ d a b | .cmplts _ d a b | .cmples _ d a b | .cmpltz _ d a b | .cmplez _ d a b => (d.isReg x || d.isP || d.isPushB x) && a.isSrc x && b.isSrc x
  | .pand _ d a b | .por _ d a b | .pxor _ d a b => (d.isP || d.isPushB x) && a.isP && b.isP
  | .pnot _ d a => (d.isP || d.isPushB x) && a.isP
  | .lea _ _ _ b _ nob _ | .leax _ _ _ b _ nob _ => !nob || b == 0
  | .rdsr _ _ n | .wrsr _ _ n => srOk false n
  | .rdsx _ _ n | .wrsx _ _ n => srOk true n
  | .br _ o | .call _ o => offOk o
  | .brq _ q o | .brqn _ q o => q.isPopB x && offOk o
  | .jmp _ r | .calli _ r => r.isReg x
  | .loop _ n o => tripOk x n && loopOffOk o
  | .xgo _ r => r.isG
  | .safept _ c l => decide (c.toNat ≤ 0xEE) && decide (l.toNat ≤ 992)
  | .trap _ _ | .brk _ _ | .cutst _ _ | .tlbinvAll _ _ => true
  | .trypop _ d q p => d.isDst x && q.isPop x && p.isP
  | .trypush _ q a p => q.isPush x && a.isSrc x && p.isP
  | .pushb _ q p m => q.isPushB x && p.isP && (match m with
    | none => true
    | some d => x && d.isImm 0 2)
  | .send _ d a => sendDstOk d && a.isSrc false
  | .vsend _ d a => vsendDstOk d && a.isV
  | .clrp _ r => clrpOk x r
  | .ll _ m => m.lmOk true
  | .ls _ m => m.lmOk false
  | .ld _ m | .st _ m | .ldc _ m => m.plainOk
  | .ldfe _ m => m.feOk true
  | .stfe _ m => m.feOk false
  | .tryldfe _ m => m.tryOk true
  | .trystfe _ m => m.tryOk false
  | .atadd _ m | .ator _ m | .atand _ m | .axadd _ m | .axor _ m | .axand _ m | .axchg _ m => m.atOk false
  | .atmin _ m | .atmax _ m | .axmin _ m | .axmax _ m => m.atOk true
  | .acas _ m => m.casOk
  | .fence _ s | .rel _ s | .acq _ s | .fenceAx _ s | .nfence _ s => scopeOk s
  | .dst _ m => m.dstOk
  | .rdsum _ m => m.rdsumOk
  | .cpy _ c => c.ok
  | .nmc _ _ a r s => flagScopeOk a r s
  | .barinit _ _ s => scopeOk s
  | .barinitDom _ _ _ a => a == 2 || a == 3 || a == 4
  | .bararr _ _ o v => decide (o.toNat ≤ 4) && (o != 0 || v == 0)
  | .barwait _ _ d r => r || d == 0
  | .xsend _ d _ _ => xsendDstOk d
  | .xsendLm _ d s _ o => d.isG && s.toNat % 8 == 0 && o.toNat % 8 == 0 && decide (o.toNat ≤ 0xFFC0)
  | .qpost _ _ _ a r s => flagScopeOk a r s
  | .qtrig _ _ _ s | .qwait _ _ _ s => scopeOk s
  | .launch _ a => a.isG
  | .wloc _ d a s => d.isG && a.isG && scopeOk s
  | .mfsv _ _ n | .mtsv _ _ n => svOk n
  | .tlbinvPage _ _ _ _ | .tldl _ _ _ _ | .tstl _ _ _ _ | .ctest _ _ _ _ | .cstore _ _ _ _ => true
  | .tlbinvSpace _ _ _ | .tcfg _ _ _ | .tstat _ _ _ | .tstatBank _ _ _ | .tclr _ _ _ | .tclrBank _ _ _ | .csig _ _ _ => true
  | .vadd _ f | .vsub _ f | .vmul _ f | .vfma _ f | .vfms _ f => f.arithOk
  | .vmin _ f | .vmax _ f => f.minOk
  | .vabs _ f | .vneg _ f => f.signOk
  | .viadd _ f | .visub _ f | .vimul _ f | .vimin _ f | .vimax _ f | .viadds _ f | .visubs _ f | .vand _ f | .vor _ f
  | .vxor _ f | .vandn _ f | .vshl _ f | .vshr _ f | .vsar _ f => f.intOk
  | .viabs _ f | .vineg _ f => f.intUnOk
  | .vcmpeq _ f | .vcmpne _ f | .vcmplt _ f | .vcmple _ f => f.cmpOk false
  | .vcmpun _ f => f.cmpOk true
  | .vsel _ f => f.selOk
  | .vcvt _ f => f.cvtOk
  | .vcvtEf _ f => f.efOk
  | .vmxdot _ f => f.mxdotOk
  | .vredsum _ f => f.redsumOk
  | .vredmax _ f => f.redmaxOk
  | .vperm _ f => f.permOk
  | .vbcast _ f => f.bcastOk
  | .vbcastElement _ f | .vslide _ f => f.slideOk
  | .vmov _ f => f.movOk
  | .vmovPredicate _ f => f.movPOk
  | .vll _ m | .vls _ m => m.vecOk
  | .vrand _ f => f.randOk
  | .kset _ f => f.ksetOk
  | .vexp2 _ f | .vlog2 _ f | .vrcp _ f | .vrsqrt _ f | .vsqrt _ f => f.specialOk
  | .prange _ f => f.prangeOk
  | .vlen _ f => f.vlenOk
  | .vstat _ f => f.vstatOk
  | .vstatPredicate _ f => f.vstatPOk
  | .vclrf _ f => f.vclrfOk
  | .wld _ _ tm sp => sp || tm == 0
  | .gmmaF _ f => f.fOk
  | .gmmaB _ f => f.bOk
  | .gmmaO _ f => f.oOk
  | .drain _ f => f.drainOk
  | .drainAdd _ f => f.drainAddOk
  | .odrain _ f => f.odrainOk
  | .join _ f => f.joinOk
  | .accld _ f | .accst _ f => f.accOk
  | .acccp _ f => f.acccpOk
  | .csheet _ _ n => contRegOk false n
  | .ccfg _ _ n => contRegOk true n
  | .taskEnd .. | .safepointOverdue .. | .sendArrival .. | .heldSendDelivery .. | .copyElement ..
  | .clipBoxMessage .. | .copyComplete .. | .nmcGranule .. | .nmcComplete .. | .barrierArrivalMessage ..
  | .barStall .. | .xsendLanding .. | .xbarRelease .. | .qpEntryStart .. | .srcReuse .. | .localDone .. | .allDone ..
  | .write .. | .writeReduce .. | .invalidationMessage .. | .invalidationComplete .. | .gangTimeout .. | .joinOpen ..
  | .joinContribution .. | .contributionAck .. | .joinTimeout .. | .drainAddTimeout .. | .pendingResultWritten ..
  | .homeWriteApply .. | .homeLoadAnswer .. | .horizonMessage .. | .retryBackoff .. | .feStall ..
  | .deferredRecord .. | .recordAck .. | .recordLost .. | .deviceArrived .. | .arrive .. | .apply ..
  | .applyFinished .. | .report .. | .done .. | .cutAbort .. | .suspend .. | .resume .. | .skewTimerExpiry ..
  | .cuthold .. | .pullReadRequest .. | .lport .. | .labort .. | .xcl .. | .launchAccept .. | .pass .. | .go ..
  | .fault .. | .deal .. | .groupStart .. | .start .. | .launchRetire .. | .abortReport .. | .abort ..
  | .preemptionRequest .. | .contextSave .. | .resumption .. | .cldctlGo .. | .codeLoadComplete .. | .codeStore ..
  | .svabort .. | .errorClass .. | .errsw .. | .errcorr .. | .errlost .. | .portstat .. | .qcclr .. | .mbpost ..
  | .mailboxPlacement .. | .registerWrite .. | .debugHalt .. | .debugResume .. | .debugStep .. | .dbgdata ..
  | .dbgiw .. | .islfreq .. | .islandCapChange .. | .reelctlGo .. | .reelEnd .. | .hostWindowAccess .. | .status ..
  | .errread .. | .flashwr .. | .flashsel .. | .reset .. | .msg .. | .moduleReset .. | .linkRetry ..
  | .controlMessageResend .. | .errorCorrected .. | .sramUncorrectable .. | .resultLands ..
  | .gangInstructionComplete .. | .portUpChange .. => false

/-- The stream may execute the instruction (05 R131 step 2). -/
def runsOn (x : Bool) (i : Instr) : Bool := match i.side with
  | .a => !x
  | .x => x
  | .both => true
  | .event => false

/-- Step 1 of 05 R131 for a stream: an instruction of one stream only is held against that stream's classes. -/
def wfFor (x : Bool) (i : Instr) : Bool := match i.side with
  | .a => i.fieldsOk false
  | .x => i.fieldsOk true
  | .both => i.fieldsOk x
  | .event => false

/-- Well formed for some stream. -/
def wf (i : Instr) : Bool := i.wfFor false || i.wfFor true

/-- The header of an instruction; an event has the all-zero header. -/
def hdr : Instr → Hdr
  | .nop h | .breakl h | .ret h | .xend h | .tend h | .cuta h | .cutw h | .xbar h | .rft h | .waiti h => h
  | .br h _ | .jmp h _ | .call h _ | .calli h _ | .xgo h _ | .trap h _ | .brk h _ | .clrp h _ | .ll h _ | .ls h _
  | .ld h _ | .st h _ | .ldc h _ | .ldfe h _ | .stfe h _ | .tryldfe h _ | .trystfe h _ | .atadd h _ | .atmin h _
  | .atmax h _ | .ator h _ | .atand h _ | .axadd h _ | .axmin h _ | .axmax h _ | .axor h _ | .axand h _ | .axchg h _
  | .acas h _ | .fence h _ | .rel h _ | .acq h _ | .fenceAx h _ | .dst h _ | .rdsum h _ | .cutst h _ | .cpy h _
  | .nfence h _ | .launch h _ | .tlbinvAll h _ | .vadd h _ | .vsub h _ | .vmul h _ | .vfma h _ | .vfms h _
  | .vmin h _ | .vmax h _ | .vabs h _ | .vneg h _ | .viadd h _ | .visub h _ | .vimul h _ | .vimin h _ | .vimax h _
  | .viabs h _ | .vineg h _ | .viadds h _ | .visubs h _ | .vcmpeq h _ | .vcmpne h _ | .vcmplt h _ | .vcmple h _
  | .vcmpun h _ | .vsel h _ | .vand h _ | .vor h _ | .vxor h _ | .vandn h _ | .vshl h _ | .vshr h _ | .vsar h _
  | .vcvt h _ | .vcvtEf h _ | .vmxdot h _ | .vredsum h _ | .vredmax h _ | .vperm h _ | .vbcast h _
  | .vbcastElement h _ | .vslide h _ | .vmov h _ | .vmovPredicate h _ | .vll h _ | .vls h _ | .vrand h _ | .kset h _
  | .vexp2 h _ | .vlog2 h _ | .vrcp h _ | .vrsqrt h _ | .vsqrt h _ | .prange h _ | .vlen h _ | .vstat h _
  | .vstatPredicate h _ | .vclrf h _ | .gmmaF h _ | .gmmaB h _ | .gmmaO h _ | .drain h _ | .drainAdd h _
  | .odrain h _ | .join h _ | .accld h _ | .accst h _ | .acccp h _ => h
  | .mov h _ _ | .clz h _ _ | .ctz h _ _ | .popc h _ _ | .pnot h _ _ | .rdsr h _ _ | .wrsr h _ _ | .rdsx h _ _
  | .wrsx h _ _ | .brq h _ _ | .brqn h _ _ | .loop h _ _ | .safept h _ _ | .send h _ _ | .vsend h _ _
  | .barinit h _ _ | .mfsv h _ _ | .mtsv h _ _ | .tlbinvSpace h _ _ | .tcfg h _ _ | .tstat h _ _ | .tstatBank h _ _
  | .tclr h _ _ | .tclrBank h _ _ | .csig h _ _ | .csheet h _ _ | .ccfg h _ _ => h
  | .add h _ _ _ | .sub h _ _ _ | .mul h _ _ _ | .mulhs h _ _ _ | .mulhz h _ _ _ | .and h _ _ _ | .or h _ _ _
  | .xor h _ _ _ | .andn h _ _ _ | .shl h _ _ _ | .shr h _ _ _ | .sar h _ _ _ | .rot h _ _ _ | .movk h _ _ _
  | .sext h _ _ _ | .zext h _ _ _ | .bfx h _ _ _ | .bfi h _ _ _ | .mins h _ _ _ | .maxs h _ _ _ | .minz h _ _ _
  | .maxz h _ _ _ | .cmpeq h _ _ _ | .cmpne h _ _ _ | .cmplts h _ _ _ | .cmples h _ _ _ | .cmpltz h _ _ _
  | .cmplez h _ _ _ | .pand h _ _ _ | .por h _ _ _ | .pxor h _ _ _ | .addsat h _ _ _ | .subsat h _ _ _
  | .divs h _ _ _ | .divz h _ _ _ | .rems h _ _ _ | .remz h _ _ _ | .trypop h _ _ _ | .trypush h _ _ _
  | .pushb h _ _ _ | .barinitDom h _ _ _ | .bararr h _ _ _ | .barwait h _ _ _ | .xsend h _ _ _ | .qtrig h _ _ _
  | .qwait h _ _ _ | .wloc h _ _ _ | .tlbinvPage h _ _ _ | .tldl h _ _ _ | .tstl h _ _ _ | .wld h _ _ _
  | .ctest h _ _ _ | .cstore h _ _ _ => h
  | .nmc h _ _ _ _ | .xsendLm h _ _ _ _ => h
  | .qpost h _ _ _ _ _ => h
  | .lea h _ _ _ _ _ _ | .leax h _ _ _ _ _ _ => h
  | .taskEnd .. | .safepointOverdue .. | .sendArrival .. | .heldSendDelivery .. | .copyElement ..
  | .clipBoxMessage .. | .copyComplete .. | .nmcGranule .. | .nmcComplete .. | .barrierArrivalMessage ..
  | .barStall .. | .xsendLanding .. | .xbarRelease .. | .qpEntryStart .. | .srcReuse .. | .localDone .. | .allDone ..
  | .write .. | .writeReduce .. | .invalidationMessage .. | .invalidationComplete .. | .gangTimeout .. | .joinOpen ..
  | .joinContribution .. | .contributionAck .. | .joinTimeout .. | .drainAddTimeout .. | .pendingResultWritten ..
  | .homeWriteApply .. | .homeLoadAnswer .. | .horizonMessage .. | .retryBackoff .. | .feStall ..
  | .deferredRecord .. | .recordAck .. | .recordLost .. | .deviceArrived .. | .arrive .. | .apply ..
  | .applyFinished .. | .report .. | .done .. | .cutAbort .. | .suspend .. | .resume .. | .skewTimerExpiry ..
  | .cuthold .. | .pullReadRequest .. | .lport .. | .labort .. | .xcl .. | .launchAccept .. | .pass .. | .go ..
  | .fault .. | .deal .. | .groupStart .. | .start .. | .launchRetire .. | .abortReport .. | .abort ..
  | .preemptionRequest .. | .contextSave .. | .resumption .. | .cldctlGo .. | .codeLoadComplete .. | .codeStore ..
  | .svabort .. | .errorClass .. | .errsw .. | .errcorr .. | .errlost .. | .portstat .. | .qcclr .. | .mbpost ..
  | .mailboxPlacement .. | .registerWrite .. | .debugHalt .. | .debugResume .. | .debugStep .. | .dbgdata ..
  | .dbgiw .. | .islfreq .. | .islandCapChange .. | .reelctlGo .. | .reelEnd .. | .hostWindowAccess .. | .status ..
  | .errread .. | .flashwr .. | .flashsel .. | .reset .. | .msg .. | .moduleReset .. | .linkRetry ..
  | .controlMessageResend .. | .errorCorrected .. | .sramUncorrectable .. | .resultLands ..
  | .gangInstructionComplete .. | .portUpChange .. => { gneg := false, gpred := 0, stall := 0, w := false }

/-- The privileged instructions (16 R358). -/
def privileged : Instr → Bool
  | .mfsv .. | .mtsv .. | .rft .. | .waiti .. | .tlbinvPage .. | .tlbinvSpace .. | .tlbinvAll .. => true
  | .nop .. | .add .. | .sub .. | .mul .. | .mulhs .. | .mulhz .. | .and .. | .or .. | .xor .. | .andn .. | .shl ..
  | .shr .. | .sar .. | .rot .. | .mov .. | .movk .. | .sext .. | .zext .. | .clz .. | .ctz .. | .popc .. | .bfx ..
  | .bfi .. | .mins .. | .maxs .. | .minz .. | .maxz .. | .cmpeq .. | .cmpne .. | .cmplts .. | .cmples ..
  | .cmpltz .. | .cmplez .. | .pand .. | .por .. | .pxor .. | .pnot .. | .addsat .. | .subsat .. | .divs ..
  | .divz .. | .rems .. | .remz .. | .lea .. | .leax .. | .rdsr .. | .wrsr .. | .rdsx .. | .wrsx .. | .br ..
  | .brq .. | .brqn .. | .jmp .. | .loop .. | .breakl .. | .call .. | .calli .. | .ret .. | .xgo .. | .xend ..
  | .tend .. | .taskEnd .. | .safept .. | .safepointOverdue .. | .trap .. | .brk .. | .trypop .. | .trypush ..
  | .pushb .. | .send .. | .vsend .. | .sendArrival .. | .heldSendDelivery .. | .clrp .. | .ll .. | .ls .. | .ld ..
  | .st .. | .ldc .. | .ldfe .. | .stfe .. | .tryldfe .. | .trystfe .. | .atadd .. | .atmin .. | .atmax .. | .ator ..
  | .atand .. | .axadd .. | .axmin .. | .axmax .. | .axor .. | .axand .. | .axchg .. | .acas .. | .fence .. | .rel ..
  | .acq .. | .fenceAx .. | .dst .. | .rdsum .. | .cuta .. | .cutw .. | .cutst .. | .cpy .. | .copyElement ..
  | .clipBoxMessage .. | .copyComplete .. | .nmc .. | .nmcGranule .. | .nmcComplete .. | .nfence .. | .barinit ..
  | .barinitDom .. | .bararr .. | .barrierArrivalMessage .. | .barwait .. | .barStall .. | .xsend .. | .xsendLm ..
  | .xsendLanding .. | .xbar .. | .xbarRelease .. | .qpost .. | .qpEntryStart .. | .srcReuse .. | .localDone ..
  | .allDone .. | .write .. | .writeReduce .. | .qtrig .. | .qwait .. | .launch .. | .wloc ..
  | .invalidationMessage .. | .invalidationComplete .. | .vadd .. | .vsub .. | .vmul .. | .vfma .. | .vfms ..
  | .vmin .. | .vmax .. | .vabs .. | .vneg .. | .viadd .. | .visub .. | .vimul .. | .vimin .. | .vimax .. | .viabs ..
  | .vineg .. | .viadds .. | .visubs .. | .vcmpeq .. | .vcmpne .. | .vcmplt .. | .vcmple .. | .vcmpun .. | .vsel ..
  | .vand .. | .vor .. | .vxor .. | .vandn .. | .vshl .. | .vshr .. | .vsar .. | .vcvt .. | .vcvtEf .. | .vmxdot ..
  | .vredsum .. | .vredmax .. | .vperm .. | .vbcast .. | .vbcastElement .. | .vslide .. | .vmov ..
  | .vmovPredicate .. | .vll .. | .vls .. | .vrand .. | .kset .. | .vexp2 .. | .vlog2 .. | .vrcp .. | .vrsqrt ..
  | .vsqrt .. | .prange .. | .vlen .. | .vstat .. | .vstatPredicate .. | .vclrf .. | .tcfg .. | .tstat ..
  | .tstatBank .. | .tclr .. | .tclrBank .. | .tldl .. | .tstl .. | .gangTimeout .. | .wld .. | .gmmaF .. | .gmmaB ..
  | .gmmaO .. | .drain .. | .drainAdd .. | .odrain .. | .join .. | .joinOpen .. | .joinContribution ..
  | .contributionAck .. | .joinTimeout .. | .drainAddTimeout .. | .accld .. | .accst .. | .acccp .. | .csig ..
  | .ctest .. | .cstore .. | .csheet .. | .ccfg .. | .pendingResultWritten .. | .homeWriteApply ..
  | .homeLoadAnswer .. | .horizonMessage .. | .retryBackoff .. | .feStall .. | .deferredRecord .. | .recordAck ..
  | .recordLost .. | .deviceArrived .. | .arrive .. | .apply .. | .applyFinished .. | .report .. | .done ..
  | .cutAbort .. | .suspend .. | .resume .. | .skewTimerExpiry .. | .cuthold .. | .pullReadRequest .. | .lport ..
  | .labort .. | .xcl .. | .launchAccept .. | .pass .. | .go .. | .fault .. | .deal .. | .groupStart .. | .start ..
  | .launchRetire .. | .abortReport .. | .abort .. | .preemptionRequest .. | .contextSave .. | .resumption ..
  | .cldctlGo .. | .codeLoadComplete .. | .codeStore .. | .svabort .. | .errorClass .. | .errsw .. | .errcorr ..
  | .errlost .. | .portstat .. | .qcclr .. | .mbpost .. | .mailboxPlacement .. | .registerWrite .. | .debugHalt ..
  | .debugResume .. | .debugStep .. | .dbgdata .. | .dbgiw .. | .islfreq .. | .islandCapChange .. | .reelctlGo ..
  | .reelEnd .. | .hostWindowAccess .. | .status .. | .errread .. | .flashwr .. | .flashsel .. | .reset .. | .msg ..
  | .moduleReset .. | .linkRetry .. | .controlMessageResend .. | .errorCorrected .. | .sramUncorrectable ..
  | .resultLands .. | .gangInstructionComplete .. | .portUpChange .. => false

/-- The instructions whose guard is per lane (05 R132). -/
def perLane : Instr → Bool
  | .vadd .. | .vsub .. | .vmul .. | .vfma .. | .vfms .. | .vmin .. | .vmax .. | .vabs .. | .vneg .. | .viadd ..
  | .visub .. | .vimul .. | .vimin .. | .vimax .. | .viabs .. | .vineg .. | .viadds .. | .visubs .. | .vcmpeq ..
  | .vcmpne .. | .vcmplt .. | .vcmple .. | .vcmpun .. | .vsel .. | .vand .. | .vor .. | .vxor .. | .vandn ..
  | .vshl .. | .vshr .. | .vsar .. | .vcvt .. | .vcvtEf .. | .vmxdot .. | .vredsum .. | .vredmax .. | .vperm ..
  | .vbcast .. | .vbcastElement .. | .vslide .. | .vmov .. | .vmovPredicate .. | .vll .. | .vls .. | .vrand ..
  | .vexp2 .. | .vlog2 .. | .vrcp .. | .vrsqrt .. | .vsqrt .. | .prange .. | .vlen .. | .vstat ..
  | .vstatPredicate .. => true
  | .nop .. | .add .. | .sub .. | .mul .. | .mulhs .. | .mulhz .. | .and .. | .or .. | .xor .. | .andn .. | .shl ..
  | .shr .. | .sar .. | .rot .. | .mov .. | .movk .. | .sext .. | .zext .. | .clz .. | .ctz .. | .popc .. | .bfx ..
  | .bfi .. | .mins .. | .maxs .. | .minz .. | .maxz .. | .cmpeq .. | .cmpne .. | .cmplts .. | .cmples ..
  | .cmpltz .. | .cmplez .. | .pand .. | .por .. | .pxor .. | .pnot .. | .addsat .. | .subsat .. | .divs ..
  | .divz .. | .rems .. | .remz .. | .lea .. | .leax .. | .rdsr .. | .wrsr .. | .rdsx .. | .wrsx .. | .br ..
  | .brq .. | .brqn .. | .jmp .. | .loop .. | .breakl .. | .call .. | .calli .. | .ret .. | .xgo .. | .xend ..
  | .tend .. | .taskEnd .. | .safept .. | .safepointOverdue .. | .trap .. | .brk .. | .trypop .. | .trypush ..
  | .pushb .. | .send .. | .vsend .. | .sendArrival .. | .heldSendDelivery .. | .clrp .. | .ll .. | .ls .. | .ld ..
  | .st .. | .ldc .. | .ldfe .. | .stfe .. | .tryldfe .. | .trystfe .. | .atadd .. | .atmin .. | .atmax .. | .ator ..
  | .atand .. | .axadd .. | .axmin .. | .axmax .. | .axor .. | .axand .. | .axchg .. | .acas .. | .fence .. | .rel ..
  | .acq .. | .fenceAx .. | .dst .. | .rdsum .. | .cuta .. | .cutw .. | .cutst .. | .cpy .. | .copyElement ..
  | .clipBoxMessage .. | .copyComplete .. | .nmc .. | .nmcGranule .. | .nmcComplete .. | .nfence .. | .barinit ..
  | .barinitDom .. | .bararr .. | .barrierArrivalMessage .. | .barwait .. | .barStall .. | .xsend .. | .xsendLm ..
  | .xsendLanding .. | .xbar .. | .xbarRelease .. | .qpost .. | .qpEntryStart .. | .srcReuse .. | .localDone ..
  | .allDone .. | .write .. | .writeReduce .. | .qtrig .. | .qwait .. | .launch .. | .wloc .. | .mfsv .. | .mtsv ..
  | .rft .. | .waiti .. | .tlbinvPage .. | .tlbinvSpace .. | .tlbinvAll .. | .invalidationMessage ..
  | .invalidationComplete .. | .kset .. | .vclrf .. | .tcfg .. | .tstat .. | .tstatBank .. | .tclr .. | .tclrBank ..
  | .tldl .. | .tstl .. | .gangTimeout .. | .wld .. | .gmmaF .. | .gmmaB .. | .gmmaO .. | .drain .. | .drainAdd ..
  | .odrain .. | .join .. | .joinOpen .. | .joinContribution .. | .contributionAck .. | .joinTimeout ..
  | .drainAddTimeout .. | .accld .. | .accst .. | .acccp .. | .csig .. | .ctest .. | .cstore .. | .csheet ..
  | .ccfg .. | .pendingResultWritten .. | .homeWriteApply .. | .homeLoadAnswer .. | .horizonMessage ..
  | .retryBackoff .. | .feStall .. | .deferredRecord .. | .recordAck .. | .recordLost .. | .deviceArrived ..
  | .arrive .. | .apply .. | .applyFinished .. | .report .. | .done .. | .cutAbort .. | .suspend .. | .resume ..
  | .skewTimerExpiry .. | .cuthold .. | .pullReadRequest .. | .lport .. | .labort .. | .xcl .. | .launchAccept ..
  | .pass .. | .go .. | .fault .. | .deal .. | .groupStart .. | .start .. | .launchRetire .. | .abortReport ..
  | .abort .. | .preemptionRequest .. | .contextSave .. | .resumption .. | .cldctlGo .. | .codeLoadComplete ..
  | .codeStore .. | .svabort .. | .errorClass .. | .errsw .. | .errcorr .. | .errlost .. | .portstat .. | .qcclr ..
  | .mbpost .. | .mailboxPlacement .. | .registerWrite .. | .debugHalt .. | .debugResume .. | .debugStep ..
  | .dbgdata .. | .dbgiw .. | .islfreq .. | .islandCapChange .. | .reelctlGo .. | .reelEnd .. | .hostWindowAccess ..
  | .status .. | .errread .. | .flashwr .. | .flashsel .. | .reset .. | .msg .. | .moduleReset .. | .linkRetry ..
  | .controlMessageResend .. | .errorCorrected .. | .sramUncorrectable .. | .resultLands ..
  | .gangInstructionComplete .. | .portUpChange .. => false

end Instr

end Sys2Proof
end

