-- ==== Sys2Proof/Decode.lean ====
section
/-! DEFINITION. The decoder, total on any bytes, and the encoder, both from the field maps of the manual. A word decodes
to the instruction its OP, FN and fields name exactly when that instruction is well formed for some stream and the encoder
writes that very word: so reserved and unused bits must be zero (05 R122, R130, R131 step 1). -/

namespace Sys2Proof

open Sys2Proof.Machine (fld leNat leBytes)

/-- Fields laid side by side from bit 0 up, each given by its width and value. -/
def pack : List (Nat × Nat) → Nat
  | [] => 0
  | (w, v) :: r => v % 2 ^ w + 2 ^ w * pack r

/-- The fields of the given widths from bit 0 up. -/
def unpack : List Nat → Nat → List Nat
  | [], _ => []
  | w :: ws, n => n % 2 ^ w :: unpack ws (n / 2 ^ w)

/-- A flag as a field. -/
def fl (b : Bool) : Nat := if b then 1 else 0

/-- Whether a field is set. -/
def isSet (n : Nat) : Bool := n != 0

/-- The 22 bits of an operand descriptor (05 R122, R123). -/
def Desc.bits : Desc → Nat
  | .g i => pack [(19, i.toNat), (3, 0)]
  | .v i => pack [(19, i.toNat), (3, 1)]
  | .p i => pack [(19, i.toNat), (3, 2)]
  | .s i => pack [(19, i.toNat), (3, 3)]
  | .const k => pack [(19, k.toNat), (3, 4)]
  | .imm n => pack [(19, n.toNat), (3, 5)]
  | .port c => pack [(19, c.toNat), (3, 6)]
  | .remote t f i => pack [(5, i.toNat), (6, 0), (2, f.toNat), (6, t.toNat), (3, 7)]

/-- The descriptor that 22 bits name, bits that must be zero not asked (05 R122, R123). -/
def Desc.ofBits (n : Nat) : Desc :=
  match fld n 19 3 with
  | 0 => .g (.ofNat 6 n)
  | 1 => .v (.ofNat 5 n)
  | 2 => .p (.ofNat 4 n)
  | 3 => .s (.ofNat 4 n)
  | 4 => .const (.ofNat 8 n)
  | 5 => .imm (.ofNat 19 n)
  | 6 => .port (.ofNat 4 n)
  | _ => .remote (.ofNat 6 (fld n 13 6)) (.ofNat 2 (fld n 11 2)) (.ofNat 5 n)

/-- An optional descriptor: absent is all zero (05 R122). -/
def descBits : Option Desc → Nat
  | none => 0
  | some d => d.bits

/-- An optional descriptor of 22 bits. -/
def readOpt (n : Nat) : Option Desc := if n = 0 then none else some (Desc.ofBits n)

/-- Family T and everything with three descriptor fields (05 R121, R125): DST, SA, SB. -/
def bodyT (d a b : Nat) : Nat := pack [(22, b), (22, a), (22, d)]

def readT (b : Nat) : Desc × Desc × Desc :=
  (Desc.ofBits (fld b 44 22), Desc.ofBits (fld b 22 22), Desc.ofBits (fld b 0 22))

/-- Families B and L (05 R127, R128): SA and the offset. -/
def bodyB (a : Nat) (o : BitVec 19) : Nat := pack [(19, o.toNat), (3, 0), (22, a), (22, 0)]

/-- Family M (05 R126). -/
def bodyM (dclass : Nat) (m : MForm) : Nat :=
  pack [(19, m.off.toNat), (3, m.sz.toNat), (22, m.base.bits), (6, m.didx.toNat), (5, 0), (3, m.mode.toNat),
    (5, m.scope.toNat), (3, dclass)]

def readM (b : Nat) : MForm :=
  { off := .ofNat 19 (fld b 0 19), sz := .ofNat 3 (fld b 19 3), base := Desc.ofBits (fld b 22 22),
    didx := .ofNat 6 (fld b 44 6), mode := .ofNat 3 (fld b 55 3), scope := .ofNat 5 (fld b 58 5) }

/-- SACLASS and SAIDX (05 R129). -/
def VSrc.cls : VSrc → Nat
  | .none => 0
  | .v _ => 1
  | .p _ => 2
  | .const _ => 4

def VSrc.idx : VSrc → Nat
  | .none => 0
  | .v i => i.toNat
  | .p i => i.toNat
  | .const k => k.toNat

def readSrc (cls idx : Nat) : VSrc :=
  match cls with
  | 1 => .v (.ofNat 5 idx)
  | 2 => .p (.ofNat 4 idx)
  | 4 => .const (.ofNat 8 idx)
  | _ => .none

/-- Family V (05 R129). -/
def bodyV (dclass : Nat) (f : VForm) : Nat :=
  pack [(22, descBits f.sb), (14, f.sa.idx), (5, f.sfmt.toNat), (3, f.sa.cls), (5, f.didx.toNat), (4, f.sbase.toNat),
    (2, f.stride.toNat), (1, fl f.sp), (2, f.rm.toNat), (5, f.fmt.toNat), (3, dclass)]

def readV (b : Nat) : VForm :=
  { sb := readOpt (fld b 0 22), sa := readSrc (fld b 41 3) (fld b 22 14), sfmt := .ofNat 5 (fld b 36 5),
    didx := .ofNat 5 (fld b 44 5), sbase := .ofNat 4 (fld b 49 4), stride := .ofNat 2 (fld b 53 2),
    sp := isSet (fld b 55 1), rm := .ofNat 2 (fld b 56 2), fmt := .ofNat 5 (fld b 58 5) }

/-- LEA and LEAX (06 R145). -/
def bodyLea (d a b : BitVec 6) (sh : BitVec 3) (nob : Bool) (off : BitVec 32) : Nat :=
  pack [(32, off.toNat), (12, 0), (1, fl nob), (3, sh.toNat), (6, b.toNat), (6, a.toNat), (6, d.toNat)]

def readLea (b : Nat) : BitVec 6 × BitVec 6 × BitVec 6 × BitVec 3 × Bool × BitVec 32 :=
  (.ofNat 6 (fld b 60 6), .ofNat 6 (fld b 54 6), .ofNat 6 (fld b 48 6), .ofNat 3 (fld b 45 3), isSet (fld b 44 1),
   .ofNat 32 (fld b 0 32))

/-- RDSR, WRSR, RDSX and WRSX (06 R146). -/
def bodySr (r n : BitVec 6) : Nat := pack [(54, 0), (6, n.toNat), (6, r.toNat)]

def readSr (b : Nat) : BitVec 6 × BitVec 6 := (.ofNat 6 (fld b 60 6), .ofNat 6 (fld b 54 6))

/-- SAFEPT (06 R161). -/
def bodySafept (c : BitVec 8) (l : BitVec 10) : Nat := pack [(48, 0), (10, l.toNat), (8, c.toNat)]

def readSafept (b : Nat) : BitVec 8 × BitVec 10 := (.ofNat 8 (fld b 58 8), .ofNat 10 (fld b 48 10))

/-- TRAP and BRK (06 R163). -/
def bodyCode (c : BitVec 16) : Nat := pack [(16, c.toNat), (50, 0)]

/-- Fences and NFENCE (09 R229, R242). -/
def bodyScope (s : BitVec 5) : Nat := pack [(61, 0), (5, s.toNat)]

def readScope (b : Nat) : BitVec 5 := .ofNat 5 (fld b 61 5)

/-- CUTST (09 R232). -/
def bodyTop6 (d : BitVec 6) : Nat := pack [(60, 0), (6, d.toNat)]

def readTop6 (b : Nat) : BitVec 6 := .ofNat 6 (fld b 60 6)

/-- CPY (09 R233). -/
def bodyCpy (c : CpyForm) : Nat :=
  pack [(30, 0), (1, fl c.fe), (1, fl c.mc), (1, fl c.cw), (1, fl c.sgn), (3, c.rule.toNat), (1, fl c.dir),
    (5, c.scope.toNat), (1, fl c.rel), (1, fl c.acq), (3, c.ch.toNat), (6, c.gm.toNat), (6, c.gc.toNat), (6, c.gs.toNat)]

def readCpy (b : Nat) : CpyForm :=
  { fe := isSet (fld b 30 1), mc := isSet (fld b 31 1), cw := isSet (fld b 32 1), sgn := isSet (fld b 33 1),
    rule := .ofNat 3 (fld b 34 3), dir := isSet (fld b 37 1), scope := .ofNat 5 (fld b 38 5), rel := isSet (fld b 43 1),
    acq := isSet (fld b 44 1), ch := .ofNat 3 (fld b 45 3), gm := .ofNat 6 (fld b 48 6), gc := .ofNat 6 (fld b 54 6),
    gs := .ofNat 6 (fld b 60 6) }

/-- NMC (09 R242). -/
def bodyNmc (g : BitVec 6) (acq rel : Bool) (s : BitVec 5) : Nat :=
  pack [(53, 0), (5, s.toNat), (1, fl rel), (1, fl acq), (6, g.toNat)]

def readNmc (b : Nat) : BitVec 6 × Bool × Bool × BitVec 5 :=
  (.ofNat 6 (fld b 60 6), isSet (fld b 59 1), isSet (fld b 58 1), .ofNat 5 (fld b 53 5))

/-- BARINIT (13 R332). -/
def bodyBarinit (i : BitVec 11) (s : BitVec 5) (dom : Bool) (g : BitVec 6) (anc : BitVec 3) : Nat :=
  pack [(40, 0), (3, anc.toNat), (6, g.toNat), (1, fl dom), (5, s.toNat), (11, i.toNat)]

def readBarinit (b : Nat) : BitVec 11 × BitVec 5 × Bool × BitVec 6 × BitVec 3 :=
  (.ofNat 11 (fld b 55 11), .ofNat 5 (fld b 50 5), isSet (fld b 49 1), .ofNat 6 (fld b 43 6), .ofNat 3 (fld b 40 3))

/-- BARARR (13 R332). -/
def bodyBararr (i : BitVec 11) (o : BitVec 3) (v : BitVec 6) : Nat :=
  pack [(46, 0), (6, v.toNat), (3, o.toNat), (11, i.toNat)]

def readBararr (b : Nat) : BitVec 11 × BitVec 3 × BitVec 6 :=
  (.ofNat 11 (fld b 55 11), .ofNat 3 (fld b 52 3), .ofNat 6 (fld b 46 6))

/-- BARWAIT (13 R332). -/
def bodyBarwait (i : BitVec 11) (d : BitVec 6) (res : Bool) : Nat :=
  pack [(48, 0), (1, fl res), (6, d.toNat), (11, i.toNat)]

def readBarwait (b : Nat) : BitVec 11 × BitVec 6 × Bool :=
  (.ofNat 11 (fld b 55 11), .ofNat 6 (fld b 49 6), isSet (fld b 48 1))

/-- XSEND (13 R329). -/
def bodyXsend (d : Nat) (s : BitVec 6) (lm : Bool) (k : BitVec 10) (o : BitVec 16) : Nat :=
  pack [(11, 0), (16, o.toNat), (10, k.toNat), (1, fl lm), (6, s.toNat), (22, d)]

def readXsend (b : Nat) : Desc × BitVec 6 × Bool × BitVec 10 × BitVec 16 :=
  (Desc.ofBits (fld b 44 22), .ofNat 6 (fld b 38 6), isSet (fld b 37 1), .ofNat 10 (fld b 27 10), .ofNat 16 (fld b 11 16))

/-- QPOST (13 R344). -/
def bodyQpost (q : BitVec 8) (g : BitVec 6) (acq rel : Bool) (s : BitVec 5) : Nat :=
  pack [(45, 0), (5, s.toNat), (1, fl rel), (1, fl acq), (6, g.toNat), (8, q.toNat)]

def readQpost (b : Nat) : BitVec 8 × BitVec 6 × Bool × Bool × BitVec 5 :=
  (.ofNat 8 (fld b 58 8), .ofNat 6 (fld b 52 6), isSet (fld b 51 1), isSet (fld b 50 1), .ofNat 5 (fld b 45 5))

/-- QTRIG and QWAIT (13 R349). -/
def bodyQtrig (c : BitVec 10) (g : BitVec 6) (s : BitVec 5) : Nat :=
  pack [(45, 0), (5, s.toNat), (6, g.toNat), (10, c.toNat)]

def readQtrig (b : Nat) : BitVec 10 × BitVec 6 × BitVec 5 :=
  (.ofNat 10 (fld b 56 10), .ofNat 6 (fld b 50 6), .ofNat 5 (fld b 45 5))

/-- MFSV and MTSV (16 R358). -/
def bodySv (g : BitVec 6) (n : BitVec 12) : Nat := pack [(48, 0), (12, n.toNat), (6, g.toNat)]

def readSv (b : Nat) : BitVec 6 × BitVec 12 := (.ofNat 6 (fld b 60 6), .ofNat 12 (fld b 48 12))

/-- TLBINV (16 R358). -/
def bodyTlb (v s : BitVec 6) (kind : Nat) (wait : Bool) : Nat :=
  pack [(51, 0), (1, fl wait), (2, kind), (6, s.toNat), (6, v.toNat)]

def readTlb (b : Nat) : BitVec 6 × BitVec 6 × Nat × Bool :=
  (.ofNat 6 (fld b 60 6), .ofNat 6 (fld b 54 6), fld b 52 2, isSet (fld b 51 1))

/-- OP 0xC0 (11 R280). -/
def bodyTile (t : BitVec 3) (s : BitVec 4) (a k : Bool) (m : BitVec 4) (o : BitVec 19) : Nat :=
  pack [(19, o.toNat), (34, 0), (4, m.toNat), (1, fl k), (1, fl a), (4, s.toNat), (3, t.toNat)]

def readTile (b : Nat) : BitVec 3 × BitVec 4 × Bool × Bool × BitVec 4 × BitVec 19 :=
  (.ofNat 3 (fld b 63 3), .ofNat 4 (fld b 59 4), isSet (fld b 58 1), isSet (fld b 57 1), .ofNat 4 (fld b 53 4),
   .ofNat 19 (fld b 0 19))

/-- WLD (11 R295). -/
def bodyWld (w m : BitVec 3) (sparse : Bool) : Nat :=
  pack [(59, 0), (1, fl sparse), (3, m.toNat), (3, w.toNat)]

def readWld (b : Nat) : BitVec 3 × BitVec 3 × Bool :=
  (.ofNat 3 (fld b 63 3), .ofNat 3 (fld b 60 3), isSet (fld b 59 1))

/-- GMMA (11 R296); SUMR and AFMT are 0. -/
def bodyG (f : GForm) : Nat :=
  pack [(33, 0), (3, f.ct.toNat), (2, f.rm.toNat), (1, fl f.acc), (8, f.mm1.toNat), (8, f.accr.toNat), (1, fl f.bank),
    (1, fl f.msk), (3, f.tm.toNat), (3, f.tb.toNat), (3, f.ta.toNat)]

def readG (b : Nat) : GForm :=
  { ct := .ofNat 3 (fld b 33 3), rm := .ofNat 2 (fld b 36 2), acc := isSet (fld b 38 1), mm1 := .ofNat 8 (fld b 39 8),
    accr := .ofNat 8 (fld b 47 8), bank := isSet (fld b 55 1), msk := isSet (fld b 56 1), tm := .ofNat 3 (fld b 57 3),
    tb := .ofNat 3 (fld b 60 3), ta := .ofNat 3 (fld b 63 3) }

/-- OP 0xC3 and 0xC4 (11 R301). -/
def bodyA (f : AForm) : Nat :=
  pack [(12, 0), (8, f.accr2.toNat), (1, fl f.bank2), (8, f.ns.toNat), (1, fl f.add), (3, f.ct.toNat), (4, f.sidx.toNat),
    (1, fl f.clr), (1, fl f.sp), (2, f.rm.toNat), (5, f.fmt.toNat), (8, f.mm1.toNat), (8, f.accr.toNat), (1, fl f.bank),
    (3, f.td.toNat)]

def readA (b : Nat) : AForm :=
  { accr2 := .ofNat 8 (fld b 12 8), bank2 := isSet (fld b 20 1), ns := .ofNat 8 (fld b 21 8), add := isSet (fld b 29 1),
    ct := .ofNat 3 (fld b 30 3), sidx := .ofNat 4 (fld b 33 4), clr := isSet (fld b 37 1), sp := isSet (fld b 38 1),
    rm := .ofNat 2 (fld b 39 2), fmt := .ofNat 5 (fld b 41 5), mm1 := .ofNat 8 (fld b 46 8), accr := .ofNat 8 (fld b 54 8),
    bank := isSet (fld b 62 1), td := .ofNat 3 (fld b 63 3) }

/-- OP 0xC8 (12 R317). -/
def bodyCont (t : BitVec 3) (s p : BitVec 4) (n : BitVec 7) (k : BitVec 6) : Nat :=
  pack [(42, 0), (6, k.toNat), (7, n.toNat), (4, p.toNat), (4, s.toNat), (3, t.toNat)]

def readCont (b : Nat) : BitVec 3 × BitVec 4 × BitVec 4 × BitVec 7 × BitVec 6 :=
  (.ofNat 3 (fld b 63 3), .ofNat 4 (fld b 59 4), .ofNat 4 (fld b 55 4), .ofNat 7 (fld b 48 7), .ofNat 6 (fld b 42 6))

/-- The header of a word (05 R121). -/
def readHdr (n : Nat) : Hdr :=
  { w := isSet (fld n 70 1), stall := .ofNat 4 (fld n 71 4), gpred := .ofNat 4 (fld n 75 4), gneg := isSet (fld n 79 1) }

/-- OP and FN of an instruction (05 R134). -/
def opFn : Instr → Nat × Nat
  | .nop .. => (0x00, 0)
  | .add .. => (0x00, 1)
  | .sub .. => (0x00, 2)
  | .mul .. => (0x00, 3)
  | .mulhs .. => (0x00, 4)
  | .mulhz .. => (0x00, 5)
  | .and .. => (0x00, 6)
  | .or .. => (0x00, 7)
  | .xor .. => (0x00, 8)
  | .andn .. => (0x00, 9)
  | .shl .. => (0x00, 10)
  | .shr .. => (0x00, 11)
  | .sar .. => (0x00, 12)
  | .rot .. => (0x00, 13)
  | .mov .. => (0x01, 0)
  | .movk .. => (0x01, 1)
  | .sext .. => (0x01, 2)
  | .zext .. => (0x01, 3)
  | .clz .. => (0x01, 4)
  | .ctz .. => (0x01, 5)
  | .popc .. => (0x01, 6)
  | .bfx .. => (0x01, 7)
  | .bfi .. => (0x01, 8)
  | .mins .. => (0x01, 9)
  | .maxs .. => (0x01, 10)
  | .minz .. => (0x01, 11)
  | .maxz .. => (0x01, 12)
  | .cmpeq .. => (0x02, 0)
  | .cmpne .. => (0x02, 1)
  | .cmplts .. => (0x02, 2)
  | .cmples .. => (0x02, 3)
  | .cmpltz .. => (0x02, 4)
  | .cmplez .. => (0x02, 5)
  | .pand .. => (0x02, 6)
  | .por .. => (0x02, 7)
  | .pxor .. => (0x02, 8)
  | .pnot .. => (0x02, 9)
  | .addsat .. => (0x03, 0)
  | .subsat .. => (0x03, 1)
  | .divs .. => (0x03, 2)
  | .divz .. => (0x03, 3)
  | .rems .. => (0x03, 4)
  | .remz .. => (0x03, 5)
  | .lea .. => (0x10, 0)
  | .leax .. => (0x10, 1)
  | .rdsr .. => (0x11, 0)
  | .wrsr .. => (0x11, 1)
  | .rdsx .. => (0xBF, 0)
  | .wrsx .. => (0xBF, 1)
  | .br .. => (0x20, 0)
  | .brq .. => (0x20, 1)
  | .brqn .. => (0x20, 2)
  | .jmp .. => (0x20, 3)
  | .loop .. => (0x21, 0)
  | .breakl .. => (0x21, 1)
  | .call .. => (0x22, 0)
  | .calli .. => (0x22, 1)
  | .ret .. => (0x22, 2)
  | .xgo .. => (0x23, 0)
  | .xend .. => (0x23, 2)
  | .tend .. => (0x23, 1)
  | .safept .. => (0x24, 0)
  | .trap .. => (0x25, 0)
  | .brk .. => (0x25, 1)
  | .trypop .. => (0x30, 0)
  | .trypush .. => (0x30, 1)
  | .pushb .. => (0x30, 2)
  | .send .. => (0x31, 0)
  | .vsend .. => (0x31, 1)
  | .clrp .. => (0x32, 0)
  | .ll .. => (0x40, 0)
  | .ls .. => (0x40, 1)
  | .ld .. => (0x41, 0)
  | .st .. => (0x41, 1)
  | .ldc .. => (0x41, 2)
  | .ldfe .. => (0x42, 0)
  | .stfe .. => (0x42, 1)
  | .tryldfe .. => (0x42, 2)
  | .trystfe .. => (0x42, 3)
  | .atadd .. => (0x43, 0)
  | .atmin .. => (0x43, 1)
  | .atmax .. => (0x43, 2)
  | .ator .. => (0x43, 3)
  | .atand .. => (0x43, 4)
  | .axadd .. => (0x43, 8)
  | .axmin .. => (0x43, 9)
  | .axmax .. => (0x43, 10)
  | .axor .. => (0x43, 11)
  | .axand .. => (0x43, 12)
  | .axchg .. => (0x43, 13)
  | .acas .. => (0x43, 14)
  | .fence .. => (0x44, 0)
  | .rel .. => (0x44, 1)
  | .acq .. => (0x44, 2)
  | .fenceAx .. => (0x44, 3)
  | .dst .. => (0x45, 0)
  | .rdsum .. => (0x45, 1)
  | .cuta .. => (0x46, 0)
  | .cutw .. => (0x46, 1)
  | .cutst .. => (0x46, 2)
  | .cpy .. => (0x60, 0)
  | .nmc .. => (0x61, 0)
  | .nfence .. => (0x61, 1)
  | .barinit .. => (0x62, 0)
  | .barinitDom .. => (0x62, 0)
  | .bararr .. => (0x62, 1)
  | .barwait .. => (0x62, 2)
  | .xsend .. => (0x63, 0)
  | .xsendLm .. => (0x63, 0)
  | .xbar .. => (0x63, 1)
  | .qpost .. => (0x64, 0)
  | .qtrig .. => (0x64, 1)
  | .qwait .. => (0x64, 2)
  | .launch .. => (0x6F, 0)
  | .wloc .. => (0x6F, 1)
  | .mfsv .. => (0x70, 0)
  | .mtsv .. => (0x70, 1)
  | .rft .. => (0x70, 2)
  | .waiti .. => (0x70, 3)
  | .tlbinvPage .. => (0x70, 4)
  | .tlbinvSpace .. => (0x70, 4)
  | .tlbinvAll .. => (0x70, 4)
  | .vadd .. => (0x80, 0)
  | .vsub .. => (0x80, 1)
  | .vmul .. => (0x80, 2)
  | .vfma .. => (0x80, 3)
  | .vfms .. => (0x80, 4)
  | .vmin .. => (0x80, 5)
  | .vmax .. => (0x80, 6)
  | .vabs .. => (0x80, 7)
  | .vneg .. => (0x80, 8)
  | .viadd .. => (0x81, 0)
  | .visub .. => (0x81, 1)
  | .vimul .. => (0x81, 2)
  | .vimin .. => (0x81, 3)
  | .vimax .. => (0x81, 4)
  | .viabs .. => (0x81, 5)
  | .vineg .. => (0x81, 6)
  | .viadds .. => (0x81, 7)
  | .visubs .. => (0x81, 8)
  | .vcmpeq .. => (0x82, 0)
  | .vcmpne .. => (0x82, 1)
  | .vcmplt .. => (0x82, 2)
  | .vcmple .. => (0x82, 3)
  | .vcmpun .. => (0x82, 4)
  | .vsel .. => (0x82, 5)
  | .vand .. => (0x83, 0)
  | .vor .. => (0x83, 1)
  | .vxor .. => (0x83, 2)
  | .vandn .. => (0x83, 3)
  | .vshl .. => (0x83, 4)
  | .vshr .. => (0x83, 5)
  | .vsar .. => (0x83, 6)
  | .vcvt .. => (0x84, 0)
  | .vcvtEf .. => (0x84, 0)
  | .vmxdot .. => (0x85, 0)
  | .vredsum .. => (0x86, 0)
  | .vredmax .. => (0x86, 1)
  | .vperm .. => (0x87, 0)
  | .vbcast .. => (0x87, 1)
  | .vbcastElement .. => (0x87, 1)
  | .vslide .. => (0x87, 2)
  | .vmov .. => (0x87, 3)
  | .vmovPredicate .. => (0x87, 3)
  | .vll .. => (0x88, 0)
  | .vls .. => (0x88, 1)
  | .vrand .. => (0x89, 0)
  | .kset .. => (0x89, 1)
  | .vexp2 .. => (0x8A, 0)
  | .vlog2 .. => (0x8A, 1)
  | .vrcp .. => (0x8A, 2)
  | .vrsqrt .. => (0x8A, 3)
  | .vsqrt .. => (0x8A, 4)
  | .prange .. => (0x8B, 0)
  | .vlen .. => (0x8B, 1)
  | .vstat .. => (0x8C, 0)
  | .vstatPredicate .. => (0x8C, 0)
  | .vclrf .. => (0x8C, 1)
  | .tcfg .. => (0xC0, 0)
  | .tstat .. => (0xC0, 1)
  | .tstatBank .. => (0xC0, 1)
  | .tclr .. => (0xC0, 2)
  | .tclrBank .. => (0xC0, 2)
  | .tldl .. => (0xC0, 3)
  | .tstl .. => (0xC0, 4)
  | .wld .. => (0xC1, 0)
  | .gmmaF .. => (0xC2, 0)
  | .gmmaB .. => (0xC2, 1)
  | .gmmaO .. => (0xC2, 2)
  | .drain .. => (0xC3, 0)
  | .drainAdd .. => (0xC3, 1)
  | .odrain .. => (0xC3, 2)
  | .join .. => (0xC3, 3)
  | .accld .. => (0xC4, 0)
  | .accst .. => (0xC4, 1)
  | .acccp .. => (0xC4, 2)
  | .csig .. => (0xC8, 0)
  | .ctest .. => (0xC8, 1)
  | .cstore .. => (0xC8, 2)
  | .csheet .. => (0xC8, 3)
  | .ccfg .. => (0xC8, 4)
  | .taskEnd .. | .safepointOverdue .. | .sendArrival .. | .heldSendDelivery .. | .copyElement ..
  | .clipBoxMessage .. | .copyComplete .. | .nmcGranule .. | .nmcComplete .. | .barrierArrivalMessage ..
  | .barStall .. | .xsendLanding .. | .xbarRelease .. | .qpEntryStart .. | .srcReuse .. | .localDone .. | .allDone ..
  | .write .. | .writeReduce .. | .invalidationMessage .. | .invalidationComplete .. | .gangTimeout .. | .joinOpen ..
  | .joinContribution .. | .contributionAck .. | .joinTimeout .. | .drainAddTimeout .. | .pendingResultWritten ..
  | .homeWriteApply .. | .homeLoadAnswer .. | .horizonMessage .. | .retryBackoff .. | .feStall ..
  | .deferredRecord .. | .recordAck .. | .recordLost .. | .deviceArrived .. | .arrive .. | .apply ..
  | .applyFinished .. | .report .. | .done .. | .cutAbort .. | .suspend .. | .resume .. | .skewTimerExpiry ..
  | .cuthold .. | .pullReadRequest .. | .lport .. | .labort .. | .xcl .. | .launchAccept .. | .pass .. | .go ..
  | .fault .. | .deal .. | .groupStart .. | .start .. | .launchRetire .. | .abortReport .. | .abort ..
  | .preemptionRequest .. | .contextSave .. | .resumption .. | .cldctlGo .. | .codeLoadComplete .. | .codeStore ..
  | .svabort .. | .errorClass .. | .errsw .. | .errcorr .. | .errlost .. | .portstat .. | .qcclr .. | .mbpost ..
  | .mailboxPlacement .. | .registerWrite .. | .debugHalt .. | .debugResume .. | .debugStep .. | .dbgdata ..
  | .dbgiw .. | .islfreq .. | .islandCapChange .. | .reelctlGo .. | .reelEnd .. | .hostWindowAccess .. | .status ..
  | .errread .. | .flashwr .. | .flashsel .. | .reset .. | .msg .. | .moduleReset .. | .linkRetry ..
  | .controlMessageResend .. | .errorCorrected .. | .sramUncorrectable .. | .resultLands ..
  | .gangInstructionComplete .. | .portUpChange .. => (0, 0)

/-- Bits [65:0] of an instruction. -/
def body : Instr → Nat
  | .nop _ | .breakl _ | .ret _ | .xend _ | .tend _ | .cuta _ | .cutw _ | .xbar _ | .rft _ | .waiti _ => 0
  | .add _ d a c | .sub _ d a c | .mul _ d a c | .mulhs _ d a c | .mulhz _ d a c | .and _ d a c | .or _ d a c
  | .xor _ d a c | .andn _ d a c | .shl _ d a c | .shr _ d a c | .sar _ d a c | .rot _ d a c | .movk _ d a c
  | .sext _ d a c | .zext _ d a c | .bfx _ d a c | .bfi _ d a c | .mins _ d a c | .maxs _ d a c | .minz _ d a c
  | .maxz _ d a c | .cmpeq _ d a c | .cmpne _ d a c | .cmplts _ d a c | .cmples _ d a c | .cmpltz _ d a c
  | .cmplez _ d a c | .pand _ d a c | .por _ d a c | .pxor _ d a c | .addsat _ d a c | .subsat _ d a c
  | .divs _ d a c | .divz _ d a c | .rems _ d a c | .remz _ d a c | .trypop _ d a c | .trypush _ d a c => bodyT d.bits a.bits c.bits
  | .mov _ d a | .clz _ d a | .ctz _ d a | .popc _ d a | .pnot _ d a | .send _ d a | .vsend _ d a => bodyT d.bits a.bits 0
  | .lea _ d a c sh nob o | .leax _ d a c sh nob o => bodyLea d a c sh nob o
  | .rdsr _ r n | .wrsr _ r n => bodySr r n
  | .rdsx _ r n | .wrsx _ r n => bodySr (r.setWidth 6) n
  | .br _ o | .call _ o => bodyB 0 o
  | .brq _ q o | .brqn _ q o | .loop _ q o => bodyB q.bits o
  | .jmp _ r | .calli _ r | .xgo _ r | .clrp _ r => bodyT r.bits 0 0
  | .safept _ c l => bodySafept c l
  | .trap _ c | .brk _ c => bodyCode c
  | .pushb _ q p m => bodyT q.bits p.bits (descBits m)
  | .ll _ m | .ls _ m | .ld _ m | .st _ m | .ldc _ m | .ldfe _ m | .stfe _ m | .tryldfe _ m | .trystfe _ m
  | .atadd _ m | .atmin _ m | .atmax _ m | .ator _ m | .atand _ m | .axadd _ m | .axmin _ m | .axmax _ m | .axor _ m
  | .axand _ m | .axchg _ m | .acas _ m | .dst _ m | .rdsum _ m => bodyM 0 m
  | .fence _ s | .rel _ s | .acq _ s | .fenceAx _ s | .nfence _ s => bodyScope s
  | .cutst _ d => bodyTop6 d
  | .cpy _ c => bodyCpy c
  | .nmc _ r a l s => bodyNmc r a l s
  | .barinit _ i s => bodyBarinit i s false 0 0
  | .barinitDom _ i g a => bodyBarinit i 0 true g a
  | .bararr _ i o v => bodyBararr i o v
  | .barwait _ i d r => bodyBarwait i d r
  | .xsend _ d s k => bodyXsend d.bits s false k 0
  | .xsendLm _ d s k o => bodyXsend d.bits s true k o
  | .qpost _ q g a r s => bodyQpost q g a r s
  | .qtrig _ c g s | .qwait _ c g s => bodyQtrig c g s
  | .launch _ r => bodyT 0 r.bits 0
  | .wloc _ d a s => bodyT d.bits a.bits (Desc.imm (s.setWidth 19)).bits
  | .mfsv _ g n | .mtsv _ g n => bodySv g n
  | .tlbinvPage _ v s w => bodyTlb v s 0 w
  | .tlbinvSpace _ s w => bodyTlb 0 s 1 w
  | .tlbinvAll _ w => bodyTlb 0 0 2 w
  | .vadd _ f | .vsub _ f | .vmul _ f | .vfma _ f | .vfms _ f | .vmin _ f | .vmax _ f | .vabs _ f | .vneg _ f
  | .viadd _ f | .visub _ f | .vimul _ f | .vimin _ f | .vimax _ f | .viabs _ f | .vineg _ f | .viadds _ f
  | .visubs _ f | .vsel _ f | .vand _ f | .vor _ f | .vxor _ f | .vandn _ f | .vshl _ f | .vshr _ f | .vsar _ f
  | .vcvt _ f | .vcvtEf _ f | .vmxdot _ f | .vredsum _ f | .vredmax _ f | .vperm _ f | .vbcast _ f
  | .vbcastElement _ f | .vslide _ f | .vmov _ f | .vmovPredicate _ f | .vrand _ f | .vexp2 _ f | .vlog2 _ f
  | .vrcp _ f | .vrsqrt _ f | .vsqrt _ f | .vlen _ f | .vstat _ f => bodyV 1 f
  | .vcmpeq _ f | .vcmpne _ f | .vcmplt _ f | .vcmple _ f | .vcmpun _ f | .prange _ f | .vstatPredicate _ f => bodyV 2 f
  | .vll _ m | .vls _ m => bodyM 1 m
  | .kset _ f | .vclrf _ f => bodyV 0 f
  | .tcfg _ t s | .tstat _ t s => bodyTile t s false false 0 0
  | .tstatBank _ k s => bodyTile 0 s true k 0 0
  | .tclr _ t m => bodyTile t 0 false false m 0
  | .tclrBank _ k m => bodyTile 0 0 true k m 0
  | .tldl _ t s o | .tstl _ t s o => bodyTile t s false false 0 o
  | .wld _ w m s => bodyWld w m s
  | .gmmaF _ f | .gmmaB _ f | .gmmaO _ f => bodyG f
  | .drain _ f | .drainAdd _ f | .odrain _ f | .join _ f | .accld _ f | .accst _ f | .acccp _ f => bodyA f
  | .csig _ t k => bodyCont t 0 0 0 k
  | .ctest _ s p k => bodyCont 0 s p 0 k
  | .cstore _ t s k => bodyCont t s 0 0 k
  | .csheet _ s n | .ccfg _ s n => bodyCont 0 s 0 n 0
  | .taskEnd .. | .safepointOverdue .. | .sendArrival .. | .heldSendDelivery .. | .copyElement ..
  | .clipBoxMessage .. | .copyComplete .. | .nmcGranule .. | .nmcComplete .. | .barrierArrivalMessage ..
  | .barStall .. | .xsendLanding .. | .xbarRelease .. | .qpEntryStart .. | .srcReuse .. | .localDone .. | .allDone ..
  | .write .. | .writeReduce .. | .invalidationMessage .. | .invalidationComplete .. | .gangTimeout .. | .joinOpen ..
  | .joinContribution .. | .contributionAck .. | .joinTimeout .. | .drainAddTimeout .. | .pendingResultWritten ..
  | .homeWriteApply .. | .homeLoadAnswer .. | .horizonMessage .. | .retryBackoff .. | .feStall ..
  | .deferredRecord .. | .recordAck .. | .recordLost .. | .deviceArrived .. | .arrive .. | .apply ..
  | .applyFinished .. | .report .. | .done .. | .cutAbort .. | .suspend .. | .resume .. | .skewTimerExpiry ..
  | .cuthold .. | .pullReadRequest .. | .lport .. | .labort .. | .xcl .. | .launchAccept .. | .pass .. | .go ..
  | .fault .. | .deal .. | .groupStart .. | .start .. | .launchRetire .. | .abortReport .. | .abort ..
  | .preemptionRequest .. | .contextSave .. | .resumption .. | .cldctlGo .. | .codeLoadComplete .. | .codeStore ..
  | .svabort .. | .errorClass .. | .errsw .. | .errcorr .. | .errlost .. | .portstat .. | .qcclr .. | .mbpost ..
  | .mailboxPlacement .. | .registerWrite .. | .debugHalt .. | .debugResume .. | .debugStep .. | .dbgdata ..
  | .dbgiw .. | .islfreq .. | .islandCapChange .. | .reelctlGo .. | .reelEnd .. | .hostWindowAccess .. | .status ..
  | .errread .. | .flashwr .. | .flashsel .. | .reset .. | .msg .. | .moduleReset .. | .linkRetry ..
  | .controlMessageResend .. | .errorCorrected .. | .sramUncorrectable .. | .resultLands ..
  | .gangInstructionComplete .. | .portUpChange .. => 0

/-- The 96-bit word of an instruction (05 R121). -/
def encode (i : Instr) : Nat :=
  pack [(66, body i), (4, 0), (1, fl i.hdr.w), (4, i.hdr.stall.toNat), (4, i.hdr.gpred.toNat), (1, fl i.hdr.gneg),
    (8, (opFn i).2), (8, (opFn i).1)]

/-- OP 0x00 (05 R134). -/
def op00 (fn : Nat) (h : Hdr) (b : Nat) : Option Instr :=
  match fn with
  | 0 => some (.nop h)
  | 1 => let (d, a, c) := readT b; some (.add h d a c)
  | 2 => let (d, a, c) := readT b; some (.sub h d a c)
  | 3 => let (d, a, c) := readT b; some (.mul h d a c)
  | 4 => let (d, a, c) := readT b; some (.mulhs h d a c)
  | 5 => let (d, a, c) := readT b; some (.mulhz h d a c)
  | 6 => let (d, a, c) := readT b; some (.and h d a c)
  | 7 => let (d, a, c) := readT b; some (.or h d a c)
  | 8 => let (d, a, c) := readT b; some (.xor h d a c)
  | 9 => let (d, a, c) := readT b; some (.andn h d a c)
  | 10 => let (d, a, c) := readT b; some (.shl h d a c)
  | 11 => let (d, a, c) := readT b; some (.shr h d a c)
  | 12 => let (d, a, c) := readT b; some (.sar h d a c)
  | 13 => let (d, a, c) := readT b; some (.rot h d a c)
  | _ => none

/-- OP 0x01 (05 R134). -/
def op01 (fn : Nat) (h : Hdr) (b : Nat) : Option Instr :=
  match fn with
  | 0 => let (d, a, _) := readT b; some (.mov h d a)
  | 1 => let (d, a, c) := readT b; some (.movk h d a c)
  | 2 => let (d, a, c) := readT b; some (.sext h d a c)
  | 3 => let (d, a, c) := readT b; some (.zext h d a c)
  | 4 => let (d, a, _) := readT b; some (.clz h d a)
  | 5 => let (d, a, _) := readT b; some (.ctz h d a)
  | 6 => let (d, a, _) := readT b; some (.popc h d a)
  | 7 => let (d, a, c) := readT b; some (.bfx h d a c)
  | 8 => let (d, a, c) := readT b; some (.bfi h d a c)
  | 9 => let (d, a, c) := readT b; some (.mins h d a c)
  | 10 => let (d, a, c) := readT b; some (.maxs h d a c)
  | 11 => let (d, a, c) := readT b; some (.minz h d a c)
  | 12 => let (d, a, c) := readT b; some (.maxz h d a c)
  | _ => none

/-- OP 0x02 (05 R134). -/
def op02 (fn : Nat) (h : Hdr) (b : Nat) : Option Instr :=
  match fn with
  | 0 => let (d, a, c) := readT b; some (.cmpeq h d a c)
  | 1 => let (d, a, c) := readT b; some (.cmpne h d a c)
  | 2 => let (d, a, c) := readT b; some (.cmplts h d a c)
  | 3 => let (d, a, c) := readT b; some (.cmples h d a c)
  | 4 => let (d, a, c) := readT b; some (.cmpltz h d a c)
  | 5 => let (d, a, c) := readT b; some (.cmplez h d a c)
  | 6 => let (d, a, c) := readT b; some (.pand h d a c)
  | 7 => let (d, a, c) := readT b; some (.por h d a c)
  | 8 => let (d, a, c) := readT b; some (.pxor h d a c)
  | 9 => let (d, a, _) := readT b; some (.pnot h d a)
  | _ => none

/-- OP 0x03 (05 R134). -/
def op03 (fn : Nat) (h : Hdr) (b : Nat) : Option Instr :=
  match fn with
  | 0 => let (d, a, c) := readT b; some (.addsat h d a c)
  | 1 => let (d, a, c) := readT b; some (.subsat h d a c)
  | 2 => let (d, a, c) := readT b; some (.divs h d a c)
  | 3 => let (d, a, c) := readT b; some (.divz h d a c)
  | 4 => let (d, a, c) := readT b; some (.rems h d a c)
  | 5 => let (d, a, c) := readT b; some (.remz h d a c)
  | _ => none

/-- OP 0x10 (05 R134). -/
def op10 (fn : Nat) (h : Hdr) (b : Nat) : Option Instr :=
  match fn with
  | 0 => let (d, a, c, sh, nob, o) := readLea b; some (.lea h d a c sh nob o)
  | 1 => let (d, a, c, sh, nob, o) := readLea b; some (.leax h d a c sh nob o)
  | _ => none

/-- OP 0x11 (05 R134). -/
def op11 (fn : Nat) (h : Hdr) (b : Nat) : Option Instr :=
  match fn with
  | 0 => let (r, n) := readSr b; some (.rdsr h r n)
  | 1 => let (r, n) := readSr b; some (.wrsr h r n)
  | _ => none

/-- OP 0x20 (05 R134). -/
def op20 (fn : Nat) (h : Hdr) (b : Nat) : Option Instr :=
  match fn with
  | 0 => some (.br h (.ofNat 19 (fld b 0 19)))
  | 1 => let (_, a, _) := readT b; some (.brq h a (.ofNat 19 (fld b 0 19)))
  | 2 => let (_, a, _) := readT b; some (.brqn h a (.ofNat 19 (fld b 0 19)))
  | 3 => let (d, _, _) := readT b; some (.jmp h d)
  | _ => none

/-- OP 0x21 (05 R134). -/
def op21 (fn : Nat) (h : Hdr) (b : Nat) : Option Instr :=
  match fn with
  | 0 => let (_, a, _) := readT b; some (.loop h a (.ofNat 19 (fld b 0 19)))
  | 1 => some (.breakl h)
  | _ => none

/-- OP 0x22 (05 R134). -/
def op22 (fn : Nat) (h : Hdr) (b : Nat) : Option Instr :=
  match fn with
  | 0 => some (.call h (.ofNat 19 (fld b 0 19)))
  | 1 => let (d, _, _) := readT b; some (.calli h d)
  | 2 => some (.ret h)
  | _ => none

/-- OP 0x23 (05 R134). -/
def op23 (fn : Nat) (h : Hdr) (b : Nat) : Option Instr :=
  match fn with
  | 0 => let (d, _, _) := readT b; some (.xgo h d)
  | 1 => some (.tend h)
  | 2 => some (.xend h)
  | _ => none

/-- OP 0x24 (05 R134). -/
def op24 (fn : Nat) (h : Hdr) (b : Nat) : Option Instr :=
  match fn with
  | 0 => let (c, l) := readSafept b; some (.safept h c l)
  | _ => none

/-- OP 0x25 (05 R134). -/
def op25 (fn : Nat) (h : Hdr) (b : Nat) : Option Instr :=
  match fn with
  | 0 => some (.trap h (.ofNat 16 (fld b 0 16)))
  | 1 => some (.brk h (.ofNat 16 (fld b 0 16)))
  | _ => none

/-- OP 0x30 (05 R134). -/
def op30 (fn : Nat) (h : Hdr) (b : Nat) : Option Instr :=
  match fn with
  | 0 => let (d, a, c) := readT b; some (.trypop h d a c)
  | 1 => let (d, a, c) := readT b; some (.trypush h d a c)
  | 2 => let (d, a, _) := readT b; some (.pushb h d a (readOpt (fld b 0 22)))
  | _ => none

/-- OP 0x31 (05 R134). -/
def op31 (fn : Nat) (h : Hdr) (b : Nat) : Option Instr :=
  match fn with
  | 0 => let (d, a, _) := readT b; some (.send h d a)
  | 1 => let (d, a, _) := readT b; some (.vsend h d a)
  | _ => none

/-- OP 0x32 (05 R134). -/
def op32 (fn : Nat) (h : Hdr) (b : Nat) : Option Instr :=
  match fn with
  | 0 => let (d, _, _) := readT b; some (.clrp h d)
  | _ => none

/-- OP 0x40 (05 R134). -/
def op40 (fn : Nat) (h : Hdr) (b : Nat) : Option Instr :=
  match fn with
  | 0 => some (.ll h (readM b))
  | 1 => some (.ls h (readM b))
  | _ => none

/-- OP 0x41 (05 R134). -/
def op41 (fn : Nat) (h : Hdr) (b : Nat) : Option Instr :=
  match fn with
  | 0 => some (.ld h (readM b))
  | 1 => some (.st h (readM b))
  | 2 => some (.ldc h (readM b))
  | _ => none

/-- OP 0x42 (05 R134). -/
def op42 (fn : Nat) (h : Hdr) (b : Nat) : Option Instr :=
  match fn with
  | 0 => some (.ldfe h (readM b))
  | 1 => some (.stfe h (readM b))
  | 2 => some (.tryldfe h (readM b))
  | 3 => some (.trystfe h (readM b))
  | _ => none

/-- OP 0x43 (05 R134). -/
def op43 (fn : Nat) (h : Hdr) (b : Nat) : Option Instr :=
  match fn with
  | 0 => some (.atadd h (readM b))
  | 1 => some (.atmin h (readM b))
  | 2 => some (.atmax h (readM b))
  | 3 => some (.ator h (readM b))
  | 4 => some (.atand h (readM b))
  | 8 => some (.axadd h (readM b))
  | 9 => some (.axmin h (readM b))
  | 10 => some (.axmax h (readM b))
  | 11 => some (.axor h (readM b))
  | 12 => some (.axand h (readM b))
  | 13 => some (.axchg h (readM b))
  | 14 => some (.acas h (readM b))
  | _ => none

/-- OP 0x44 (05 R134). -/
def op44 (fn : Nat) (h : Hdr) (b : Nat) : Option Instr :=
  match fn with
  | 0 => some (.fence h (readScope b))
  | 1 => some (.rel h (readScope b))
  | 2 => some (.acq h (readScope b))
  | 3 => some (.fenceAx h (readScope b))
  | _ => none

/-- OP 0x45 (05 R134). -/
def op45 (fn : Nat) (h : Hdr) (b : Nat) : Option Instr :=
  match fn with
  | 0 => some (.dst h (readM b))
  | 1 => some (.rdsum h (readM b))
  | _ => none

/-- OP 0x46 (05 R134). -/
def op46 (fn : Nat) (h : Hdr) (b : Nat) : Option Instr :=
  match fn with
  | 0 => some (.cuta h)
  | 1 => some (.cutw h)
  | 2 => some (.cutst h (readTop6 b))
  | _ => none

/-- OP 0x60 (05 R134). -/
def op60 (fn : Nat) (h : Hdr) (b : Nat) : Option Instr :=
  match fn with
  | 0 => some (.cpy h (readCpy b))
  | _ => none

/-- OP 0x61 (05 R134). -/
def op61 (fn : Nat) (h : Hdr) (b : Nat) : Option Instr :=
  match fn with
  | 0 => let (r, a, l, s) := readNmc b; some (.nmc h r a l s)
  | 1 => some (.nfence h (readScope b))
  | _ => none

/-- OP 0x62 (05 R134). -/
def op62 (fn : Nat) (h : Hdr) (b : Nat) : Option Instr :=
  match fn with
  | 0 => if fld b 49 1 = 1 then (let (i, _, _, g, a) := readBarinit b; some (.barinitDom h i g a))
    else (let (i, s, _, _, _) := readBarinit b; some (.barinit h i s))
  | 1 => let (i, o, v) := readBararr b; some (.bararr h i o v)
  | 2 => let (i, d, r) := readBarwait b; some (.barwait h i d r)
  | _ => none

/-- OP 0x63 (05 R134). -/
def op63 (fn : Nat) (h : Hdr) (b : Nat) : Option Instr :=
  match fn with
  | 0 => if fld b 37 1 = 1 then (let (d, s, _, k, o) := readXsend b; some (.xsendLm h d s k o))
    else (let (d, s, _, k, _) := readXsend b; some (.xsend h d s k))
  | 1 => some (.xbar h)
  | _ => none

/-- OP 0x64 (05 R134). -/
def op64 (fn : Nat) (h : Hdr) (b : Nat) : Option Instr :=
  match fn with
  | 0 => let (q, g, a, r, s) := readQpost b; some (.qpost h q g a r s)
  | 1 => let (c, g, s) := readQtrig b; some (.qtrig h c g s)
  | 2 => let (c, g, s) := readQtrig b; some (.qwait h c g s)
  | _ => none

/-- OP 0x6F (05 R134). -/
def op6F (fn : Nat) (h : Hdr) (b : Nat) : Option Instr :=
  match fn with
  | 0 => let (_, a, _) := readT b; some (.launch h a)
  | 1 => let (d, a, _) := readT b; some (.wloc h d a (.ofNat 5 (fld b 0 5)))
  | _ => none

/-- OP 0x70 (05 R134). -/
def op70 (fn : Nat) (h : Hdr) (b : Nat) : Option Instr :=
  match fn with
  | 0 => let (g, n) := readSv b; some (.mfsv h g n)
  | 1 => let (g, n) := readSv b; some (.mtsv h g n)
  | 2 => some (.rft h)
  | 3 => some (.waiti h)
  | 4 => if fld b 52 2 = 0 then (let (v, s, _, w) := readTlb b; some (.tlbinvPage h v s w))
    else if fld b 52 2 = 1 then (let (_, s, _, w) := readTlb b; some (.tlbinvSpace h s w))
    else if fld b 52 2 = 2 then (let (_, _, _, w) := readTlb b; some (.tlbinvAll h w))
    else none
  | _ => none

/-- OP 0x80 (05 R134). -/
def op80 (fn : Nat) (h : Hdr) (b : Nat) : Option Instr :=
  match fn with
  | 0 => some (.vadd h (readV b))
  | 1 => some (.vsub h (readV b))
  | 2 => some (.vmul h (readV b))
  | 3 => some (.vfma h (readV b))
  | 4 => some (.vfms h (readV b))
  | 5 => some (.vmin h (readV b))
  | 6 => some (.vmax h (readV b))
  | 7 => some (.vabs h (readV b))
  | 8 => some (.vneg h (readV b))
  | _ => none

/-- OP 0x81 (05 R134). -/
def op81 (fn : Nat) (h : Hdr) (b : Nat) : Option Instr :=
  match fn with
  | 0 => some (.viadd h (readV b))
  | 1 => some (.visub h (readV b))
  | 2 => some (.vimul h (readV b))
  | 3 => some (.vimin h (readV b))
  | 4 => some (.vimax h (readV b))
  | 5 => some (.viabs h (readV b))
  | 6 => some (.vineg h (readV b))
  | 7 => some (.viadds h (readV b))
  | 8 => some (.visubs h (readV b))
  | _ => none

/-- OP 0x82 (05 R134). -/
def op82 (fn : Nat) (h : Hdr) (b : Nat) : Option Instr :=
  match fn with
  | 0 => some (.vcmpeq h (readV b))
  | 1 => some (.vcmpne h (readV b))
  | 2 => some (.vcmplt h (readV b))
  | 3 => some (.vcmple h (readV b))
  | 4 => some (.vcmpun h (readV b))
  | 5 => some (.vsel h (readV b))
  | _ => none

/-- OP 0x83 (05 R134). -/
def op83 (fn : Nat) (h : Hdr) (b : Nat) : Option Instr :=
  match fn with
  | 0 => some (.vand h (readV b))
  | 1 => some (.vor h (readV b))
  | 2 => some (.vxor h (readV b))
  | 3 => some (.vandn h (readV b))
  | 4 => some (.vshl h (readV b))
  | 5 => some (.vshr h (readV b))
  | 6 => some (.vsar h (readV b))
  | _ => none

/-- OP 0x84 (05 R134). -/
def op84 (fn : Nat) (h : Hdr) (b : Nat) : Option Instr :=
  match fn with
  | 0 => if fld b 56 2 = 3 then (some (.vcvtEf h (readV b)))
    else (some (.vcvt h (readV b)))
  | _ => none

/-- OP 0x85 (05 R134). -/
def op85 (fn : Nat) (h : Hdr) (b : Nat) : Option Instr :=
  match fn with
  | 0 => some (.vmxdot h (readV b))
  | _ => none

/-- OP 0x86 (05 R134). -/
def op86 (fn : Nat) (h : Hdr) (b : Nat) : Option Instr :=
  match fn with
  | 0 => some (.vredsum h (readV b))
  | 1 => some (.vredmax h (readV b))
  | _ => none

/-- OP 0x87 (05 R134). -/
def op87 (fn : Nat) (h : Hdr) (b : Nat) : Option Instr :=
  match fn with
  | 0 => some (.vperm h (readV b))
  | 1 => if fld b 41 3 = 1 then (some (.vbcastElement h (readV b)))
    else (some (.vbcast h (readV b)))
  | 2 => some (.vslide h (readV b))
  | 3 => if fld b 41 3 = 2 then (some (.vmovPredicate h (readV b)))
    else (some (.vmov h (readV b)))
  | _ => none

/-- OP 0x88 (05 R134). -/
def op88 (fn : Nat) (h : Hdr) (b : Nat) : Option Instr :=
  match fn with
  | 0 => some (.vll h (readM b))
  | 1 => some (.vls h (readM b))
  | _ => none

/-- OP 0x89 (05 R134). -/
def op89 (fn : Nat) (h : Hdr) (b : Nat) : Option Instr :=
  match fn with
  | 0 => some (.vrand h (readV b))
  | 1 => some (.kset h (readV b))
  | _ => none

/-- OP 0x8A (05 R134). -/
def op8A (fn : Nat) (h : Hdr) (b : Nat) : Option Instr :=
  match fn with
  | 0 => some (.vexp2 h (readV b))
  | 1 => some (.vlog2 h (readV b))
  | 2 => some (.vrcp h (readV b))
  | 3 => some (.vrsqrt h (readV b))
  | 4 => some (.vsqrt h (readV b))
  | _ => none

/-- OP 0x8B (05 R134). -/
def op8B (fn : Nat) (h : Hdr) (b : Nat) : Option Instr :=
  match fn with
  | 0 => some (.prange h (readV b))
  | 1 => some (.vlen h (readV b))
  | _ => none

/-- OP 0x8C (05 R134). -/
def op8C (fn : Nat) (h : Hdr) (b : Nat) : Option Instr :=
  match fn with
  | 0 => if fld b 63 3 = 2 then (some (.vstatPredicate h (readV b)))
    else (some (.vstat h (readV b)))
  | 1 => some (.vclrf h (readV b))
  | _ => none

/-- OP 0xBF (05 R134). -/
def opBF (fn : Nat) (h : Hdr) (b : Nat) : Option Instr :=
  match fn with
  | 0 => let (r, n) := readSr b; some (.rdsx h (r.setWidth 4) n)
  | 1 => let (r, n) := readSr b; some (.wrsx h (r.setWidth 4) n)
  | _ => none

/-- OP 0xC0 (05 R134). -/
def opC0 (fn : Nat) (h : Hdr) (b : Nat) : Option Instr :=
  match fn with
  | 0 => let (t, s, _, _, _, _) := readTile b; some (.tcfg h t s)
  | 1 => if fld b 58 1 = 1 then (let (_, s, _, k, _, _) := readTile b; some (.tstatBank h k s))
    else (let (t, s, _, _, _, _) := readTile b; some (.tstat h t s))
  | 2 => if fld b 58 1 = 1 then (let (_, _, _, k, m, _) := readTile b; some (.tclrBank h k m))
    else (let (t, _, _, _, m, _) := readTile b; some (.tclr h t m))
  | 3 => let (t, s, _, _, _, o) := readTile b; some (.tldl h t s o)
  | 4 => let (t, s, _, _, _, o) := readTile b; some (.tstl h t s o)
  | _ => none

/-- OP 0xC1 (05 R134). -/
def opC1 (fn : Nat) (h : Hdr) (b : Nat) : Option Instr :=
  match fn with
  | 0 => let (w, m, s) := readWld b; some (.wld h w m s)
  | _ => none

/-- OP 0xC2 (05 R134). -/
def opC2 (fn : Nat) (h : Hdr) (b : Nat) : Option Instr :=
  match fn with
  | 0 => some (.gmmaF h (readG b))
  | 1 => some (.gmmaB h (readG b))
  | 2 => some (.gmmaO h (readG b))
  | _ => none

/-- OP 0xC3 (05 R134). -/
def opC3 (fn : Nat) (h : Hdr) (b : Nat) : Option Instr :=
  match fn with
  | 0 => some (.drain h (readA b))
  | 1 => some (.drainAdd h (readA b))
  | 2 => some (.odrain h (readA b))
  | 3 => some (.join h (readA b))
  | _ => none

/-- OP 0xC4 (05 R134). -/
def opC4 (fn : Nat) (h : Hdr) (b : Nat) : Option Instr :=
  match fn with
  | 0 => some (.accld h (readA b))
  | 1 => some (.accst h (readA b))
  | 2 => some (.acccp h (readA b))
  | _ => none

/-- OP 0xC8 (05 R134). -/
def opC8 (fn : Nat) (h : Hdr) (b : Nat) : Option Instr :=
  match fn with
  | 0 => let (t, _, _, _, k) := readCont b; some (.csig h t k)
  | 1 => let (_, s, p, _, k) := readCont b; some (.ctest h s p k)
  | 2 => let (t, s, _, _, k) := readCont b; some (.cstore h t s k)
  | 3 => let (_, s, _, n, _) := readCont b; some (.csheet h s n)
  | 4 => let (_, s, _, n, _) := readCont b; some (.ccfg h s n)
  | _ => none

/-- The instruction that OP, FN and the body name, fields taken as they stand; whether they are well formed is not asked. -/
def candidate (op fn : Nat) (h : Hdr) (b : Nat) : Option Instr :=
  match op with
  | 0x00 => op00 fn h b
  | 0x01 => op01 fn h b
  | 0x02 => op02 fn h b
  | 0x03 => op03 fn h b
  | 0x10 => op10 fn h b
  | 0x11 => op11 fn h b
  | 0x20 => op20 fn h b
  | 0x21 => op21 fn h b
  | 0x22 => op22 fn h b
  | 0x23 => op23 fn h b
  | 0x24 => op24 fn h b
  | 0x25 => op25 fn h b
  | 0x30 => op30 fn h b
  | 0x31 => op31 fn h b
  | 0x32 => op32 fn h b
  | 0x40 => op40 fn h b
  | 0x41 => op41 fn h b
  | 0x42 => op42 fn h b
  | 0x43 => op43 fn h b
  | 0x44 => op44 fn h b
  | 0x45 => op45 fn h b
  | 0x46 => op46 fn h b
  | 0x60 => op60 fn h b
  | 0x61 => op61 fn h b
  | 0x62 => op62 fn h b
  | 0x63 => op63 fn h b
  | 0x64 => op64 fn h b
  | 0x6F => op6F fn h b
  | 0x70 => op70 fn h b
  | 0x80 => op80 fn h b
  | 0x81 => op81 fn h b
  | 0x82 => op82 fn h b
  | 0x83 => op83 fn h b
  | 0x84 => op84 fn h b
  | 0x85 => op85 fn h b
  | 0x86 => op86 fn h b
  | 0x87 => op87 fn h b
  | 0x88 => op88 fn h b
  | 0x89 => op89 fn h b
  | 0x8A => op8A fn h b
  | 0x8B => op8B fn h b
  | 0x8C => op8C fn h b
  | 0xBF => opBF fn h b
  | 0xC0 => opC0 fn h b
  | 0xC1 => opC1 fn h b
  | 0xC2 => opC2 fn h b
  | 0xC3 => opC3 fn h b
  | 0xC4 => opC4 fn h b
  | 0xC8 => opC8 fn h b
  | _ => none

/-- The instruction that a 96-bit word holds; none where step 1 of 05 R131 finds it ill formed for either stream. -/
def decode (n : Nat) : Option Instr :=
  match candidate (fld n 88 8) (fld n 80 8) (readHdr n) (fld n 0 66) with
  | some i => if i.wf && encode i == n then some i else none
  | none => none

/-- The instruction in twelve bytes, lowest address first (05 R121); none of any other number of bytes. -/
def decodeBytes (bs : List Byte) : Option Instr := if bs.length = 12 then decode (leNat bs) else none

/-- The twelve bytes of an instruction, lowest address first (05 R121). -/
def encodeBytes (i : Instr) : List Byte := leBytes (encode i) 12

/-- The instruction that the decoder reads from a word numbered as the table numbers bits: three 32-bit words, the first at
the lowest address, each little-endian (05 R121, 00 R2); every instruction is 96 bits, so the bits above `nbits` are zero. -/
def decodeTableWord (_nbits w : Nat) : Option Instr := if w < 2 ^ 96 then decodeBytes (leBytes w 12) else none

end Sys2Proof
end

