-- ==== Sys2Proof/Config.lean ====
section
/-! DEFINITION. What the Z32 as shipped fixes (figures of 00 R9 and 01 R23), the choices of the configuration record,
and the values the spec leaves free, which are opaque. -/

namespace Sys2Proof.Config

/-- Vector width in bits (00 R9, 10 R254). -/
def vlen : Nat := 1024

/-- Instruction slots of a core (01 R22). -/
def slots : Nat := 4096

/-- First supervisor slot (06 R147). -/
def svSlot : Nat := 3840

/-- Bytes of local memory of a core (01 R22). -/
def lmBytes : Nat := 65536

/-- Bytes of one HBM stack, 64 GiB (19 R414). -/
def stackBytes : Nat := 2 ^ 36

/-- The local physical address map ends here on every device (19 R414). -/
def lpaEnd : Nat := 32 * stackBytes

/-- Cycles after which a waiting synchronising access, BARWAIT, join or DRAIN.ADD gives up (07 R186, 13 R335, 11 R307). -/
def stallLimit : Nat := 2 ^ 24

/-- Island cycles after which a core waiting at the gang's wired barrier gives up (11 R286). -/
def gangLimit : Nat := 2 ^ 20

/-- Records of an error-ring slot in bytes (16 R371). -/
def recordBytes : Nat := 64

/-- Welwick core `k` is agent number `welwickBase + k`: the model's own numbering, R13 gives them no core number. -/
def welwickBase : Nat := 0x8000

/-- The die index that stands for the hub in the vector clocks: the model's own (notes/assumptions/7). -/
def hubDie : Nat := 32

/-- log2 of the partition's die count, from the configuration record (19 R413, R415): DESIGN CHOICE, the whole module. -/
def partLog : Nat := 5

/-- First die of the partition, from the configuration record (19 R413, R415): DESIGN CHOICE. -/
def partFirst : Nat := 0

/-- Welwick cores the configuration record assigns to the partition (19 R413): DESIGN CHOICE, all 64. -/
def welwicks : Nat := 64

/-- Index of the partition among those of the module (19 R423, R424): DESIGN CHOICE, the only one. -/
def partIndex : Nat := 0

/-- Image entry of the Welwick cores, a local physical address (19 R421, R427), which the spec does not give: DESIGN CHOICE
(notes/assumptions/6). -/
def imageEntry : Nat := 0

/-- Fabric ports the configuration record assigns to the partition (19 R413): DESIGN CHOICE, all 40. -/
def ownPort (p : Nat) : Bool := decide (p < 40)

/-- Capacity of each cluster's micro-TLB, each die's TLB and each die's walk cache (18 R404). -/
def microTlb : Nat := 64
def dieTlb : Nat := 8192
def walkCache : Nat := 512

/-- Lines of a cluster cache: 512 KiB of 64-byte lines (01 R23); the line size is that of R231, R241 and R403. -/
def cacheLines : Nat := 8192

/-- Whether a store of translations or lines still holds an entry when it is looked up: the spec gives no replacement
policy (18 R401, R404), so each look-up draws a free value. -/
opaque keeps : Nat → Bool

/-- Whether an access that may allocate a cluster-cache line does so (18 R401: lines MAY be held). -/
opaque allocates : Nat → Bool

/-- Watts, temperatures and other readings of the management port, which the spec does not state (19 R424). -/
opaque reading : Nat → BitVec 64

/-- Whether a digest or an HMAC tag checks (19 R424, R427): the key and the images are not part of the spec. -/
opaque digestOk : Nat → Bool

/-- Bytes of other devices' published memory, and of reduce apertures, at a fabric physical address after a number of closed
cuts: they are not this device's state (08 R199, 13 R340). -/
opaque remoteByte : Nat → Nat → BitVec 8

/-- Bytes whose value the spec does not state: the ring positions that the device keeps in a queue-pair context (13 R341), and
the source bytes of an entry whose page no longer translates when they are read (13 R346). -/
opaque freeByte : Nat → BitVec 8

/-- Whether an HBM stack trains, by a free value drawn in stage 4 (19 R427). -/
opaque trains : Nat → Bool

/-- What a class 011 descriptor in DBGRSEL names, where no opcode decides it, and in which row of a tile WORD counts (17 R390,
05 R122): 0 an s register, 1 a tile, 2 an accumulator element; by DBGRSEL. -/
opaque dbgFile : BitVec 64 → Fin 3
opaque dbgRow : BitVec 64 → BitVec 5

/-- Peer number of a device of a placement domain that no cut-group entry lists, by a number of the submission and the domain
index: system software names the domain (02 R37), and the launch port takes only its size and the device's own index
(17 R375, notes/assumptions/43). -/
opaque domainPeer : Nat → Nat → Nat

end Sys2Proof.Config
end

