-- ==== Sys2Proof/Machine/State.lean ====
section
/-! DEFINITION. The state of one partition of a Z32 as plain data: its cores and Welwick cores, gangs, memory and homes,
translation stores, take and cut machinery, launch unit, device registers and everything in flight. Each field's comment
gives what it is, its width, the rule that names it and its reset value, separated by bars. -/

namespace Sys2Proof.Machine

/-- A register that a result is written to (05 R104, R110): `key` is the key context register of that number. -/
inductive Reg where
  | g (i : Nat)
  | s (i : Nat)
  | v (i : Nat)
  | pa (i : Nat)
  | px (i : Nat)
  | t (i : Nat)
  | key (n : Nat)
  deriving DecidableEq, Repr

/-- A fixed-latency result that has not landed (05 R107): it lands at the end of island cycle `lands`; `mask` has a bit for
each bit that it takes of a v register or an X-stream predicate. -/
structure Landing where
  dst   : Reg
  mask  : Nat
  val   : Nat
  lands : Nat
  deriving DecidableEq, Repr

/-- A variable-latency result that has not been written (05 R109): its destinations are pending; a value is present once it
has arrived. `masks` gives the bits that a v register or predicate takes (10 R251, R275); a destination without an entry is
written whole. -/
structure Pending where
  id    : Nat
  x     : Bool
  outs  : List (Reg × Option Nat)
  masks : List (Reg × Nat)
  deriving DecidableEq, Repr

/-- A record of a hardware loop (06 R149). -/
structure LoopRec where
  start : Nat
  last  : Nat
  rem   : Nat
  deriving DecidableEq, Repr

/-- An entry of a return-address store (06 R152). -/
structure RetEntry where
  slot  : Nat
  floor : Nat
  deriving DecidableEq, Repr

/-- An LM store of a stream that the core has not applied yet (07 R168, R169), with the cycle of its issue. -/
structure LmWrite where
  cyc   : Nat
  addr  : Nat
  bytes : List Byte
  deriving DecidableEq, Repr

/-- What a stream's current instruction has done before a wait (16 R362: an arrival made before a wait keeps standing);
`issued` a synchronising access that has issued and waits before it goes out (07 R186); `gangTrap` is a trap that the wired
barrier decided and the stream takes at its next try (11 R285); `slotWait` an exchange send with the target and the values it
read at issue (13 R330); `popWait` a wait on a pop of empty queue `k`. -/
inductive Stage where
  | start
  | issued (ea : Nat)
  | released
  | cutArrived (n : Nat)
  | xbarArrived
  | gangArrived
  | gangTrap (cause code mask info : Nat)
  | tlbSent (id : Nat)
  | request (id : Nat)
  | lmWait (ea : Nat)
  | barWait (bid : Nat)
  | slotWait (target : Nat) (data : List Word)
  | answered (ok : Bool) (v : Nat)
  | waited
  | popWait (k : Nat)
  deriving DecidableEq, Repr

/-- One sequencer of a core (05 R114, 06 R147 to R154). -/
structure Stream where
  /-- Program counter: an instruction slot; on a Welwick core VA[56:4] | 12 bits (53 on a Welwick core) | 06 R147, 19 R421 | 0 (DESIGN CHOICE, log 1) -/
  pc : Nat
  /-- The stream runs (the A-stream fetches, the X-stream is not idle) | 1 bit | 02 R36, 17 R380 | 0 (R380: no fetch before START) -/
  run : Bool
  /-- Earliest island cycle of the next issue | count | 05 R114 | 0 -/
  ready : Nat
  /-- Active loop records, innermost first | 0 to 4 records of 12, 12 and 32 bits | 06 R149 | empty -/
  loops : List LoopRec
  /-- Loop floor F | 3 bits | 06 R150 | 0 -/
  floor : Nat
  /-- On-chip return entries, newest first | 0 to 16 entries of 12 and 3 bits | 06 R152 | empty -/
  rets : List RetEntry
  /-- Spill count k | 13 bits | 06 R152 | 0 -/
  spilled : Nat
  /-- Fixed-latency results that have not landed | list | 05 R107 | empty -/
  landings : List Landing
  /-- LM stores not yet applied, oldest first | list | 07 R168, R169 | empty -/
  lmq : List LmWrite
  /-- Island cycle at which the current wait began | count or none | 07 R186 | none -/
  waitFrom : Option Nat
  /-- What the current instruction has already done | - | 16 R362 | start -/
  stage : Stage
  /-- Guard of the current instruction as step 5 of R131 read it, while it waits: a bit for each byte, or bit 0 | 128 bits or none |
  05 R131 | none -/
  guarded : Option Nat
  /-- Stage put aside at trap entry with the slot it belongs to | - | 16 R362 | none -/
  aside : Option (Nat × Stage)
  /-- A debugger holds the stream halted | 1 bit | 17 R391 | 0 -/
  halted : Bool
  /-- The stream issues one instruction and halts again | 1 bit | 17 R391 | 0 -/
  stepping : Bool
  /-- Vector that the stream's stores carry since its latest release | 32 x 64 bits | 07 R173 | zero -/
  carried : Table Nat
  /-- Entry-wise maximum of the horizons in the answers to the stream's loads | 32 x 64 bits | 07 R174 | zero -/
  seen : Table Nat
  deriving DecidableEq, Repr

/-- A queue between the sequencers (05 R111): entries oldest first, each with the cycle of its push, and the cycle of the
latest pop with the number of entries it took (R113). -/
structure Fifo where
  entries : List (Nat × Word)
  lastPop : Option (Nat × Nat)
  deriving DecidableEq, Repr

/-- One dimension of a shape record (09 R234). -/
structure CopyDim where
  ext    : Nat
  bnd    : Nat
  stride : Int
  pitch  : Nat
  deriving DecidableEq, Repr

/-- A destination granule being formed (09 R241): `pa` and `va` are the addresses of its 64-byte line. -/
structure Granule where
  pa    : Nat
  va    : Nat
  pub   : Bool
  seq   : Nat
  mask  : BitVec 64
  data  : List Byte
  deriving DecidableEq, Repr

/-- The copy that a channel holds (09 R233 to R241). -/
structure CopyRun where
  form    : CpyForm
  run     : Option Nat
  space   : Nat
  sup     : Bool
  va      : Nat
  esz     : Nat
  dlm     : Nat
  dims    : List CopyDim
  cword   : Nat
  peers   : Word
  next    : Nat
  wm      : Nat
  lmEnd   : Nat
  moved   : Nat
  faulted : Nat
  fault1  : Option (Nat × Nat × Nat)
  ropHeld : Option (Nat × Nat)
  clipped : Bool
  clipSt  : Nat
  seqBase : Nat
  gran    : Option Granule
  grans   : Nat
  lastLine : Option Nat
  vec     : Table Nat
  ctx     : Ctx
  deriving DecidableEq, Repr

/-- A barrier identifier of a core (13 R332 to R336, 17 R388): `level` is the tree level or ANC, `key` the parent coordinate
or the first core of the ancestor unit; `asLevel` is the tree level whose barrier has the members and scope of a domain form, for
R336 names an instance by these. -/
structure BarEntry where
  bound    : Bool
  dom      : Bool
  level    : Nat
  key      : Nat
  mask     : BitVec 1024
  asLevel  : Option Nat
  arrived  : Bool
  done     : Bool
  mismatch : Bool
  opc      : Nat
  value    : Word
  deriving DecidableEq, Repr

/-- The task a core runs (02 R29, R46; 08 R193, R197). -/
structure Task where
  /-- Its launch | index | 02 R47 | - -/
  run : Nat
  /-- Work identifier, lane fields zero | 64 bits | 02 R29, R30 | from START -/
  wid : Word
  /-- Residency group and index in it | counts | 02 R51, 13 R322 | from START -/
  group : Nat
  gidx : Nat
  /-- Take number | 32 bits | 08 R193 | 1 at task start -/
  take : Nat
  /-- Deferred-record sequence number | 32 bits and the R198 limit | 08 R197, R198 | 0 at task start -/
  seq : Nat
  /-- ERRC | 16 bits | 05 R110 | 0 at task start -/
  errc : Nat
  /-- Island cycle at which CYC is 0 | count | 05 R110 | cycle of START -/
  cyc0 : Nat
  /-- Safe-point watchdog: cycle at which its count began, none while stopped | count | 06 R162 | none -/
  watch : Option Nat
  /-- Count of the watchdog while it is stopped | count | 16 R362, R363 | none -/
  watchHeld : Option Nat
  /-- Pre-emption request pending | 1 bit | 17 R384 | 0 -/
  preempt : Bool
  /-- The task executed TEND and waits to end | 1 bit | 06 R155 | 0 -/
  ending : Bool
  /-- ERROR_CLASS traps to take at A-stream boundaries, oldest first: class and SEQ | list | 16 R374 | empty -/
  errTraps : List (Nat × Nat)
  /-- Live masks and LMX of the SAFEPT the task waits at | 64, 64, 10 bits | 06 R161 | none -/
  safe : Option (Word × Word × Nat)
  /-- What a saved task keeps that its context slot has no place for, the model's own: CCTL, TVEC, SPILLA, SPILLX at their
  numbers, words read of its oldest mailbox entry at 16, mismatched barrier phases at 32 + identifier, the tree level whose
  member set a domain barrier has, plus 1, at 4,096 + identifier | table | 17 R388, model | empty (DESIGN CHOICE, log 8) -/
  kept : Table Word
  /-- Horizons that barrier phases completed while the task was saved bring to its acquires: the model's own | 32 x 64 bits |
  13 R337, model | empty -/
  seenBy : Table Nat
  deriving DecidableEq, Repr

/-- A level of privilege (16 R357). -/
inductive Level where
  | t
  | s
  | h
  deriving DecidableEq, Repr

/-- A compute core, or a Welwick core, which uses the A-stream part (19 R421). -/
structure Core where
  /-- Privilege level | T, S or H | 16 R357 | T; H once a Welwick core is released (DEDUCED, log 2) -/
  level : Level
  /-- Arithmetic cycles of the island as this core has counted them | 64 bits | 05 R110 | 0 -/
  cyc : Nat
  /-- Earliest cycle in which the A-stream may issue after an X-stream issue of the same cycle | count | 07 R165, 16 R369 | 0 -/
  aFrom : Nat
  /-- Earliest cycle in which a stream may issue after an arrival of the same cycle | count | 05 R106, 07 R165 | 0 -/
  allFrom : Nat
  /-- A-stream sequencer | - | 05 R104 | idle -/
  a : Stream
  /-- X-stream sequencer | - | 05 R104 | idle -/
  x : Stream
  /-- g0 to g63 | 64 x 64 bits | 05 R104 | 0 (R36 at task start; DESIGN CHOICE before, log 1) -/
  g : Table Word
  /-- s0 to s15 | 16 x 64 bits | 05 R104 | 0 (as g) -/
  s : Table Word
  /-- v0 to v31 | 32 x 1,024 bits | 05 R104 | 0 (as g) -/
  v : Table Vec
  /-- A-stream p1 to p15 | 15 x 1 bit | 05 R104, R105 | 0 (as g) -/
  pa : Table Bool
  /-- X-stream p1 to p15 | 15 x 128 bits | 05 R104, R105 | 0 (as g) -/
  px : Table Pred
  /-- t0 to t7, byte b of tn at 4,096 n + b | 8 x 4 KiB | 11 R277 | 0 (as g) -/
  t : Table Byte
  /-- tc0 to tc7 | 8 x 64 bits | 11 R278 | 0 -/
  tc : Table Word
  /-- Presence bits of g32 to g63 (keys 32 to 63) | 32 x 1 bit | 05 R106 | absent -/
  presG : Table Bool
  /-- Presence bits of v0 to v31 | 32 x 1 bit | 05 R106 | absent -/
  presV : Table Bool
  /-- Pending results | list | 05 R109 | empty -/
  pends : List Pending
  /-- AQ | 16 x 64 bits | 05 R111 | empty -/
  aq : Fifo
  /-- XQ | 16 x 64 bits | 05 R111 | empty -/
  xq : Fifo
  /-- BQA | 32 x 1 bit | 05 R111 | empty -/
  bqa : Fifo
  /-- BQX | 32 x 1 bit | 05 R111 | empty -/
  bqx : Fifo
  /-- Inbox, oldest first | 32 x 64 bits | 05 R112 | empty -/
  inbox : List Word
  /-- Sends held at the full inbox | list | 06 R159 | empty -/
  held : List SendMsg
  /-- Mailbox entries, oldest first, each its words not yet read | 16 x 64 bytes | 05 R112 | empty -/
  mail : List (List Word)
  /-- Entries whose producers wait at the full mailbox, with the copy channel of a clip box | list | 05 R112, 09 R239 | empty -/
  heldMail : List (Option Nat × List Word)
  /-- Local memory, constant window and identity words included | 64 KiB | 01 R22, 05 R118, R119 | 0 (R36 at task start; DESIGN CHOICE before, log 1) -/
  lm : Table Byte
  /-- Full/empty bits of the LM words | 8,192 x 1 bit | 07 R182 | empty (R182 at task start; DESIGN CHOICE before, log 1) -/
  lmFull : Table Bool
  /-- Instruction store | 4,096 x 96 bits | 01 R22 | 0, which is NOP (DESIGN CHOICE, log 1) -/
  code : Table (BitVec 96)
  /-- KSEED, KTID and KSTEP at their numbers 0x10, 0x11, 0x12 | 3 x 32 bits | 05 R110, 04 R89 | 0 (R36: KSEED the slate's SEED at task start) -/
  key : Table Word
  /-- VFLAGS | 64 bits | 04 R101, 05 R110 | 0 -/
  vflags : Word
  /-- Counter sets of t0 to t7 | 8 x 64 bits | 04 R102 | 0 -/
  tctr : Table Word
  /-- Copy channels 0 to 7 | 8 | 09 R236 | empty -/
  copies : Table (Option CopyRun)
  /-- Barrier identifiers | 2,048 | 13 R332 | unbound -/
  bars : Table BarEntry
  /-- Router cycle of the latest XBAR release, none before the first | 32-bit counter | 13 R328 | none -/
  xbarAt : Option Nat
  /-- Core-local supervisor registers 0x000 to 0x00A and 0x020 to 0x023 at their numbers | 64 bits each | 16 R360, R361, 19 R421 | 0, TVEC 0xF00 (the defaults' reset values); the four defaults at task start -/
  sv : Table Word
  /-- The task the core runs | - | 02 R46 | none -/
  task : Option Task
  deriving DecidableEq, Repr

/-- What one core brings to its gang's wired barrier (11 R284): the instruction, its shape controls, the value of the s
register it names, the key context, whether it found a shape breach, and the cycle of its arrival. -/
structure Arrival where
  instr  : Instr
  tcs    : List Word
  sval   : Word
  kval   : Word
  kstep  : Word
  breach : Bool
  since  : Nat
  deriving DecidableEq, Repr

/-- An entry of a translation store (18 R404): `place` is the cluster number of a micro-TLB, or 1,024 plus the die number;
it maps `2^log` bytes from `vbase` to `pbase` with the attributes of `leaf`; `at0` and `n` say which table entries it came from, and
`words` holds the 16 entries of a merged one as they were read (18 R403). -/
structure TlbEntry where
  place : Nat
  space : Nat
  vbase : Nat
  log   : Nat
  pbase : Nat
  leaf  : Word
  dirty : Bool
  at0   : Nat
  n     : Nat
  words : List Word
  deriving DecidableEq, Repr

/-- An instruction in the matrix queue (11 R285, R287): `arr` holds the eight arrivals by slot; `sent` marks a contribution
that left, since which island cycle; `pages` are the physical addresses that a continuity instruction translated, with their
translations (12 R314); `vec` is the vector that the unit's acquire takes (07 R189, 12 R315); `run` and `ctx` are the launch, and the coordinates for error
records, of the task that slot 0 ran when the barrier completed, for the instruction goes on after that task's end (06 R154, 11 R306). -/
structure GangOp where
  id    : Nat
  instr : Instr
  arr   : List Arrival
  sent  : Option Nat
  pages : List (Nat × TlbEntry)
  vec   : Table Nat
  run   : Option Nat
  ctx   : Ctx
  deriving DecidableEq, Repr

/-- The stationary operand (11 R290, R295): the eight band tiles with their shape controls, and the mask tiles of a sparse one. -/
structure Station where
  sparse : Bool
  bands  : List (Word × List Byte)
  masks  : List (Word × List Byte)
  deriving DecidableEq, Repr

/-- An open join (11 R305). -/
structure OpenJoin where
  opId   : Nat
  form   : AForm
  held   : Table (Option (List (BitVec 32)))
  opened : Nat
  run    : Option Nat
  deriving DecidableEq, Repr

/-- The continuity unit (12 R311). -/
structure Cont where
  /-- CTBASE | 64 bits | 12 R311 | 0 -/
  ctbase : Word
  /-- CSBASE | 64 bits | 12 R311 | 0 -/
  csbase : Word
  /-- CSTBASE | 64 bits | 12 R311 | 0 -/
  cstbase : Word
  /-- Register 0x03: NBM1, NTM1, NSTEP | 64 bits | 12 R311 | 0 -/
  geom : Word
  /-- CSTEP | 32 bits | 12 R311 | 0 -/
  cstep : Word
  /-- CREF | 16 bits | 12 R311 | 0 -/
  cref : Word
  /-- Pending list: block and tile, oldest first | 0 to 8 entries | 12 R311 | empty -/
  pend : List (Nat × Nat)
  /-- Signature S[0] to S[15] | 16 x 32 bits | 12 R311 | 0 -/
  sig : Table Int
  /-- SIGV, NF, SIGB | 1, 1 and 6 bits | 12 R311 | 0 -/
  sigv : Bool
  nf : Bool
  sigb : Nat
  /-- Threshold and exponent registers 0x40 to 0x7F, by block | 64 x 40 bits | 12 R311 | 0 -/
  thr : Table Word
  deriving DecidableEq, Repr

/-- A gang (11 R290, R301, 12 R311). -/
structure Gang where
  /-- Accumulator store, element bank.row.column at 16,384 bank + 64 row + column | 2 x 256 x 64 x 32 bits | 11 R301 | 0 (R36 at task start; DESIGN CHOICE before, log 1) -/
  acc : Table (BitVec 32)
  /-- Stationary operand | - | 11 R290 | none -/
  station : Option Station
  /-- Outer values O[k][n] at 64 k + n | 64 x 64 x 32 bits | 11 R290 | +0 -/
  outer : Table (BitVec 32)
  /-- Counter sets of banks 0 and 1 | 2 x 64 bits | 04 R102 | 0 -/
  bctr : Table Word
  /-- Arrivals at the wired barrier by slot | 8 | 11 R284 | none -/
  arrivals : Table (Option Arrival)
  /-- Matrix queue, head first | 0 to 16 | 11 R285 | empty -/
  queue : List GangOp
  /-- The open join | - | 11 R305 | none -/
  join : Option OpenJoin
  /-- Continuity unit | - | 12 R311 | zero -/
  cont : Cont
  deriving DecidableEq, Repr

/-- Who made a request to a home: a stream, a copy, a near-memory command, or the launch unit for a storyboard's completion
record. -/
inductive Owner where
  | stream (core : Nat) (x : Bool)
  | copy (core ch : Nat)
  | nmc (id : Nat)
  | story (id : Nat)
  deriving DecidableEq, Repr

/-- What a request does at its home (07 R164, R181, R183): a load of `n` bytes; a store; a non-returning or returning atomic;
a synchronising access; a write-back of dirty bytes; a reduced line from the fabric. -/
inductive ReqKind where
  | load (n : Nat) (sgn : Bool) (ro : Bool)
  | store (bytes : List Byte)
  | atomic (op n : Nat) (sgn ret : Bool) (v cmp : Nat)
  | sync (mode : Nat) (isLoad tr : Bool) (v : Word)
  | writeback (bytes : List (Nat × Byte))
  | rdsum
  deriving DecidableEq, Repr

/-- Where a request stands: travelling, in its home's retry list, or refused until a router cycle (07 R185). -/
inductive ReqState where
  | flight
  | listed
  | backoff (due : Nat)
  deriving DecidableEq, Repr

/-- An access on its way to a home (07 R171 to R175): `lpa` is the physical address with the peer number in bits [56:45],
`seq` and `prev` its place in the source die's chain (0 when it takes none), `vec` the vector it carries; `cache` says that it may fill, or
has gone through, the cluster cache, `pub` that its page is published, `delay` is its latest back-off delay. -/
structure Req where
  id    : Nat
  owner : Owner
  die   : Nat
  pa    : Nat
  va    : Nat
  space : Nat
  kind  : ReqKind
  st    : ReqState
  seq   : Nat
  prev  : Nat
  vec   : Table Nat
  pend  : Option Nat
  cache : Bool
  pub   : Bool
  delay : Nat
  ctx   : Ctx
  deriving DecidableEq, Repr

/-- A cluster-cache line (07 R170): the 64-byte line at physical address `line`, which bytes it holds, which are dirty, and
the stream that dirtied it; `take` marks a line of a published page or of another device (08 R200); `va` is the virtual address
of the line that its last store used. -/
structure CacheLine where
  cluster : Nat
  line    : Nat
  valid   : BitVec 64
  dirty   : BitVec 64
  data    : Table Byte
  core    : Nat
  x       : Bool
  take    : Bool
  va      : Nat
  deriving DecidableEq, Repr

/-- An entry of a walk cache (18 R404): level 15 is the space-table entry. -/
structure WalkEntry where
  die    : Nat
  space  : Nat
  level  : Nat
  prefixVa : Nat
  entry  : Word
  deriving DecidableEq, Repr

/-- An invalidation in progress (18 R409): the dies it has not reached; the requests, near-memory commands and storyboards, for their
completion records, that translated through a removed entry and are not settled. -/
structure InvalRun where
  id    : Nat
  msg   : Inval
  dies  : List Nat
  reqs  : List Nat
  nmcs  : List Nat
  dones : List Nat
  deriving DecidableEq, Repr

/-- A page of a near-memory command as translated at issue (09 R243). -/
structure NmcPage where
  vbase : Nat
  log   : Nat
  pbase : Nat
  rop   : Bool
  pub   : Bool
  deriving DecidableEq, Repr

/-- A near-memory command (09 R242 to R246). -/
structure NmcCmd where
  id      : Nat
  core    : Nat
  run     : Option Nat
  stack   : Nat
  opc     : Nat
  addrP   : Nat
  addrG   : Nat
  addrM   : Nat
  ng      : Nat
  a       : BitVec 32
  b       : BitVec 32
  doneVa  : Nat
  donePa  : Nat
  doneFe  : Bool
  doneRop : Bool
  donePub : Bool
  acq     : Bool
  rel     : Bool
  scope   : Nat
  pages   : List NmcPage
  next    : Nat
  ndone   : Nat
  nskip   : Nat
  fskip   : Nat
  ctr     : Word
  nheld   : Nat
  rop1    : Option (Nat × Nat)
  pub1    : Option (Nat × Nat)
  takeRun : Bool
  vec     : Table Nat
  after   : List Nat
  ctx     : Ctx
  deriving DecidableEq, Repr

/-- One bank of the cut buffer (08 R204 to R206): its records oldest first, the bytes used in its first part, the overflow
extents taken (descriptor, base, size) and bytes used in the latest, the records dropped, by cut group, and the takes whose
record found the chain empty (cut group and take): their later records are dropped too. -/
structure Bank where
  recs    : List DRec
  used    : Nat
  extents : List (Nat × Nat × Nat)
  extUsed : Nat
  dropped : Table Nat
  short   : List (Nat × Nat)
  deriving DecidableEq, Repr

/-- State of one device's instance of a cut (08 R209). -/
inductive CutState where
  | opened
  | arrived
  | applying
  | applied
  | closed
  deriving DecidableEq, Repr

/-- One device's instance of cut n of a group (08 R209, R212): the cores whose tasks have arrived by CUTA, 32,768 higher once such a
task has ended; its own counts and lowest conflicting unit; `vec` is what the releases of its tasks order (08 R211). -/
structure CutInst where
  group : Nat
  run   : Nat
  n     : Nat
  st    : CutState
  tasks : List Nat
  nconf : Nat
  ndrop : Nat
  ndmg  : Nat
  low   : Option Nat
  vec   : Table Nat
  deriving DecidableEq, Repr

/-- The root's part of a cut (08 R209, R215): what has arrived, the skew timer's count and since when it runs, and the members
whose tasks had all ended when they arrived. -/
structure RootCut where
  group   : Nat
  n       : Nat
  members : Nat
  arrived : List Nat
  reports : List (Nat × Word)
  sentApply : Bool
  count   : Nat
  since   : Option Nat
  ended   : List Nat
  deriving DecidableEq, Repr

/-- A level-table entry (02 R31). -/
structure TreeLevel where
  name   : Word
  extent : Nat
  width  : Nat
  bind   : Nat
  co     : Bool
  ord    : Bool
  lane   : Bool
  bar    : Bool
  gang   : Bool
  take   : Bool
  esz    : Nat
  deriving DecidableEq, Repr

/-- A call sheet as loaded (13 R322, R325): slot, sending and receiving group index of each entry, and the phase end E. -/
structure Sheet where
  period   : Nat
  entries  : List (Nat × Nat × Nat)
  phaseEnd : Nat
  deriving DecidableEq, Repr

/-- A place that runs a chunk of groups one after another (02 R51): its cores by group index, the group it runs, the last of its chunk. -/
structure Place where
  cores   : List Nat
  current : Nat
  last    : Nat
  started : Bool
  live    : List Nat
  deriving DecidableEq, Repr

/-- A launch that has been accepted on this device (02 R38 to R54): `dgrp` is the cut-group number whose entry lists its domain,
`turn` says when it was dealt last, `startAt` when its first group started, `reported` that its share has ended in a domain of
several devices, `allEnded` that every share has; `excl` is the exclusion bitmap as it stood at acceptance (17 R378); `pins`
holds, for a physical level, the unit that its latest member with a dealt group lies in: level, member, unit (02 R39). -/
structure Run where
  id       : Nat
  sb       : Nat
  idx      : Nat
  slate    : Word
  space    : Nat
  d        : Nat
  dIdx     : Nat
  cls      : Nat
  levels   : List TreeLevel
  spi      : Nat
  seed     : Nat
  cgrp     : Nat
  dgrp     : Nat
  takeLv   : Option Nat
  gangLv   : Option Nat
  entry    : Nat
  args     : Word
  image    : List Word
  sheet    : Option Sheet
  go       : Bool
  groups   : Nat
  dealt    : Nat
  places   : List Place
  started  : Nat
  endedTasks : List Word
  preempted : Bool
  saved    : Option (Nat × List (Nat × Task))
  aborted  : Bool
  retired  : Bool
  lastCut  : Bool
  turn     : Nat
  startAt  : Nat
  reported : Bool
  allEnded : Bool
  excl     : Table Bool
  pins     : List (Nat × Nat × Nat)
  deriving DecidableEq, Repr

/-- Where a launch of a storyboard stands (02 R54). -/
inductive LaunchState where
  | waiting
  | accepted (run : Nat)
  | retired
  | faulted (code level : Nat)
  | aborted
  | skipped
  deriving DecidableEq, Repr

/-- A storyboard submitted on this device (02 R52 to R58). -/
structure Story where
  id     : Nat
  va     : Word
  nth    : Nat
  space  : Nat
  d      : Nat
  dIdx   : Nat
  cls    : Nat
  intr   : Bool
  done   : Nat
  donePa : Nat
  doneFe : Bool
  slates : List Word
  edges  : List (Nat × Nat)
  check  : Word
  launches : List LaunchState
  queued : Bool
  t0     : Option Nat
  t1     : Nat
  drop0  : Nat
  cutw   : Nat
  finished : Bool
  deriving DecidableEq, Repr

/-- The tasks of a residency group at its exchange barrier (13 R327): `vec` is what their releases at arrival order. -/
structure XGroup where
  run      : Nat
  group    : Nat
  arrived  : List Nat
  released : Option Nat
  vec      : Table Nat
  deriving DecidableEq, Repr

/-- The current phase of a barrier instance (13 R336): arrivals of this device's members by core, with OPC and value; members
of a domain barrier that have ended; whether this device's arrival has gone up; arrivals of devices by domain index, with
OPC, mismatch and value; `vec` is what the releases at arrival order on this device (13 R337). -/
structure BarInst where
  run    : Nat
  bid    : Nat
  dom    : Bool
  level  : Nat
  key    : Nat
  mask   : BitVec 1024
  cores  : List (Nat × Nat × Word)
  ended  : List Nat
  sentUp : Bool
  remote : List (Nat × Nat × Bool × Word)
  vec    : Table Nat
  deriving DecidableEq, Repr

/-- A posted queue-pair entry (13 R343 to R347): `phase` counts its events: 0 waiting, 1 started, 2 SRC_REUSE, 3 LOCAL_DONE; `pos`
bytes of its source are read; `user` says that it was posted at level T (18 R399), `core` and `run` by which task; `lost` that it
was dropped at an unreachable target (19 R417). -/
structure QpEntry where
  core  : Nat
  opc   : Nat
  red   : Nat
  trig  : Nat
  thresh : Nat
  laddr : Nat
  raddr : Nat
  len   : Nat
  evReuse : Nat
  evLocal : Nat
  evAll : Nat
  evRemote : Nat
  acq   : Bool
  rel   : Bool
  scope : Nat
  space : Nat
  port  : Bool
  remote : Word
  phase : Nat
  pos   : Nat
  user  : Bool
  run   : Nat
  lost  : Bool
  data  : List Byte
  vec   : Table Nat
  ctx   : Ctx
  deriving DecidableEq, Repr

/-- A class-1 control message that has not been acknowledged (19 R429): its number among those to its target, and the ports it
has been tried on. -/
structure CtlMsg where
  id    : Nat
  peer  : Nat
  num   : Nat
  msg   : Instr
  tried : List Nat
  deriving DecidableEq, Repr

/-- A code-image load (17 R381): slots written so far by core, oldest first. -/
structure CodeLoad where
  first : Nat
  count : Nat
  words : List Nat
  left  : List (Nat × Nat)
  deriving DecidableEq, Repr

/-- How a packet leaves for another device (19 R417): by a port, or over the die mesh to another partition of the module, by its
index. -/
inductive Way where
  | port (p : Nat)
  | part (k : Nat)
  deriving DecidableEq, Repr

/-- A packet to another device (19 R417, R429), and how it leaves; `num` is the number of a control message among those to its
target, from 0, and `low` the lowest number that its sender still holds: those below it were acknowledged or are lost, which tells the
target what not to wait for, the model's choice (notes/assumptions/83). -/
structure Packet where
  peer : Nat
  way  : Option Way
  num  : Option Nat
  low  : Nat
  msg  : Instr
  deriving DecidableEq, Repr

/-- A fabric link port (19 R415). -/
structure Port where
  up    : Bool
  lanes : Nat
  retry : Nat
  deriving DecidableEq, Repr

/-- A reel in progress (19 R426): its descriptor's regions and the header values. -/
structure ReelRun where
  dest    : Nat
  regions : List (Nat × Nat)
  space   : Nat
  deriving DecidableEq, Repr

/-- What leaves the partition to the host, the management port or the safe tier (19 R423, R424, R426; 13 R346). -/
inductive HostOut where
  | msix (vector : Nat)
  | value (tag : Nat) (v : Word)
  | bytes (tag : Nat) (bs : List Byte)
  | reel (dest len : Nat) (data : Table Byte)
  | qpWrite (remote : Word) (port : Bool) (way : Option Way) (addr opc red ev : Nat) (rel : Bool) (bs : List Byte)
  | pullAnswer (peer : Nat) (bs : List Byte)
  | reply (seq : Nat) (bs : List Byte)
  deriving DecidableEq, Repr

/-- What the next step does (the order in which agents move is open, 01 R24): a stream issues, an event of the table is
attempted, a message in flight is delivered, the LM stores of a core's stream are applied, router cycles pass, bring-up
goes on by a stage, a control message of another device arrives with its number and the lowest that its sender holds, another device acknowledges one, the
host reads a device register, an HBM word suffers an uncorrectable error. -/
inductive Turn where
  | issue (core : Nat) (x : Bool)
  | event (i : Instr)
  | deliver (k : Nat)
  | drain (core : Nat) (x : Bool)
  | tick (n : Nat)
  | bringUp
  | arrive (peer num low : Nat) (i : Instr)
  | acked (id : Nat)
  | hostRead (n : Nat)
  | damage (word : Nat)
  deriving DecidableEq, Repr

/-- The stream whose instruction is being executed. -/
structure Who where
  core : Nat
  x    : Bool
  deriving DecidableEq, Repr

/-- One partition of a Z32. -/
structure State where
  /-- The stream whose instruction is executed: the model's own | - | model | core 0, A-stream -/
  cur : Who
  /-- The turns to come, the model's own: which agent moves next is open | list | 01 R24, model | empty -/
  schedule : List Turn
  /-- Messages in flight to this partition | list | 01 R21 | empty -/
  agenda : List Instr
  /-- Messages sent to other devices | list | 08 R209, 19 R417, R429 | empty -/
  outbox : List Packet
  /-- Control messages sent so far, by target peer | count | 19 R429 | 0 -/
  ctlSent : Table Nat
  /-- Number of the control message that is to be acted on next, by source peer: a copy of an earlier one is acknowledged and not acted
  on again | count | 19 R429 | 0 -/
  heard : Table Nat
  /-- Control messages that came before an earlier one of their source, with source peer and number | list | 19 R429 | empty -/
  ahead : List (Nat × Nat × Instr)
  /-- Acknowledgements of control messages sent: source peer and number | list | 19 R429 | empty -/
  acks : List (Nat × Nat)
  /-- What left to the host, the management port and the safe tier | list | 19 R423 to R426 | empty -/
  hostOut : List HostOut
  /-- A local physical address that no stack holds, once an engine or a walk has named one: the model's own, on which the
  step faults | - | 19 R414, model | none -/
  hole : Option Nat
  /-- Next identifier of a request, result, command or run: the model's own | count | model | 1 -/
  nextId : Nat
  /-- Counter of free values drawn: the model's own | count | model | 0 (DESIGN CHOICE, log 3) -/
  drawn : Nat
  /-- Compute cores by core number, Welwick cores from 0x8000 | 32,768 and 64 | 01 R10, 19 R421 | idle -/
  cores : Table Core
  /-- Gangs by gang number | 4,096 | 01 R10 | idle -/
  gangs : Table Gang
  /-- Contents of the partition's HBM by local physical address | 64 GiB each stack | 19 R414 | 0 (R427) -/
  mem : Table Byte
  /-- Full/empty bits of HBM words, by address / 8 | 1 bit each | 07 R182 | empty -/
  full : Table Bool
  /-- HBM words that hold an uncorrectable error, by address / 8 | 1 bit each | 09 R225 | none -/
  bad : Table Bool
  /-- Stacks that failed training | 32 x 1 bit | 19 R427 | none (DESIGN CHOICE, log 4) -/
  failed : Table Bool
  /-- Cuts closed since reset, which select the published contents of other devices (`Config.remoteByte`): the model's own |
  count | 08 R199, model | 0 (DESIGN CHOICE, log 5) -/
  epoch : Nat
  /-- Cluster-cache lines, oldest first | 512 KiB each cluster | 07 R170 | empty -/
  lines : List CacheLine
  /-- Micro-TLB and die-TLB entries, newest first | 64 and 8,192 each | 18 R404 | empty -/
  tlb : List TlbEntry
  /-- Walk-cache entries, newest first | 512 each die | 18 R404 | empty -/
  walks : List WalkEntry
  /-- Invalidations not complete on every die | list | 18 R409 | empty -/
  invals : List InvalRun
  /-- Requests to homes in flight or waiting, oldest first | list; 256 listed each home | 07 R164, R185 | empty -/
  reqs : List Req
  /-- Write sequence counter n_d, by die | 64 bits each | 07 R171 | 0 -/
  nseq : Table Nat
  /-- Vector V_d[s], at 64 d + s | 64 bits each | 07 R171 | 0 -/
  vec : Table Nat
  /-- Sequence of die d's latest write to home k, at 64 d + k | 64 bits each | 07 R171 | 0 -/
  lastTo : Table Nat
  /-- Horizon H_k[d], at 64 k + d | 64 bits each | 07 R172 | 0 -/
  hor : Table Nat
  /-- Latest write of die d applied at home k, at 64 k + d | 64 bits each | 07 R172 | 0 -/
  chain : Table Nat
  /-- Near-memory commands not complete, oldest first | 16 each core | 09 R245 | empty -/
  nmcs : List NmcCmd
  /-- Deferred records sent and neither acknowledged nor failed | list | 08 R207 | empty -/
  sent : List DRec
  /-- Deferred records lost, by cut group at 2 (group) + parity | count | 08 R214 | 0 -/
  lost : Table Nat
  /-- Records beyond the limit of R198, likewise | count | 08 R198 | 0 -/
  overrun : Table Nat
  /-- Cut buffer bank 0 | - | 08 R204 | empty -/
  bank0 : Bank
  /-- Cut buffer bank 1 | - | 08 R204 | empty -/
  bank1 : Bank
  /-- Cut instances of this device | list | 08 R209 | empty -/
  cuts : List CutInst
  /-- The root's cuts, where this device is the root | list | 08 R209 | empty -/
  roots : List RootCut
  /-- Devices whose SUSPEND stands at this root: group and domain index | list | 08 R215 | empty -/
  held : List (Nat × Nat)
  /-- Cut status word of the latest closed cut | 64 bits | 08 R212 | 0 -/
  cutst : Word
  /-- Storyboards submitted | 64 queued each class | 17 R375, R379 | empty -/
  stories : List Story
  /-- Submissions so far of each storyboard address | count | 02 R58 | 0 -/
  submits : Table Nat
  /-- Launches accepted | list | 02 R38 | empty -/
  runs : List Run
  /-- Check results that device 0 of a domain has received | list | 02 R42 | empty -/
  agreed : List Agree
  /-- Exchange barriers of residency groups | list | 13 R327 | empty -/
  xgroups : List XGroup
  /-- Barrier instances | list | 13 R336 | empty -/
  barInsts : List BarInst
  /-- Queue-pair rings: entries not finished, oldest first, by queue pair | 256 | 13 R345 | empty -/
  qps : Table (List QpEntry)
  /-- Entries posted so far to each queue pair's ring | count | 13 R341, R344 | 0 -/
  qpTail : Table Nat
  /-- Trigger counters | 1,024 x 64 bits | 13 R342 | 0 -/
  trig : Table Word
  /-- Control messages not acknowledged | list | 19 R429 | empty -/
  ctl : List CtlMsg
  /-- Device cycle count | 64 bits | 05 R110 | 0 -/
  dcyc : Nat
  /-- ERRBASE | 64 bits, BASE [44:12] | 16 R372 | 0 -/
  errbase : Word
  /-- ERRSIZE.LOG | 5 bits | 16 R372 | 10 -/
  errsize : Nat
  /-- ERRHEAD | 32 bits | 16 R372 | 0 -/
  errhead : Nat
  /-- ERRTAIL | 32 bits | 16 R372 | 0 -/
  errtail : Nat
  /-- ERRTRAP.EN | 4 bits | 16 R372 | 0 -/
  errtrap : Nat
  /-- ERRCORR HBM, SRAM and LINK counts, at 0, 1 and 2 | 3 x 16 bits | 16 R372 | 0 -/
  errcorr : Table Nat
  /-- ERRLOST | 32 bits | 16 R372 | 0 -/
  errlost : Nat
  /-- Dropped-data records written since reset, for NDROP of R55: the model's own count | count | 02 R55 | 0 -/
  drops : Nat
  /-- CCTLDEF | 1 bit | 16 R361 | 0 -/
  cctldef : Word
  /-- TVECDEF | 12 bits | 16 R361 | 0xF00 -/
  tvecdef : Word
  /-- SPILLADEF | 32 bits | 16 R361 | 0 -/
  spilladef : Word
  /-- SPILLXDEF | 32 bits | 16 R361 | 0 -/
  spillxdef : Word
  /-- CBBASE | BASE [44:12] | 08 R204 | 0 -/
  cbbase : Word
  /-- CBSIZE.MIB | 32 bits | 08 R204 | 0x4000 -/
  cbsize : Nat
  /-- CBOVF.HEAD | 45 bits | 08 R204 | 0 -/
  cbovf : Word
  /-- CUTTMO.LIM | 32 bits | 08 R204 | 0x10000 -/
  cuttmo : Nat
  /-- CUTHOLD | TAKE [31:0], EN [32] | 08 R204 | 0 -/
  cuthold : Word
  /-- RDAP0 to RDAP15 | PEER [11:0], V [12] | 13 R340 | 0 -/
  rdap : Table Word
  /-- QPBASE | ADDR [56:6] | 13 R341 | 0 -/
  qpbase : Word
  /-- LPDOM | D [12:0], IDX [28:16], SPACE [47:32] | 17 R375 | D = 1 -/
  lpdom : Word
  /-- LCTL | CLSEN [3:0], PREEN [4] | 17 R375 | 0x1F -/
  lctl : Word
  /-- XCL | V [0], BASE [44:12] | 17 R375 | 0 -/
  xcl : Word
  /-- Exclusion bitmap as last read | 32,768 x 1 bit | 17 R378 | none excluded -/
  excl : Table Bool
  /-- CLDSRC | ADDR [44:6] | 17 R375 | 0 -/
  cldsrc : Word
  /-- CLDCTL FIRST and COUNT | 12 and 13 bits | 17 R375 | 0 -/
  cldctl : Word
  /-- Code load in progress (CLDCTL.BUSY) | - | 17 R381 | none -/
  load : Option CodeLoad
  /-- CTX | N [2:0], OFF [35:29] | 17 R375 | 0 -/
  ctx : Word
  /-- DBGSEL.CORE | 15 bits | 17 R390 | 0 -/
  dbgsel : Word
  /-- DBGCTL.ATT | 1 bit | 17 R390 | 0 -/
  dbgctl : Word
  /-- DBGRSEL | DESC [21:0], WORD [26:22], STRM [27] | 17 R390 | 0 -/
  dbgrsel : Word
  /-- DBGIW words 0 and 1 written so far, by index | 2 x 32 bits | 17 R390 | 0 -/
  dbgiw : Table Word
  /-- SPTBASE | BASE [44:12] | 18 R394 | 0 -/
  sptbase : Word
  /-- SPTLIM.N | 17 bits | 18 R394 | 0 -/
  sptlim : Nat
  /-- SDSTAT.PEND | 16 bits | 18 R394 | 0 -/
  sdstat : Nat
  /-- TFLOG0 | 64 bits | 18 R407 | 0 -/
  tflog0 : Word
  /-- TFLOG1 | 57 bits | 18 R407 | 0 -/
  tflog1 : Word
  /-- TFLOG2 | 45 bits | 18 R407 | 0 -/
  tflog2 : Word
  /-- TFLOG3 | 64 bits | 18 R407 | 0 -/
  tflog3 : Word
  /-- Device cycle, island cycle and core of the fault that TFLOG holds, which decide between faults of one cycle | two counts, core | 18 R407 | none -/
  tflogAt : Option (Nat × Nat × Nat)
  /-- PEERID | 12 bits | 19 R415 | 0 -/
  peerid : Nat
  /-- INSTLOC | 64 bits | 19 R415 | 0 -/
  instloc : Word
  /-- PARTINFO.LOG | 3 bits | 19 R415 | the configuration record's (log 6) -/
  partLog : Nat
  /-- PARTINFO.FIRST | 5 bits | 19 R415 | the configuration record's (log 6) -/
  partFirst : Nat
  /-- CGTBASE | BASE [44:4] | 19 R415 | 0 -/
  cgtbase : Word
  /-- CGTN.N | 7 bits | 19 R415 | 0 -/
  cgtn : Nat
  /-- FRTBASE | V [0], BASE [44:12] | 19 R415 | 0 -/
  frtbase : Word
  /-- PORTSEL.PORT | 6 bits | 19 R415 | 0 -/
  portsel : Nat
  /-- Fabric ports: UP, LANES, RETRY | 40 x (1, 4, 16 bits) | 19 R415 | down, 0 -/
  ports : Table Port
  /-- ISLSEL.CL | 10 bits | 19 R420 | 0 -/
  islsel : Nat
  /-- ISLFREQ.SET by cluster | 11 bits each | 19 R420 | 1,600 -/
  islset : Table Nat
  /-- ISLFREQ.CAP by cluster | 11 bits each | 19 R420 | 1,800 -/
  islcap : Table Nat
  /-- DEVSTAT.STAGE | 4 bits | 19 R422 | 0 -/
  stage : Nat
  /-- DEVSTAT.READY | 1 bit | 19 R422 | 0 -/
  isReady : Bool
  /-- INTPEND | 4 bits | 19 R422 | 0 -/
  intpend : BitVec 4
  /-- HWIN | BASE [44:32] | 19 R422 | 0 -/
  hwin : Word
  /-- REELDESC | ADDR [44:6] | 19 R426 | 0 -/
  reeldesc : Word
  /-- Reel in progress (REELCTL.BUSY) | - | 19 R426 | none -/
  reel : Option ReelRun
  /-- REELCTL.STATUS | 2 bits | 19 R426 | 0 -/
  reelst : Nat
  /-- On-package flash | 1 GiB | 19 R427 | 0 (DESIGN CHOICE, log 6) -/
  flash : Table Byte
  /-- The image region active now, and the one marked for the next reset | A = 0, B = 1 | 19 R424, R427 | A (DESIGN CHOICE, log 6) -/
  region : Nat
  nextRegion : Nat
  /-- The 64 bytes Ngupor placed last for the Welwick cores | 64 bytes | 19 R424 | 0 (DESIGN CHOICE, log 1) -/
  ngmsg : List Byte
  deriving DecidableEq, Repr

/-- Why the machine stops. -/
inductive Fault where
  /-- Raised by `step` after a table walk or an engine named local physical address `lpa`, which the local physical address
  map gives to no trained stack (19 R414), where the spec gives such an access no effect. Safe: the machine stops where the hardware
  may go on. -/
  | noSuchMemory (lpa : Nat)
  deriving DecidableEq, Repr

/-- Why an instruction has no meaning. -/
inductive Refusal where
  /-- Raised by an arm of `exec` that has no meaning yet. Safe: the machine stops. -/
  | notModelled (mnemonic : String)
  deriving DecidableEq, Repr

/-- The outcome of a step or of an instruction. -/
abbrev Out := Host.Outcome State Fault Refusal

/-- A sequencer that runs nothing. -/
def Stream.idle : Stream :=
  { pc := 0, run := false, ready := 0, loops := [], floor := 0, rets := [], spilled := 0, landings := [], lmq := [],
    waitFrom := none, stage := .start, guarded := none, aside := none, halted := false, stepping := false, carried := [], seen := [] }

/-- A queue that holds nothing. -/
def Fifo.empty : Fifo := { entries := [], lastPop := none }

/-- A core that runs no task, with every register zero (02 R36) and TVEC at the reset value of TVECDEF (16 R360, R361). -/
def Core.idle : Core :=
  { level := .t, cyc := 0, aFrom := 0, allFrom := 0, a := Stream.idle, x := Stream.idle, g := [], s := [], v := [], pa := [],
    px := [], t := [], tc := [], presG := [], presV := [], pends := [], aq := Fifo.empty, xq := Fifo.empty,
    bqa := Fifo.empty, bqx := Fifo.empty, inbox := [], held := [], mail := [], heldMail := [], lm := [], lmFull := [],
    code := [], key := [], vflags := 0, tctr := [], copies := [], bars := [], xbarAt := none, sv := [(1, 0xF00)], task := none }

/-- The continuity unit at task start (12 R311). -/
def Cont.zero : Cont :=
  { ctbase := 0, csbase := 0, cstbase := 0, geom := 0, cstep := 0, cref := 0, pend := [], sig := [], sigv := false,
    nf := false, sigb := 0, thr := [] }

/-- A gang at task start (11 R290). -/
def Gang.idle : Gang :=
  { acc := [], station := none, outer := [], bctr := [], arrivals := [], queue := [], join := none, cont := Cont.zero }

/-- An empty bank of the cut buffer (08 R204). -/
def Bank.empty : Bank := { recs := [], used := 0, extents := [], extUsed := 0, dropped := [], short := [] }

/-- An unbound barrier identifier (13 R332). -/
def BarEntry.unbound : BarEntry :=
  { bound := false, dom := false, level := 0, key := 0, mask := 0, asLevel := none, arrived := false, done := false, mismatch := false,
    opc := 0, value := 0 }

/-- A port before training (19 R415). -/
def Port.down : Port := { up := false, lanes := 0, retry := 0 }

/-- The partition right after a module reset (19 R427): nothing runs, every register at its reset value. -/
def State.reset : State :=
  { cur := { core := 0, x := false }, schedule := [], agenda := [], outbox := [], ctlSent := [], heard := [], ahead := [], acks := [], hostOut := [], hole := none, nextId := 1, drawn := 0,
    cores := [], gangs := [], mem := [], full := [], bad := [], failed := [], epoch := 0, lines := [], tlb := [],
    walks := [], invals := [], reqs := [], nseq := [], vec := [], lastTo := [], hor := [], chain := [], nmcs := [],
    sent := [], lost := [], overrun := [], bank0 := Bank.empty, bank1 := Bank.empty, cuts := [], roots := [], held := [], cutst := 0,
    stories := [], submits := [], runs := [], agreed := [], xgroups := [], barInsts := [], qps := [], qpTail := [], trig := [], ctl := [],
    dcyc := 0, errbase := 0, errsize := 10, errhead := 0, errtail := 0, errtrap := 0, errcorr := [], errlost := 0, drops := 0,
    cctldef := 0, tvecdef := 0xF00, spilladef := 0, spillxdef := 0, cbbase := 0, cbsize := 0x4000, cbovf := 0,
    cuttmo := 0x10000, cuthold := 0, rdap := [], qpbase := 0, lpdom := 1, lctl := 0x1F, xcl := 0, excl := [], cldsrc := 0,
    cldctl := 0, load := none, ctx := 0, dbgsel := 0, dbgctl := 0, dbgrsel := 0, dbgiw := [], sptbase := 0, sptlim := 0,
    sdstat := 0, tflog0 := 0, tflog1 := 0, tflog2 := 0, tflog3 := 0, tflogAt := none, peerid := 0, instloc := 0, partLog := Config.partLog,
    partFirst := Config.partFirst, cgtbase := 0, cgtn := 0, frtbase := 0, portsel := 0, ports := [], islsel := 0,
    islset := [], islcap := [], stage := 0, isReady := false, intpend := 0, hwin := 0, reeldesc := 0, reel := none,
    reelst := 0, flash := [], region := 0, nextRegion := 0, ngmsg := List.replicate 64 0 }

end Sys2Proof.Machine
end

