-- ==== Sys2Proof/Machine/Ops.lean ====
section
/-! DEFINITION. The named operations over cores, streams, registers, queues, local memory and physical memory; time; the
error ring; taking a trap and returning from one; what every instruction does at issue. -/

namespace Sys2Proof.Machine

/-! ### Cores and streams -/

/-- Core `n`. -/
def State.core (s : State) (n : Nat) : Core := tget Core.idle n s.cores

/-- The state with core `n` replaced. -/
def State.setCore (s : State) (n : Nat) (c : Core) : State := { s with cores := tput Core.idle n c s.cores }

/-- The stream of a core: X where `x`. -/
def Core.stream (c : Core) (x : Bool) : Stream := if x then c.x else c.a

/-- The core with a stream replaced. -/
def Core.setStream (c : Core) (x : Bool) (t : Stream) : Core := if x then { c with x := t } else { c with a := t }

/-- The core whose instruction is executed. -/
def State.me (s : State) : Core := s.core s.cur.core

/-- The state with that core replaced. -/
def State.setMe (s : State) (c : Core) : State := s.setCore s.cur.core c

/-- The stream whose instruction is executed. -/
def State.st (s : State) : Stream := s.me.stream s.cur.x

/-- The state with that stream replaced. -/
def State.setSt (s : State) (t : Stream) : State := s.setMe (s.me.setStream s.cur.x t)

/-- The island cycle in which the current instruction issues. -/
def State.now (s : State) : Nat := s.me.cyc

/-- Welwick core `k` stands at `Config.welwickBase + k` (19 R421). -/
def isHub (n : Nat) : Bool := decide (Config.welwickBase ≤ n)

/-- Gang `n` (01 R11). -/
def State.gang (s : State) (n : Nat) : Gang := tget Gang.idle n s.gangs

def State.setGang (s : State) (n : Nat) (g : Gang) : State := { s with gangs := tput Gang.idle n g s.gangs }

/-- Gang, cluster and die of a core number (01 R11); a Welwick core counts as the hub die. -/
def gangOf (n : Nat) : Nat := n / 8
def clusterOf (n : Nat) : Nat := n / 32
def dieOf (n : Nat) : Nat := if isHub n then Config.hubDie else n / 1024

/-- Supervisor register `n` of a core (16 R360). -/
def Core.svGet (c : Core) (n : Nat) : Word := tget 0 n c.sv

def Core.svPut (c : Core) (n : Nat) (v : Word) : Core := { c with sv := tput 0 n v c.sv }

/-- A fresh identifier. -/
def State.fresh (s : State) : Nat × State := (s.nextId, { s with nextId := s.nextId + 1 })

/-- The number of the next free value, which counts the values drawn (notes/assumptions/3). -/
def State.draw (s : State) : Nat × State := (s.drawn, { s with drawn := s.drawn + 1 })

/-- The accepted launch with an identifier (02 R38). -/
def State.run? (s : State) (id : Nat) : Option Run := s.runs.find? (fun r => r.id == id)

/-- The launch of the task on core `n`. -/
def State.runOf (s : State) (n : Nat) : Option Run := (s.core n).task.bind (fun t => s.run? t.run)

def State.setRun (s : State) (r : Run) : State := { s with runs := s.runs.map (fun q => if q.id = r.id then r else q) }

/-- The task on core `n` changed. -/
def State.mapTask (s : State) (n : Nat) (f : Task → Task) : State :=
  s.setCore n { s.core n with task := (s.core n).task.map f }

/-- A die belongs to the partition (19 R413, R415). -/
def State.ownDie (s : State) (d : Nat) : Bool := decide (s.partFirst ≤ d) && decide (d < s.partFirst + 2 ^ s.partLog)

/-- A core belongs to the partition (19 R413). -/
def State.ownCore (s : State) (n : Nat) : Bool :=
  if isHub n then decide (n < Config.welwickBase + Config.welwicks) else decide (n < 32768) && s.ownDie (dieOf n)

/-! ### Registers -/

/-- All 128 bits of a predicate set. -/
def allOnes : Nat := 2 ^ 128 - 1

/-- All 1,024 bits of a v register set. -/
def allLanes : Nat := 2 ^ 1024 - 1

/-- Bits of `old` replaced by those of `new` where the mask has one. -/
def mergeBits (mask old new : Nat) : Nat := Nat.xor old (Nat.land mask (Nat.xor old new))

/-- Bytes of `old` replaced by those of `new` where the mask has a bit, `w` bits to a byte. -/
def mergeMask (w n : Nat) (mask old new : Nat) : Nat :=
  mkLanes (fun i => if bitAt mask i then fld new (w * i) w else fld old (w * i) w) w 0 n

/-- The value of a register (05 R104, R105): p0 reads as all ones. A tile reads as its 4,096 bytes. -/
def Core.reg (c : Core) : Reg → Nat
  | .g i => (tget 0 i c.g).toNat
  | .s i => (tget 0 i c.s).toNat
  | .v i => (tget 0 i c.v).toNat
  | .pa i => if i = 0 then 1 else b01 (tget false i c.pa)
  | .px i => if i = 0 then allOnes else (tget 0 i c.px).toNat
  | .t i => rdLe c.t (4096 * i) 4096
  | .key n => (tget 0 n c.key).toNat

/-- The nonzero bytes of a tile as table entries from key `k` on. -/
def tileEntries (k v : Nat) : Nat → Table Byte
  | 0 => []
  | n + 1 => (if v % 256 = 0 then [] else [(k, BitVec.ofNat 8 v)]) ++ tileEntries (k + 1) (v / 256) n

/-- The 4,096 bytes of tile `i` replaced. -/
def Core.setTile (c : Core) (i v : Nat) : Core :=
  { c with t := c.t.filter (fun e => decide (e.1 < 4096 * i)) ++ tileEntries (4096 * i) v 4096 ++
                c.t.filter (fun e => decide (4096 * i + 4096 ≤ e.1)) }

/-- A register written (05 R104 to R106): a write to p0 is discarded, a write to g32 to g63 or a v register makes it
present; `mask` has a bit for each bit of a v register or an X-stream predicate, and for each byte of a tile. -/
def Core.setReg (c : Core) (r : Reg) (mask val : Nat) : Core :=
  match r with
  | .g i => { c with g := tput 0 i (BitVec.ofNat 64 val) c.g,
                     presG := if 32 ≤ i then tput false i true c.presG else c.presG }
  | .s i => { c with s := tput 0 i (BitVec.ofNat 64 val) c.s }
  | .v i => { c with v := tput 0 i (BitVec.ofNat 1024 (mergeBits mask (tget 0 i c.v).toNat val)) c.v,
                     presV := tput false i true c.presV }
  | .pa i => if i = 0 then c else { c with pa := tput false i (bitAt val 0) c.pa }
  | .px i =>
    if i = 0 then c
    else { c with px := tput 0 i (BitVec.ofNat 128 (mergeMask 1 128 mask (tget 0 i c.px).toNat val)) c.px }
  | .t i => c.setTile i (mergeMask 8 4096 mask (rdLe c.t (4096 * i) 4096) val)
  | .key n => { c with key := tput 0 n (BitVec.ofNat 64 (val % 2 ^ 32)) c.key }

/-- Whether a register has a presence bit that is clear (05 R106). -/
def Core.absent (c : Core) : Reg → Bool
  | .g i => decide (32 ≤ i) && !tget false i c.presG
  | .v i => !tget false i c.presV
  | _ => false

/-- Whether a stream's register is the destination of a pending result (05 R109). -/
def Core.pendingReg (c : Core) (x : Bool) (r : Reg) : Bool :=
  c.pends.any (fun p => p.x == x && p.outs.any (fun o => o.1 == r))

/-- Whether a fixed-latency result for the register has not landed before cycle `t` (05 R107, R116). -/
def Core.inFlight (c : Core) (x : Bool) (r : Reg) (t : Nat) : Bool :=
  (c.stream x).landings.any (fun l => l.dst == r && decide (t ≤ l.lands))

/-! ### Time -/

/-- The results of one stream that land up to the end of cycle `t` written (05 R107). -/
def Core.land (c : Core) (x : Bool) (t : Nat) : Core :=
  let ls := (c.stream x).landings
  let c := (ls.filter (fun l => decide (l.lands ≤ t))).foldl (fun c l => c.setReg l.dst l.mask l.val) c
  c.setStream x { c.stream x with landings := ls.filter (fun l => !decide (l.lands ≤ t)) }

/-- The results of both streams that land up to the end of cycle `t` written. -/
def Core.settle (c : Core) (t : Nat) : Core := (c.land false t).land true t

/-- The earliest cycle in which a stream can issue (05 R114; in one cycle the A-stream comes first and an arrival last). -/
def Core.issueAt (c : Core) (x : Bool) : Nat :=
  max (max c.cyc (c.stream x).ready) (max c.allFrom (if x then 0 else c.aFrom))

/-- The core at the start of cycle `t`: every result that landed before it is written. -/
def Core.at' (c : Core) (t : Nat) : Core := { c.settle (t - 1) with cyc := t }

/-- Whether a stream may be issued from: it runs, is not halted, and the X-stream only at level T (16 R362, 17 R391). -/
def Core.runnable (c : Core) (x : Bool) : Bool :=
  (c.stream x).run && !(c.stream x).halted && (!x || c.level != .s)

/-- Whether the stream is the next of its core to issue: the earlier one, the A-stream where both could (07 R165). -/
def Core.mayIssue (c : Core) (x : Bool) : Bool :=
  c.runnable x && (!c.runnable (!x) ||
    (if x then decide (c.issueAt true < c.issueAt false) else decide (c.issueAt false ≤ c.issueAt true)))

/-- A fixed-latency result of the current stream (05 R107, R108): it lands at the end of cycle t + L - 1, and after every
earlier write to the register that is outstanding; with L = 1 and none outstanding it is written at once. A write to p0, which is
discarded when it lands, is outstanding until then like any other, the model's choice (notes/assumptions/77). -/
def State.writeFixed (s : State) (r : Reg) (mask val lat : Nat) : State :=
  let c := s.me
  let st := s.st
  let old := st.landings.filter (fun l => l.dst == r)
  if lat ≤ 1 ∧ old = [] then s.setMe (c.setReg r mask val)
  else
    let lands := old.foldl (fun a l => max a (l.lands + 1)) (c.cyc + lat - 1)
    s.setSt { st with landings := st.landings ++ [{ dst := r, mask := mask, val := val, lands := lands }] }

/-- A variable-latency result of the current stream (05 R109), with its identifier. -/
def State.pendAs (s : State) (id : Nat) (outs : List (Reg × Option Nat)) : State :=
  s.setMe { s.me with pends := s.me.pends ++ [{ id := id, x := s.cur.x, outs := outs, masks := [] }] }

/-- The same under a fresh identifier. -/
def State.pendNew (s : State) (outs : List (Reg × Option Nat)) : State := (s.fresh.2).pendAs s.nextId outs

/-- Variable-latency results that are written together, each in the bits of its mask only (10 R251, R275). -/
def State.pendMasks (s : State) (outs : List (Reg × Nat × Nat)) : State :=
  let t := s.fresh.2
  t.setMe { t.me with pends := t.me.pends ++
    [{ id := s.nextId, x := s.cur.x, outs := outs.map (fun o => (o.1, some o.2.2)), masks := outs.map (fun o => (o.1, o.2.1)) }] }

/-- Fixed-latency results that land together (10 R264): at the end of cycle t + L - 1, and after every earlier write to one of the
registers that is outstanding. -/
def State.writeTogether (s : State) (outs : List (Reg × Nat × Nat)) (lat : Nat) : State :=
  let st := s.st
  let old := st.landings.filter (fun l => outs.any (fun o => o.1 == l.dst))
  let lands := old.foldl (fun a l => max a (l.lands + 1)) (s.now + lat - 1)
  let mine := outs.map (fun o => ({ dst := o.1, mask := o.2.1, val := o.2.2, lands := lands } : Landing))
  s.setSt { st with landings := st.landings ++ mine }

/-- A value given to a pending result of core `n` once it has arrived. -/
def State.fillPend (s : State) (n id : Nat) (r : Reg) (v : Nat) : State :=
  let c := s.core n
  let fill (o : Reg × Option Nat) : Reg × Option Nat := if o.1 = r then (o.1, some v) else o
  s.setCore n { c with pends := c.pends.map (fun p => if p.id = id then { p with outs := p.outs.map fill } else p) }

/-! ### Queues between the streams (05 R111 to R113) -/

/-- The queue of a port code 0 to 3. -/
def Core.fifo (c : Core) (k : Nat) : Fifo :=
  match k with
  | 0 => c.aq
  | 1 => c.xq
  | 2 => c.bqa
  | _ => c.bqx

def Core.setFifo (c : Core) (k : Nat) (f : Fifo) : Core :=
  match k with
  | 0 => { c with aq := f }
  | 1 => { c with xq := f }
  | 2 => { c with bqa := f }
  | _ => { c with bqx := f }

/-- Entries a queue holds at most (05 R111). -/
def fifoCap (k : Nat) : Nat := if k < 2 then 16 else 32

/-- Entries of a port that a stream can pop in cycle `t`: those pushed before it; for ports 4 and 5 the mailbox and inbox
words (05 R112, R113). -/
def Core.poppable (c : Core) (k t : Nat) : Nat :=
  if k = 4 then (c.mail.map List.length).sum
  else if k = 5 then c.inbox.length
  else ((c.fifo k).entries.filter (fun e => decide (e.1 < t))).length

/-- Whether a queue has room in cycle `t`: entries freed in the same cycle do not count (05 R113). -/
def Core.room (c : Core) (k t : Nat) : Bool :=
  let f := c.fifo k
  let freed := match f.lastPop with
    | some (u, n) => if u = t then n else 0
    | none => 0
  decide (f.entries.length + freed < fifoCap k)

/-- One entry popped (05 R111, R112): the value and the core after it. -/
def Core.pop (c : Core) (k : Nat) : Word × Core :=
  if k = 4 then
    match c.mail with
    | (w :: ws) :: es => (w, { c with mail := if ws = [] then es else ws :: es })
    | _ => (0, c)
  else if k = 5 then
    match c.inbox with
    | w :: ws => (w, { c with inbox := ws })
    | [] => (0, c)
  else
    let f := c.fifo k
    match f.entries with
    | (_, v) :: es =>
      let n := match f.lastPop with
        | some (u, m) => if u = c.cyc then m + 1 else 1
        | none => 1
      (v, c.setFifo k { entries := es, lastPop := some (c.cyc, n) })
    | [] => (0, c)

/-- One entry pushed (05 R111): a branch-outcome queue takes bit 0. -/
def Core.push (c : Core) (k : Nat) (v : Word) : Core :=
  let f := c.fifo k
  let v := if k < 2 then v else bw (bitAt v.toNat 0)
  c.setFifo k { f with entries := f.entries ++ [(c.cyc, v)] }

/-! ### Local memory -/

/-- LM bytes that no stream writes: the identity words (05 R120). -/
def inIdent (a : Nat) : Bool := decide (0x780 ≤ a) && decide (a < 0x800)

/-- LM with bytes written from `a` on; those in the identity words are discarded (05 R120). -/
def lmPut (lm : Table Byte) (a : Nat) : List Byte → Table Byte
  | [] => lm
  | b :: bs => lmPut (if inIdent a then lm else tput 0 a b lm) (a + 1) bs

/-- LM as a stream sees it: its own stores not yet applied stand in it (07 R168). -/
def Core.lmView (c : Core) (x : Bool) : Table Byte :=
  (c.stream x).lmq.foldl (fun m w => lmPut m w.addr w.bytes) c.lm

/-- `n` bytes of LM as a stream reads them. -/
def Core.lmRd (c : Core) (x : Bool) (a n : Nat) : Nat := rdLe (c.lmView x) a n

/-- Every waiting LM store of a stream applied. -/
def Core.lmFlush (c : Core) (x : Bool) : Core :=
  { c with lm := c.lmView x }.setStream x { c.stream x with lmq := [] }

/-- The A-stream's LM stores applied where one of them issued in cycle `t`: of two accesses of one cycle the A-stream's is
applied first (07 R165). -/
def Core.lmSame (c : Core) (t : Nat) : Core := if c.a.lmq.any (fun w => w.cyc == t) then c.lmFlush false else c

/-- The oldest waiting LM store of a stream applied (07 R165, R168). -/
def Core.lmDrain1 (c : Core) (x : Bool) : Core :=
  match (c.stream x).lmq with
  | [] => c
  | w :: ws =>
    let c := if x then c.lmSame w.cyc else c
    { c with lm := lmPut c.lm w.addr w.bytes }.setStream x { c.stream x with lmq := ws }

/-- The waiting LM stores of a stream applied one by one (07 R168). -/
def Core.lmDrain (c : Core) (x : Bool) : Core := (c.stream x).lmq.foldl (fun c _ => c.lmDrain1 x) c

/-- LM made ready for an access of a stream that reads it: the stream's earlier stores are applied, after those that the A-stream
issued in the same cycle (07 R165, R168). -/
def Core.lmOrder (c : Core) (x : Bool) : Core := (if x then c.lmSame c.cyc else c).lmDrain x

/-- An LM store of the current stream (07 R168, R169): it waits to be applied. -/
def State.lmStore (s : State) (a : Nat) (bs : List Byte) : State :=
  s.setSt { s.st with lmq := s.st.lmq ++ [{ cyc := s.now, addr := a, bytes := bs }] }

/-- An arrival at a core (05 R106, 07 R165): it comes after the accesses of both streams in its cycle, whose LM stores are
applied before it. -/
def Core.arrival (c : Core) : Core := { ((c.settle c.cyc).lmDrain false).lmDrain true with allFrom := c.cyc + 1 }

/-- The constant slot as the current stream reads it (05 R118). -/
def State.constSlot (s : State) (k : Nat) : Word := BitVec.ofNat 64 (s.me.lmRd s.cur.x (8 * k) 8)

/-- The byte range of an LM access meets a copy watermark that makes it stall (09 R236): any access for a load copy, writes
only for a store copy. -/
def CopyRun.stops (r : CopyRun) (a n : Nat) (write : Bool) : Bool :=
  (!r.form.dir || write) && decide (r.wm < a + n) && decide (a < r.lmEnd) && decide (r.wm < r.lmEnd)

/-- An LM access of either stream of the core must wait for a copy. -/
def Core.lmBlocked (c : Core) (a n : Nat) (write : Bool) : Bool :=
  c.copies.any (fun e => match e.2 with
    | some r => r.stops a n write
    | none => false)

/-- Full/empty bit of the LM word that holds byte `a` (07 R182). -/
def Core.lmFullAt (c : Core) (a : Nat) : Bool := tget false (a / 8) c.lmFull

/-- The full/empty bits of the identity words are never changed (05 R120). -/
def Core.setLmFull (c : Core) (a : Nat) (b : Bool) : Core :=
  if inIdent a then c else { c with lmFull := tput false (a / 8) b c.lmFull }

/-! ### Physical memory -/

/-- Whether the local physical address map gives the address to a stack of the partition that trained (19 R414). -/
def State.assigned (s : State) (a : Nat) : Bool :=
  let k := a / Config.stackBytes
  decide (a < 2 ^ 45) && s.ownDie k && !tget false k s.failed

/-- An address that an engine or a walk names: an unassigned one is kept for the step to fault on. -/
def State.touch (s : State) (a : Nat) : State :=
  if s.assigned a || s.hole.isSome then s else { s with hole := some a }

/-- `n` bytes of HBM as a number. -/
def State.memRd (s : State) (a n : Nat) : Nat := rdLe s.mem a n

/-- Bytes written to HBM. -/
def State.memPut (s : State) (a : Nat) (bs : List Byte) : State := { s with mem := tputs 0 a bs s.mem }

/-- A device record written to HBM by an engine. -/
def State.engPut (s : State) (a : Nat) (bs : List Byte) : State := (s.touch a).memPut a bs

/-- A device record read from HBM by an engine. -/
def State.engRd (s : State) (a n : Nat) : Nat × State := (s.memRd a n, s.touch a)

/-! ### Errors (16 R370 to R374, R428) -/

/-- The coordinates that an error record takes from the task on core `n`. -/
def State.ctxOf (s : State) (n : Nat) : Ctx :=
  match (s.core n).task with
  | some t =>
    { task := true, launch := ((s.run? t.run).map Run.slate).getD 0, wid := t.wid, take := t.take, core := n, peer := s.peerid }
  | none => { task := false, launch := 0, wid := 0, take := 0, core := n, peer := s.peerid }

/-- The coordinates of a record without a responsible task. -/
def State.noCtx (s : State) : Ctx := { task := false, launch := 0, wid := 0, take := 0, core := 0, peer := s.peerid }

/-- The 64 bytes of an error record (16 R373); CORE is zero where no task is responsible (16 R428). -/
def recordBytes (kind : Nat) (drop : Bool) (code seq : Nat) (cx : Ctx) (addr dcyc d0 d1 : Nat) : List Byte :=
  leBytes (kind + 2 ^ 8 * b01 drop + 2 ^ 16 * (code % 2 ^ 16) + 2 ^ 32 * (seq % 2 ^ 32)) 8 ++
  leBytes cx.launch.toNat 8 ++ leBytes cx.wid.toNat 8 ++ leBytes addr 8 ++
  leBytes (cx.take % 2 ^ 32 + 2 ^ 32 * (if cx.task then cx.core % 2 ^ 15 else 0) + 2 ^ 48 * (cx.peer % 2 ^ 12)) 8 ++
  leBytes dcyc 8 ++ leBytes d0 8 ++ leBytes d1 8

/-- An interrupt to the Welwick cores and the host (19 R422, R423). -/
def State.interrupt (s : State) (k : Nat) : State :=
  { s with intpend := s.intpend ||| (1#4 <<< k), hostOut := s.hostOut ++ [.msix k] }

/-- A record appended to the error ring (16 R371): lost where the ring is full. -/
def State.errRecord (s : State) (kind : Nat) (drop : Bool) (code : Nat) (cx : Ctx) (addr d0 d1 : Nat) : State :=
  let cap := 2 ^ s.errsize
  let used := (s.errhead + 2 ^ 32 - s.errtail) % 2 ^ 32
  if used = cap then { s with errlost := min (s.errlost + 1) (2 ^ 32 - 1) }
  else
    let a := s.errbase.toNat + 64 * (s.errhead % cap)
    let s := s.engPut a (recordBytes kind drop code s.errhead cx addr s.dcyc d0 d1)
    let s := { s with errhead := (s.errhead + 1) % 2 ^ 32, drops := s.drops + b01 drop }
    if used = 0 then s.interrupt 1 else s

/-- Tasks changed that a test picks by core and task, the resident ones and those of saved launches: none of them has ended. -/
def State.mapTasks (s : State) (p : Nat → Task → Bool) (f : Task → Task) : State :=
  let at' (n : Nat) (t : Task) : Task := if p n t then f t else t
  { s with cores := s.cores.map (fun e => (e.1, { e.2 with task := e.2.task.map (at' e.1) })),
           runs := s.runs.map (fun r => { r with saved := r.saved.map (fun q => (q.1, q.2.map (fun e => (e.1, at' e.1 e.2)))) }) }

/-- The ERROR_CLASS trap that a record of class `k` asks of some tasks (16 R374); `seq` is its SEQ. -/
def State.classTrap (s : State) (k seq : Nat) (p : Nat → Task → Bool) : State :=
  if bitAt s.errtrap k then s.mapTasks p (fun t => { t with errTraps := t.errTraps ++ [(k, seq)] }) else s

/-- A record of a class, with the trap it asks of some tasks (16 R374). -/
def State.errClass (s : State) (kind : Nat) (drop : Bool) (code : Nat) (cx : Ctx) (addr d0 d1 : Nat) (cls : Nat)
    (p : Nat → Task → Bool) : State :=
  (s.errRecord kind drop code cx addr d0 d1).classTrap cls s.errhead p

/-- Whether a task is the one that a record's coordinates name (16 R374). -/
def State.named (s : State) (cx : Ctx) (n : Nat) (t : Task) : Bool :=
  cx.task && cx.peer == s.peerid && n == cx.core && t.wid == cx.wid && ((s.run? t.run).map Run.slate).getD 0 == cx.launch

/-- Whether the responsible task of a record is on its core. -/
def State.runsTask (s : State) (cx : Ctx) : Bool := (s.core cx.core).task.any (s.named cx cx.core)

/-- A record of a class about one task, which traps where it has not ended (16 R374). -/
def State.errTask (s : State) (kind : Nat) (drop : Bool) (code : Nat) (cx : Ctx) (addr d0 d1 : Nat) (cls : Nat) : State :=
  s.errClass kind drop code cx addr d0 d1 cls (s.named cx)

/-- Records of kind UNCORR (09 R225, 16 R374): the class is 0 MEM for the task's own access, 1 ENGINE for copy and
continuity reads; only the task that `cx` names can trap. -/
def State.uncorr (s : State) (code : Nat) (cx : Ctx) (va lpa d1 : Nat) : State :=
  if code ≤ 1 then s.errTask 0x01 true code cx va lpa d1 code else s.errRecord 0x01 true code cx va lpa d1

/-- SV_DISCARD (16 R374, R428): a discarded register write. -/
def State.svDiscard (s : State) (w : Writer) (n v : Nat) : State :=
  match w with
  | .core k => s.errRecord 0x10 false 0 (s.ctxOf k) 0 n v
  | .welwick _ => s.errRecord 0x10 false 1 s.noCtx 0 n v
  | .host => s.errRecord 0x10 false 2 s.noCtx 0 n v

/-! ### Messages to devices -/

/-- The routing-table entry of a peer (19 R417). -/
def State.routeWord (s : State) (peer : Nat) : Nat := s.memRd (s.frtbase.toNat / 4096 * 4096 + 8 * peer) 8

/-- The entry is valid, with no reserved bit set, in a valid table, and names another partition (19 R417). -/
def State.routed (s : State) (peer : Nat) : Bool :=
  let e := s.routeWord peer
  bitAt s.frtbase.toNat 0 && bitAt e 0 && fld e 48 16 == 0 && !bitAt e 7 && peer != s.peerid

/-- A peer that is another partition of the same module, to which packets use no port (19 R417). -/
def State.nearPeer (s : State) (peer : Nat) : Bool := s.routed peer && bitAt (s.routeWord peer) 1

/-- The ports that lead to a peer, ascending: those its entry allows and that are up and owned (19 R417). -/
def State.usablePorts (s : State) (peer : Nat) : List Nat :=
  if s.routed peer && !s.nearPeer peer then
    (upFrom 0 40).filter (fun p => bitAt (s.routeWord peer / 2 ^ 8) p && (tget Port.down p s.ports).up && Config.ownPort p)
  else []

/-- Whether a target peer can be reached (19 R417). -/
def State.reachable (s : State) (peer : Nat) : Bool := s.nearPeer peer || !(s.usablePorts peer).isEmpty

/-- The port a packet of core `c` takes to a peer (19 R417): the j-th usable one, j being c modulo their count. -/
def State.portTo (s : State) (c peer : Nat) : Option Nat :=
  let ps := s.usablePorts peer
  ps[c % max 1 ps.length]?

/-- How a packet of core `c` to a peer leaves (19 R417): by its port, or to the partition that the peer's entry names by LPART. -/
def State.wayTo (s : State) (c peer : Nat) : Option Way :=
  if s.nearPeer peer then some (.part (fld (s.routeWord peer) 2 5)) else (s.portTo c peer).map Way.port

/-- The port number of a LINK_DROP record (16 R428): 0xFFFF where the packet has none. -/
def State.portFor (s : State) (c peer : Nat) : Nat := (s.portTo c peer).getD 0xFFFF

/-- A message of core `c` to peer `p`: to this partition itself it arrives among the messages in flight, else it leaves by its port;
to a target that cannot be reached nothing leaves (19 R417). -/
def State.emitFrom (s : State) (c p : Nat) (m : Instr) : State :=
  if p = s.peerid then { s with agenda := s.agenda ++ [m] }
  else if s.reachable p then
    { s with outbox := s.outbox ++ [{ peer := p, way := s.wayTo c p, num := none, low := 0, msg := m }] }
  else s

/-- A message that no core sends, such as an acknowledgement. -/
def State.emit (s : State) (p : Nat) (m : Instr) : State := s.emitFrom 0 p m

/-- The lowest number of a control message to a peer that is neither acknowledged nor lost (19 R429). -/
def State.lowOf (s : State) (p : Nat) : Nat :=
  ((s.ctl.filter (fun m => m.peer == p)).map CtlMsg.num).foldl min (tget 0 p s.ctlSent)

/-- A copy of a control message sent by a port, or over the mesh to a partition of the same module (19 R429). -/
def State.sendCopy (s : State) (m : CtlMsg) (port : Option Nat) : State :=
  { s with outbox := s.outbox ++ [{ peer := m.peer, way := (port.map Way.port).or (s.wayTo 0 m.peer), num := some m.num,
                                     low := s.lowOf m.peer, msg := m.msg }] }

/-- A class-1 control message, which to another device carries the next number for its target and stands until it is
acknowledged (19 R429). With no way to the target nothing leaves yet: the next try finds the message lost. -/
def State.post (s : State) (p : Nat) (m : Instr) : State :=
  if p = s.peerid then { s with agenda := s.agenda ++ [m] }
  else
    let c : CtlMsg := { id := s.nextId, peer := p, num := tget 0 p s.ctlSent, msg := m, tried := (s.usablePorts p).take 1 }
    let t := { s.fresh.2 with ctl := s.ctl ++ [c], ctlSent := tput 0 p (c.num + 1) s.ctlSent }
    if s.reachable p then t.sendCopy c c.tried.head? else t

/-- How messages name a launch: its storyboard, which submission of it, and its index (02 R58). -/
def State.launchName (s : State) (r : Run) : AbortMsg :=
  match s.stories.find? (fun y => y.id == r.sb) with
  | some y => { sb := y.va, nth := y.nth, idx := r.idx }
  | none => { sb := 0, nth := 0, idx := r.idx }

/-- A local abort of a launch (02 R430): a domain of one device aborts at once on the arrival of the message it sends to
itself, a larger one through device 0 of the domain, whose peer number `p` is. -/
def State.reportAbort (s : State) (p : Nat) (r : Run) : State :=
  if r.d ≤ 1 then { s with agenda := s.agenda ++ [.abort (s.launchName r)] } else s.post p (.abortReport (s.launchName r))

/-- The cut-group entry that carries a group number, if valid (19 R416): its member count and list address. -/
def State.groupEntry (s : State) (grp : Nat) : Option (Nat × Nat) :=
  ((upFrom 0 s.cgtn).map (fun g => (s.memRd (s.cgtbase.toNat + 16 * g) 8, s.memRd (s.cgtbase.toNat + 16 * g + 8) 8))).find?
    (fun e => fld e.1 0 16 == grp && bitAt e.1 16 && fld e.1 17 15 == 0 && fld e.1 45 19 == 0 && fld e.2 45 19 == 0 &&
      e.2 % 8 == 0) |>.map (fun e => (fld e.1 32 13, e.2))

/-- Word `i` of the member list of a cut group: the peer number of domain index `i` (19 R416); a free value where no valid entry
carries the number, such as the numbers from 2^16 that name the domain of a submission (notes/assumptions/43). -/
def State.memberPeer (s : State) (grp i : Nat) : Nat :=
  match s.groupEntry grp with
  | some (_, a) => fld (s.memRd (a + 2 * i) 2) 0 12
  | none => Config.domainPeer grp i % 2 ^ 12

/-- Peer number of the device of index `i` of a domain in which this device has index `idx`. -/
def State.domainPeer (s : State) (grp idx i : Nat) : Nat := if i = idx then s.peerid else s.memberPeer grp i

/-- Peer number of device 0 of a launch's domain; a domain of one device is this device. -/
def State.rootPeer (s : State) (r : Run) : Nat := if r.d ≤ 1 then s.peerid else s.domainPeer r.dgrp r.dIdx 0

/-- The launch of the task on core `n` aborted (16 R364). -/
def State.abortTaskRun (s : State) (n : Nat) : State :=
  match s.runOf n with
  | some r => s.reportAbort (s.rootPeer r) r
  | none => s

/-! ### Traps (16 R362 to R364) -/

/-- What survives a withdrawn wait (16 R362): an arrival or an effect already made. -/
def Stage.stands : Stage → Bool
  | .cutArrived _ => true
  | .xbarArrived => true
  | .tlbSent _ => true
  | .answered .. => true
  | _ => false

/-- A stage that stays with a stream whatever happens to its wait: an arrival at the wired barrier (16 R362). -/
def Stage.ofGang : Stage → Bool
  | .gangArrived => true
  | .gangTrap .. => true
  | _ => false

/-- A stream's wait withdrawn at a trap: its count starts afresh, and what stands is put aside with the slot it belongs to,
which R363 compares with TPCA; an arrival at the wired barrier stays with the stream. -/
def Stream.withdraw (t : Stream) : Stream :=
  { t with waitFrom := none,
           guarded := if t.stage.ofGang then t.guarded else none,
           stage := if t.stage.ofGang then t.stage else .start,
           aside := some (t.pc, if t.stage.stands then t.stage else .start) }

/-- A synchronising access withdrawn (07 R186): one that holds a place in its die's write chain leaves the place behind, with nothing
to write. -/
def Req.withdrawn (r : Req) : Option Req := if r.seq = 0 then none else some { r with kind := .store [], pend := none }

/-- The request of a synchronising access that a stream waits for, taken back from its home (07 R186). -/
def State.dropRequest (s : State) (t : Stream) : State :=
  match t.stage with
  | .request id =>
    { s with reqs := s.reqs.filterMap (fun r => if r.id = id then r.withdrawn else some r) }
  | _ => s

/-- The A-stream's predicates p1 to p15 as bits [15:1] (16 R360). -/
def Core.predWord (c : Core) : Nat := mkBits (fun i => decide (1 ≤ i) && tget false i c.pa) 0 16

/-- TCAUSE (16 R360). -/
def causeWord (cause : Nat) (x : Bool) (code mask : Nat) : Nat :=
  cause + 2 ^ 8 * b01 x + 2 ^ 16 * (code % 2 ^ 16) + 2 ^ 32 * (mask % 2 ^ 8)

/-- A stream stopped for good (16 R364): its wait is over, but an arrival at the wired barrier stays. -/
def Stream.stop (t : Stream) : Stream :=
  { t with run := false, waitFrom := none, stage := if t.stage.ofGang then t.stage else .start }

/-- A double trap or an SVABORT write (16 R364): both streams stop, what they wait for is withdrawn, a DOUBLE_TRAP record is written,
the launch aborts. -/
def State.doubleTrap (s : State) (n code d0 : Nat) : State :=
  let c := s.core n
  let s := ((s.dropRequest c.a).dropRequest c.x).setCore n { c with a := c.a.stop, x := c.x.stop }
  let s := s.errRecord 0x11 false code (s.ctxOf n) (c.svGet 2).toNat d0 (c.svGet 4).toNat
  s.abortTaskRun n

/-- A stream that has taken its single step halts again (17 R391). -/
def Stream.stepped (t : Stream) : Stream := { t with halted := t.halted || t.stepping, stepping := false }

/-- A trap of the current stream on a compute core at level T (16 R362): TPCA, TPCX, TCAUSE, TINFO and TPRED are written,
the level becomes S, the A-stream goes on at TVEC three cycles later, the X-stream stands. -/
def Core.enterTrap (c : Core) (x : Bool) (cause code mask info : Nat) : Core :=
  let xrun := c.x.run
  let c := ((((c.svPut 2 (BitVec.ofNat 64 c.a.pc)).svPut 3 (BitVec.ofNat 64 (c.x.pc + 2 ^ 12 * b01 xrun))).svPut 4
    (BitVec.ofNat 64 (causeWord cause x code mask))).svPut 5 (BitVec.ofNat 64 info)).svPut 8 (BitVec.ofNat 64 c.predWord)
  let held := fun (t : Task) => { t with watch := none, ending := false, safe := none,
                                         watchHeld := (t.watch.map (fun w => c.cyc - w)).or t.watchHeld }
  let a := if x then c.a else c.a.stepped
  { c with level := .s, task := c.task.map held,
           a := { a.withdraw with pc := ((c.svGet 1).toNat) % 4096, ready := c.cyc + 3 },
           x := (if x then c.x.stepped else c.x).withdraw }

/-- A trap on a Welwick core (19 R421): the PC goes to WTPC, the core goes on at WVEC at level H. -/
def Core.enterHubTrap (c : Core) (cause code mask info : Nat) : Core :=
  let c := (((c.svPut 0x21 (BitVec.ofNat 64 (16 * c.a.pc))).svPut 4 (BitVec.ofNat 64 (causeWord cause false code mask))).svPut 5
    (BitVec.ofNat 64 info)).svPut 8 (BitVec.ofNat 64 c.predWord)
  { c with level := .h, a := { c.a.withdraw with pc := (c.svGet 0x20).toNat / 16, ready := c.cyc + 3 },
           x := { c.x with waitFrom := none } }

/-- A trap taken on core `n` for stream `x` (16 R362, R364, 19 R421). -/
def State.trapOn (s : State) (n : Nat) (x : Bool) (cause code mask info : Nat) : State :=
  let c := s.core n
  if isHub n then
    let s := s.dropRequest c.a
    s.setCore n (c.enterHubTrap cause code mask info)
  else if c.level = .s then s.doubleTrap n cause 0
  else
    let s := (s.dropRequest c.a).dropRequest c.x
    s.setCore n (c.enterTrap x cause code mask info)

/-- The current instruction traps: it has no other effect (16 R362). -/
def trap (cause code mask info : Nat) (s : State) : Out :=
  .next (s.trapOn s.cur.core s.cur.x cause code mask info)

/-! ### Retiring, transferring, waiting -/

/-- Slots of the stream's store: 4,096, or 2^53 on a Welwick core (06 R147, 19 R421). -/
def State.wrap (s : State) : Nat := if isHub s.cur.core then 2 ^ 53 else 4096

/-- The back-edge test of 06 R150 for the slot `pc` whose instruction completed: the loop stack after it and the slot it
sends control to, none where control falls through. -/
def backEdge (pc floor : Nat) : List LoopRec → List LoopRec × Option Nat
  | [] => ([], none)
  | r :: rs =>
    if rs.length < floor ∨ r.last ≠ pc then (r :: rs, none)
    else if 1 < r.rem then ({ r with rem := r.rem - 1 } :: rs, some r.start)
    else backEdge pc floor rs

/-- The out-of-range test of 06 R150 for a transfer to slot `t`. -/
def dropLoops (t floor : Nat) : List LoopRec → List LoopRec
  | [] => []
  | r :: rs => if rs.length < floor ∨ (r.start ≤ t ∧ t ≤ r.last) then r :: rs else dropLoops t floor rs

/-- The stream about to leave its instruction in cycle `t`: no wait and no stage remains. -/
def Stream.left (st : Stream) (t pc : Nat) : Stream :=
  { st with pc := pc, ready := t, waitFrom := none, stage := .start, guarded := none,
            halted := st.halted || st.stepping, stepping := false }

/-- A stream that completes its instruction at slot PC without transferring control, with stall count `n` (05 R114, 06 R147,
R150). The back-edge test is suspended at level S (16 R362). -/
def Stream.advance (st : Stream) (wrap t n : Nat) (sup : Bool) : Stream :=
  let (ls, dest) := if sup then (st.loops, none) else backEdge st.pc st.floor st.loops
  { st with loops := ls }.left (t + 1 + n) (dest.getD ((st.pc + 1) % wrap))

/-- The safe-point watchdog of a task with a halted stream stops; a wait at SAFEPT is withdrawn, and one of a halted A-stream at TEND
(17 R391). -/
def Core.stopWatch (c : Core) : Core :=
  { c with task := c.task.map (fun t => { t with watch := none, safe := none, ending := t.ending && !c.a.halted,
                                                 watchHeld := (t.watch.map (fun w => c.cyc - w)).or t.watchHeld }) }

/-- The watchdog of a core's task, which stands while a stream is halted or the core is at level S (17 R391, 16 R362). -/
def Core.holdWatch (c : Core) : Core :=
  if c.a.halted || c.x.halted then c.stopWatch
  else if c.level = .t then
    { c with task := c.task.map (fun t => { t with watch := t.watch.or (t.watchHeld.map (fun h => c.cyc - h)), watchHeld := none }) }
  else c

/-- A core after one of its streams has issued: an A-stream issue can no longer fall in the cycle of an X-stream issue. -/
def Core.issued (c : Core) (x : Bool) : Core := if x then { c with aFrom := c.cyc + 1 } else c

/-- The current instruction completes without transferring control (05 R114, 06 R147, R150). -/
def retire (h : Hdr) (s : State) : Out :=
  let st := s.st.advance s.wrap s.now h.stall.toNat (s.me.level == .s)
  .next (s.setMe ((s.me.setStream s.cur.x st).issued s.cur.x))

/-- The current instruction transfers control to slot `dest` (05 R114): the target issues no earlier than cycle t + 3 + n. -/
def transfer (h : Hdr) (dest : Nat) (s : State) : Out :=
  let st := s.st.left (s.now + 3 + h.stall.toNat) dest
  .next (s.setMe ((s.me.setStream s.cur.x st).issued s.cur.x))

/-- The current instruction does not issue in this cycle: it is tried again in the next one (05 R106, R109, R113). -/
def stall (s : State) : Out :=
  let st := s.st
  .next (s.setSt { st with ready := s.now + 1, waitFrom := some (st.waitFrom.getD s.now) })

/-- The same, having reached a stage that stands between the tries; the count of a wait begins with its stage. -/
def stallAt (g : Stage) (s : State) : Out :=
  stall (s.setSt { s.st with stage := g, waitFrom := if s.st.stage = g then s.st.waitFrom else none })

/-- The same, while the count that began at issue goes on (07 R186). -/
def stallOn (g : Stage) (s : State) : Out := stall (s.setSt { s.st with stage := g })

/-! ### Issue (05 R131) -/

/-- What an instruction asks before it executes (05 R131 step 6): registers read and written, port codes popped and pushed,
and the LM ranges it accesses, with their lengths and whether it writes them (09 R236). -/
structure Needs where
  reads  : List Reg
  writes : List Reg
  pops   : List Nat
  push   : List Nat
  lm     : List (Nat × Nat × Bool)
  deriving DecidableEq, Repr

/-- The needs of reading and of writing registers. -/
def needs (reads writes : List Reg) : Needs := { reads := reads, writes := writes, pops := [], push := [], lm := [] }

/-- Two sets of needs together. -/
def Needs.and (a b : Needs) : Needs :=
  { reads := a.reads ++ b.reads, writes := a.writes ++ b.writes, pops := a.pops ++ b.pops, push := a.push ++ b.push,
    lm := a.lm ++ b.lm }

/-- Tiles that an instruction in the matrix queue reads and writes on the core that brought arrival forms (11 R288, R293). -/
def gangTiles : Instr → List Nat × List Nat
  | .wld _ w m sp => (if sp then [w.toNat, m.toNat] else [w.toNat], [])
  | .gmmaF _ f => ([f.ta.toNat], [])
  | .gmmaB _ f => (if f.msk then [f.ta.toNat, f.tm.toNat] else [f.ta.toNat], [])
  | .gmmaO _ f => (if f.msk then [f.ta.toNat, f.tb.toNat, f.tm.toNat] else [f.ta.toNat, f.tb.toNat], [])
  | .drain _ f => ([], [f.td.toNat])
  | .accld _ f => ([f.td.toNat], [])
  | .accst _ f => ([], [f.td.toNat])
  | .csig _ t _ => ([t.toNat], [])
  | .cstore _ t _ _ => ([t.toNat], [])
  | _ => ([], [])

/-- The instructions that core `n` has in its gang's matrix queue. -/
def State.queued (s : State) (n : Nat) : List Instr :=
  (s.gang (gangOf n)).queue.filterMap (fun o => (o.arr[n % 8]?).map Arrival.instr)

/-- A tile of core `n` held by a queued gang instruction that reads or writes it (11 R288). -/
def State.tileHeld (s : State) (n t : Nat) (write : Bool) : Bool :=
  (s.queued n).any (fun i => (gangTiles i).2.contains t || (write && (gangTiles i).1.contains t))

/-- A register that cannot be read yet: absent, pending, or a tile held by a writer (05 R106, R109, 11 R288). -/
def State.readBlocked (s : State) (r : Reg) : Bool :=
  s.me.absent r || s.me.pendingReg s.cur.x r || (match r with
    | .t i => s.tileHeld s.cur.core i false
    | _ => false)

/-- A register that cannot be written yet (05 R109, 11 R288). -/
def State.writeBlocked (s : State) (r : Reg) : Bool :=
  s.me.pendingReg s.cur.x r || (match r with
    | .t i => s.tileHeld s.cur.core i true
    | _ => false)

/-- Whether every need can be met now (05 R113). -/
def State.met (s : State) (n : Needs) : Bool :=
  !n.reads.any s.readBlocked && !n.writes.any s.writeBlocked &&
  n.pops.all (fun k => decide (n.pops.count k ≤ s.me.poppable k s.now)) &&
  n.push.all (fun k => s.me.room k s.now) && !n.lm.any (fun m => s.me.lmBlocked m.1 m.2.1 m.2.2)

/-- Descriptor class and index of a register for TINFO of STALL_SHORT (16 R367). -/
def regInfo : Reg → Nat
  | .g i => 8 * i
  | .v i => 1 + 8 * i
  | .pa i => 2 + 8 * i
  | .px i => 2 + 8 * i
  | .s i => 3 + 8 * i
  | .t i => 3 + 8 * i
  | .key _ => 0

/-- The first of the registers whose last fixed-latency result has not landed, while CCTL.CHK is set (05 R116). -/
def State.tooEarly (s : State) (rs : List Reg) : Option Reg :=
  if bitAt (s.me.svGet 0).toNat 0 then rs.find? (fun r => s.me.inFlight s.cur.x r s.now) else none

/-- Step 6 of 05 R131: wait for the needs, then check for early reads, then execute. A wait on a pop of an empty AQ or BQA is told
apart, for a safe point looks at it (06 R162). -/
def withNeeds (n : Needs) (s : State) (k : State → Out) : Out :=
  if !s.met n then
    (match n.pops.find? (fun k => decide (k = 0 ∨ k = 2) && (s.me.fifo k).entries.isEmpty) with
     | some k => stallAt (.popWait k) s
     | none => if n.reads.any s.me.absent && s.st.stage == .start then stallAt .waited s else stall s)
  else
    match s.tooEarly n.reads with
    | some r => trap 0x04 0 0 (regInfo r) s
    | none => k s

/-- The guard predicate of a header in the current stream. -/
def State.guardReg (s : State) (h : Hdr) : Reg := if s.cur.x then .px h.gpred.toNat else .pa h.gpred.toNat

/-- The guard as one truth value (05 R105, R132). -/
def State.guard (s : State) (h : Hdr) : Bool := (bitAt (s.me.reg (s.guardReg h)) 0) != h.gneg

/-- The guard of a vector instruction as it stands: a bit for each byte (05 R132). -/
def State.laneNow (s : State) (h : Hdr) : Nat :=
  let p := s.me.reg (s.guardReg h)
  if h.gneg then Nat.xor allOnes p else p

/-- The guard of a vector instruction as step 5 of 05 R131 read it: a bit for each byte. -/
def State.laneMask (s : State) (h : Hdr) : Nat := s.st.guarded.getD (s.laneNow h)

/-- A result of the current stream is pending or has not landed, or a tile it writes is held (05 R115). -/
def State.busy (s : State) : Bool :=
  s.me.pends.any (fun p => p.x == s.cur.x) || s.st.landings.any (fun l => decide (s.now ≤ l.lands)) ||
  (s.cur.x && (s.queued s.cur.core).any (fun i => !(gangTiles i).2.isEmpty))

/-- Instructions that a Welwick core does not execute (19 R421); QPOST, which reads its entry from LM, is taken with them. -/
def hubRefuses : Instr → Bool
  | .xgo .. | .ll .. | .ls .. | .cpy .. | .nmc .. | .xsend .. | .xsendLm .. | .xbar .. | .barinit ..
  | .barinitDom .. | .bararr .. | .barwait .. | .safept .. | .cuta .. | .cutw .. | .cutst .. | .wloc .. | .launch ..
  | .qpost .. => true
  | _ => false

/-- A constant or port descriptor, which a Welwick core does not accept (19 R421). -/
def notHub : Desc → Bool
  | .const _ => true
  | .port _ => true
  | _ => false

/-- A constant descriptor. -/
def isConst : Desc → Bool
  | .const _ => true
  | _ => false

/-- Whether a source of a vector instruction is a constant slot (10 R250). -/
def vNamesConst (f : VForm) : Bool :=
  (match f.sa with
    | .const _ => true
    | _ => false) || f.sb.any isConst

/-- Instructions that read LM when they execute: a constant slot, a load, or a record that stands in LM. -/
def readsLm : Instr → Bool
  | .add _ a b c | .sub _ a b c | .mul _ a b c | .mulhs _ a b c | .mulhz _ a b c | .and _ a b c | .or _ a b c
  | .xor _ a b c | .andn _ a b c | .shl _ a b c | .shr _ a b c | .sar _ a b c | .rot _ a b c | .movk _ a b c
  | .sext _ a b c | .zext _ a b c | .bfx _ a b c | .bfi _ a b c | .mins _ a b c | .maxs _ a b c | .minz _ a b c
  | .maxz _ a b c | .cmpeq _ a b c | .cmpne _ a b c | .cmplts _ a b c | .cmples _ a b c | .cmpltz _ a b c
  | .cmplez _ a b c | .pand _ a b c | .por _ a b c | .pxor _ a b c | .addsat _ a b c | .subsat _ a b c | .divs _ a b c
  | .divz _ a b c | .rems _ a b c | .remz _ a b c | .trypop _ a b c | .trypush _ a b c => isConst a || isConst b || isConst c
  | .mov _ a b | .clz _ a b | .ctz _ a b | .popc _ a b | .pnot _ a b | .send _ a b | .vsend _ a b | .wloc _ a b _ =>
    isConst a || isConst b
  | .brq _ a _ | .brqn _ a _ | .jmp _ a | .loop _ a _ | .calli _ a | .xgo _ a | .clrp _ a | .xsend _ a _ _ | .launch _ a =>
    isConst a
  | .ret .. | .safept .. | .ll .. | .cpy .. | .nmc .. | .barinitDom .. | .xsendLm .. | .qpost .. | .vll .. | .tldl .. => true
  | .pushb _ a b c => isConst a || isConst b || c.any isConst
  | .ls _ m | .ld _ m | .st _ m | .ldc _ m | .ldfe _ m | .stfe _ m | .tryldfe _ m | .trystfe _ m | .atadd _ m
  | .atmin _ m | .atmax _ m | .ator _ m | .atand _ m | .axadd _ m | .axmin _ m | .axmax _ m | .axor _ m | .axand _ m
  | .axchg _ m | .acas _ m | .dst _ m | .rdsum _ m | .vls _ m => isConst m.base
  | .vadd _ f | .vsub _ f | .vmul _ f | .vfma _ f | .vfms _ f | .vmin _ f | .vmax _ f | .vabs _ f | .vneg _ f
  | .viadd _ f | .visub _ f | .vimul _ f | .vimin _ f | .vimax _ f | .viabs _ f | .vineg _ f | .viadds _ f | .visubs _ f
  | .vcmpeq _ f | .vcmpne _ f | .vcmplt _ f | .vcmple _ f | .vcmpun _ f | .vsel _ f | .vand _ f | .vor _ f | .vxor _ f
  | .vandn _ f | .vshl _ f | .vshr _ f | .vsar _ f | .vcvt _ f | .vcvtEf _ f | .vmxdot _ f | .vredsum _ f | .vredmax _ f
  | .vperm _ f | .vbcast _ f | .vbcastElement _ f | .vslide _ f | .vmov _ f | .vmovPredicate _ f | .vrand _ f | .kset _ f
  | .vexp2 _ f | .vlog2 _ f | .vrcp _ f | .vrsqrt _ f | .vsqrt _ f | .prange _ f | .vlen _ f | .vstat _ f
  | .vstatPredicate _ f | .vclrf _ f => vNamesConst f
  | _ => false

/-- The state in which an instruction executes: the LM accesses of one stream are applied in program order, so that its earlier
stores are there before it reads LM (07 R168). -/
def State.ordered (s : State) (i : Instr) : State := if readsLm i then s.setMe (s.me.lmOrder s.cur.x) else s

/-- Whether an instruction names a constant or a port (19 R421). -/
def namesConstOrPort : Instr → Bool
  | .add _ d a b | .sub _ d a b | .mul _ d a b | .mulhs _ d a b | .mulhz _ d a b | .and _ d a b | .or _ d a b
  | .xor _ d a b | .andn _ d a b | .shl _ d a b | .shr _ d a b | .sar _ d a b | .rot _ d a b | .movk _ d a b
  | .sext _ d a b | .zext _ d a b | .bfx _ d a b | .bfi _ d a b | .mins _ d a b | .maxs _ d a b | .minz _ d a b
  | .maxz _ d a b | .cmpeq _ d a b | .cmpne _ d a b | .cmplts _ d a b | .cmples _ d a b | .cmpltz _ d a b
  | .cmplez _ d a b | .pand _ d a b | .por _ d a b | .pxor _ d a b | .addsat _ d a b | .subsat _ d a b | .divs _ d a b
  | .divz _ d a b | .rems _ d a b | .remz _ d a b | .trypop _ d a b | .trypush _ d a b =>
    notHub d || notHub a || notHub b
  | .mov _ d a | .clz _ d a | .ctz _ d a | .popc _ d a | .pnot _ d a | .send _ d a => notHub d || notHub a
  | .pushb .. => true
  | .brq .. => true
  | .brqn .. => true
  | .ld _ m | .st _ m | .ldc _ m | .ldfe _ m | .stfe _ m | .tryldfe _ m | .trystfe _ m | .atadd _ m | .atmin _ m
  | .atmax _ m | .ator _ m | .atand _ m | .axadd _ m | .axmin _ m | .axmax _ m | .axor _ m | .axand _ m | .axchg _ m
  | .acas _ m | .dst _ m | .rdsum _ m => notHub m.base
  | _ => false

/-- A supervisor register number that core `n` has (16 R360, 19 R421). -/
def svHere (n : Nat) : Instr → Bool
  | .mfsv _ _ k => svDevice k.toNat || svLocal k.toNat || (isHub n && svWelwick k.toNat)
  | .mtsv _ _ k => svDevice k.toNat || svLocal k.toNat || (isHub n && svWelwick k.toNat)
  | _ => true

/-- What level S may not execute: TLBINV, and MTSV to a device register other than ERRSW (16 R358). -/
def hostOnly : Instr → Bool
  | .mtsv _ _ k => svDevice k.toNat && k != 0x106
  | .tlbinvPage .. => true
  | .tlbinvSpace .. => true
  | .tlbinvAll .. => true
  | _ => false

/-- Steps 1 to 3 of 05 R131: the cause of the trap that the instruction raises whatever its guard. -/
def State.refusal (s : State) (i : Instr) : Option Nat :=
  let hub := isHub s.cur.core
  if !i.wfFor s.cur.x || (hub && namesConstOrPort i) || !svHere s.cur.core i then some 0x01
  else if !i.runsOn s.cur.x || (hub && hubRefuses i) then some 0x02
  else if (i.privileged && s.me.level == .t) || (hostOnly i && s.me.level == .s) then some 0x03
  else none

/-- An instruction that has passed steps 4 and 5 of 05 R131 and waits: the guard it read stands until it leaves. -/
def keepGuard (g : Nat) (o : Out) : Out :=
  match o with
  | .next t => if t.st.waitFrom.isSome then .next (t.setSt { t.st with guarded := some g }) else .next t
  | o => o

/-- The instruction has passed steps 4 and 5 of 05 R131 at an earlier try, or what it did before a trap stands (16 R362). -/
def State.passed (s : State) : Bool := s.st.guarded.isSome || s.st.stage != .start

/-- What every instruction does at issue, up to its needs (05 R131, R132): `k` is the rest. A vector instruction with a guard
per lane reads its guard and goes on; any other ends where its guard fails. A pending guard is waited for (05 R109);
an instruction that has passed its guard and waits does not read it again. -/
def issue (i : Instr) (s : State) (k : State → Out) : Out :=
  match s.refusal i with
  | some c => trap c 0 0 0 s
  | none =>
    let g := s.laneMask i.hdr
    if s.passed then keepGuard g (k s)
    else if i.hdr.w && s.busy then stall s
    else if i.hdr.gpred != 0 && s.me.pendingReg s.cur.x (s.guardReg i.hdr) then stall s
    else
      match s.tooEarly [s.guardReg i.hdr] with
      | some r => trap 0x04 0 0 (regInfo r) s
      | none => if i.perLane || s.guard i.hdr then keepGuard g (k s) else retire i.hdr s

end Sys2Proof.Machine
end

