-- ==== Sys2Proof/Machine/Operands.lean ====
section
/-! DEFINITION. Operand descriptors: what reading or writing one asks before issue, the value a source gives, and where a
result goes (05 R104, R111 to R113, R118, R122; 06 R139). -/

namespace Sys2Proof.Machine

/-- The register that a descriptor names in a stream (05 R104). -/
def regOf (x : Bool) : Desc → Option Reg
  | .g i => some (.g i.toNat)
  | .s i => some (.s i.toNat)
  | .v i => some (.v i.toNat)
  | .p i => some (if x then .px i.toNat else .pa i.toNat)
  | _ => none

/-- What a scalar source asks (05 R106, R113, R118). -/
def srcNeeds (x : Bool) (d : Desc) : Needs :=
  match d with
  | .const k => { needs [] [] with lm := [(8 * k.toNat, 8, false)] }
  | .port c => { needs [] [] with pops := [c.toNat] }
  | d => needs (regOf x d).toList []

/-- What a scalar destination asks (05 R109, R113). -/
def dstNeeds (x : Bool) (d : Desc) : Needs :=
  match d with
  | .port c => { needs [] [] with push := [c.toNat] }
  | d => needs [] (regOf x d).toList

/-- The value of a scalar source, and the state after the pop that a port source makes (05 R111, R118, R122). A predicate
reads as one truth value, bit 0 (05 R105). -/
def State.take (s : State) (d : Desc) : Word × State :=
  match d with
  | .const k => (s.constSlot k.toNat, s)
  | .imm n => (n.signExtend 64, s)
  | .port c => ((s.me.pop c.toNat).1, s.setMe (s.me.pop c.toNat).2)
  | .p i => (bw (bitAt (s.me.reg (if s.cur.x then .px i.toNat else .pa i.toNat)) 0), s)
  | .g i => (BitVec.ofNat 64 (s.me.reg (.g i.toNat)), s)
  | .s i => (BitVec.ofNat 64 (s.me.reg (.s i.toNat)), s)
  | _ => (0, s)

/-- The mask that writes a whole register. -/
def fullMask : Reg → Nat
  | .v _ => allLanes
  | .px _ => allOnes
  | .t _ => 2 ^ 4096 - 1
  | _ => 1

/-- A result written to a register: pending where its latency varies, else with latency `lat` (05 R107, R109). -/
def State.writeReg (s : State) (r : Reg) (v lat : Nat) (var : Bool) : State :=
  if var then s.pendNew [(r, some v)] else s.writeFixed r (fullMask r) v lat

/-- A scalar result at its destination (05 R105, R111): a port takes it at issue, an X-stream predicate takes a truth value in
every bit. -/
def State.give (s : State) (d : Desc) (v : Word) (lat : Nat) (var : Bool) : State :=
  match d with
  | .port c => s.setMe (s.me.push c.toNat v)
  | .p i =>
    if s.cur.x then s.writeReg (.px i.toNat) (if bitAt v.toNat 0 then allOnes else 0) lat var
    else s.writeReg (.pa i.toNat) (v.toNat % 2) lat var
  | .g i => s.writeReg (.g i.toNat) v.toNat lat var
  | .s i => s.writeReg (.s i.toNat) v.toNat lat var
  | _ => s

/-- Whether the result of the current instruction is of variable latency because a port was popped or an absent register
read (05 R117). -/
def State.varied (s : State) (n : Needs) : Bool := !n.pops.isEmpty || s.st.stage == .waited

/-- A scalar instruction of one source (06 R139). -/
def scalar1 (i : Instr) (d a : Desc) (lat : Nat) (f : Word → Word) (s : State) : Out :=
  issue i s fun s =>
    let n := (dstNeeds s.cur.x d).and (srcNeeds s.cur.x a)
    withNeeds n s fun s =>
      retire i.hdr ((s.take a).2.give d (f (s.take a).1) lat (s.varied n))

/-- A scalar instruction of two sources (06 R139): SA is popped before SB (05 R113); `var` marks the variable-latency
classes. -/
def scalar2 (i : Instr) (d a b : Desc) (lat : Nat) (var : Bool) (f : Word → Word → Word) (s : State) : Out :=
  issue i s fun s =>
    let n := ((dstNeeds s.cur.x d).and (srcNeeds s.cur.x a)).and (srcNeeds s.cur.x b)
    withNeeds n s fun s =>
      let ra := s.take a
      let rb := ra.2.take b
      retire i.hdr (rb.2.give d (f ra.1 rb.1) lat (var || s.varied n))

/-- A scalar instruction that also reads its destination (06 R141): `f` takes the old value, SA and SB. -/
def scalarUpd (i : Instr) (d a b : Desc) (f : Word → Word → Word → Word) (s : State) : Out :=
  issue i s fun s =>
    let n := (((dstNeeds s.cur.x d).and (srcNeeds s.cur.x d)).and (srcNeeds s.cur.x a)).and (srcNeeds s.cur.x b)
    withNeeds n s fun s =>
      let ro := s.take d
      let ra := s.take a
      let rb := ra.2.take b
      retire i.hdr (rb.2.give d (f ro.1 ra.1 rb.1) 1 (s.varied n))

end Sys2Proof.Machine
end

