-- ==== Sys2Proof/Machine/Xlat.lean ====
section
/-! DEFINITION. Address translation: the vector clocks that hold a home's answer, the walk, the translation stores, the
checks of a leaf, accessed and dirty bits, and the fault log (07 R171 to R175; 18_address_translation.md). -/

namespace Sys2Proof.Machine

/-! ### Vectors and horizons (07 R171 to R175) -/

/-- The entry-wise maximum of two vectors. -/
def vmax (a b : Table Nat) : Table Nat := b.foldl (fun m e => tput 0 e.1 (max (tget 0 e.1 m) e.2) m) a

/-- Entries 64 i to 64 i + 63 of a table as a table of their own. -/
def sliceOf (i : Nat) (t : Table Nat) : Table Nat :=
  t.filterMap (fun e => if e.1 / 64 = i then some (e.1 % 64, e.2) else none)

/-- The vector V_d of a die (07 R171). -/
def State.vecOf (s : State) (d : Nat) : Table Nat := sliceOf d s.vec

/-- V_d raised entry by entry (07 R174). -/
def State.mergeVec (s : State) (d : Nat) (v : Table Nat) : State :=
  { s with vec := v.foldl (fun m e => tput 0 (64 * d + e.1) (max (tget 0 (64 * d + e.1) m) e.2) m) s.vec }

/-- The home of a local physical address (07 R164, 19 R414). -/
def homeOf (a : Nat) : Nat := a / Config.stackBytes

/-- The horizons H_k of a home (07 R172). -/
def State.horOf (s : State) (k : Nat) : Table Nat := sliceOf k s.hor

/-- Whether home `k` covers a carried vector (07 R173, R175). -/
def State.covers (s : State) (k : Nat) (v : Table Nat) : Bool :=
  v.all (fun e => decide (e.2 ≤ tget 0 (64 * k + e.1) s.hor))

/-! ### Entries (18 R396 to R398) -/

/-- Leaf fields (18 R397). -/
def leafR (e : Word) : Bool := bitAt e.toNat 2
def leafW (e : Word) : Bool := bitAt e.toNat 3
def leafU (e : Word) : Bool := bitAt e.toNat 4
def leafA (e : Word) : Bool := bitAt e.toNat 5
def leafD (e : Word) : Bool := bitAt e.toNat 6
def leafCl (e : Word) : Nat := fld e.toNat 7 2
def leafWp (e : Word) : Nat := fld e.toNat 9 2
def leafPub (e : Word) : Bool := bitAt e.toNat 59
def leafRop (e : Word) : Bool := bitAt e.toNat 60
def leafFe (e : Word) : Bool := bitAt e.toNat 61
def leafCont (e : Word) : Bool := bitAt e.toNat 62

/-- Physical address [56:12] of a leaf, and the next table of a table entry (18 R396, R397). -/
def leafPa (e : Word) : Nat := fld e.toNat 12 45 * 4096
def entryNext (e : Word) : Nat := fld e.toNat 12 33 * 4096

/-- The leaf's 45-bit address within its device and its peer number. -/
def paPeer (pa : Nat) : Nat := pa / 2 ^ 45 % 4096
def paLocal (pa : Nat) : Nat := pa % 2 ^ 45

/-- What an entry is at its level (18 R396 to R398). -/
inductive EntryKind where
  | invalid
  | reserved
  | table
  | leaf
  deriving DecidableEq, Repr

/-- check_entry of 18 R395. -/
def State.entryKind (s : State) (e : Word) (level : Nat) : EntryKind :=
  let n := e.toNat
  if !bitAt n 0 then .invalid
  else if !bitAt n 1 then
    if level = 4 ∨ fld n 2 10 ≠ 0 ∨ fld n 45 19 ≠ 0 then .reserved else .table
  else if level ≤ 1 ∨ bitAt n 63 ∨ leafCl e = 3 ∨ leafWp e = 3 ∨ (level = 3 ∧ fld n 12 9 ≠ 0) ∨
      (level = 2 ∧ (fld n 12 18 ≠ 0 ∨ leafCont e)) ∨ (leafFe e ∧ bitAt n 11) ∨
      (paPeer (leafPa e) = s.peerid ∧ !s.assigned (paLocal (leafPa e))) then .reserved
  else .leaf

/-- log2 of the page that a leaf at a level maps (18 R395). -/
def pageLog (level : Nat) : Nat := if level = 4 then 12 else if level = 3 then 21 else 30

/-- The level whose leaf a translation entry came from. -/
def levelOfLog (log : Nat) : Nat := if log ≤ 16 then 4 else if log ≤ 25 then 3 else 2

/-! ### The walk (18 R395, R402 to R405) -/

/-- Who asks for a translation: its die and cluster, space, whether it counts as level T, the core for the fault log and the
coordinates for error records. -/
structure Asker where
  die     : Nat
  cluster : Option Nat
  space   : Nat
  user    : Bool
  core    : Nat
  eng     : Bool
  ctx     : Ctx
  deriving DecidableEq, Repr

/-- How a walk ends. -/
inductive Walked where
  | leaf (e : Word) (level pos : Nat) (path : List (Nat × Word))
  | fault (kind level pos : Nat) (e : Word)
  | wait
  deriving DecidableEq, Repr

/-- An entry read at its home (18 R405): none while the home does not cover the die's vector; zero with an UNCORR record where
the word is uncorrectable. -/
def State.readEntry (s : State) (q : Asker) (va a : Nat) : Option Word × State :=
  let s := s.touch a
  if !s.covers (homeOf a) (s.vecOf q.die) then (none, s)
  else if tget false (a / 8) s.bad then (some 0, s.uncorr 2 q.ctx va a 0)
  else (some (BitVec.ofNat 64 (s.memRd a 8)), s)

/-- The table levels of a walk from `level` on (18 R395). -/
def walkFrom (q : Asker) (va : Nat) : Nat → Nat → Nat → List (Nat × Word) → State → Walked × State
  | 0, level, table, _, s => (.fault 2 level table 0, s)
  | f + 1, level, table, path, s =>
    let a := table + 8 * fld va (48 - 9 * level) 9
    match s.readEntry q va a with
    | (none, s) => (.wait, s)
    | (some e, s) =>
      match s.entryKind e level with
      | .invalid => (.fault 0 level a e, s)
      | .reserved => (.fault 2 level a e, s)
      | .leaf => (.leaf e level a path, s)
      | .table => walkFrom q va f (level + 1) (entryNext e) (path ++ [(level, e)]) s

/-- The address bits that tag a walk-cache entry: those of its level's index and above; none for a space-table entry. -/
def walkTag (level va : Nat) : Nat := if level = 15 then 0 else va / 2 ^ (48 - 9 * level)

/-- Levels of the walk cache, deepest first. -/
def walkLevels : List Nat := [3, 2, 1, 0, 15]

/-- The deepest entry that the die's walk cache still holds (18 R404): whether one is still held is a free value. -/
def cachedWalk (q : Asker) (va : Nat) (s : State) : List Nat → Option (Nat × Word) × State
  | [] => (none, s)
  | l :: ls =>
    match s.walks.find? (fun w => w.die == q.die && w.space == q.space && w.level == l && w.prefixVa == walkTag l va) with
    | some w =>
      let (k, s) := s.draw
      if Config.keeps k then (some (l, w.entry), s) else cachedWalk q va s ls
    | none => cachedWalk q va s ls

/-- A space-table entry with a reserved bit set (18 R394). -/
def spaceReserved (e : Nat) : Bool := fld e 1 11 != 0 || fld e 45 19 != 0

/-- The walk of 18 R395, from the deepest cached entry. -/
def State.walk (s : State) (q : Asker) (va : Nat) : Walked × State :=
  match cachedWalk q va s walkLevels with
  | (some (15, e), s) => walkFrom q va 5 0 (entryNext e) [] s
  | (some (l, e), s) => walkFrom q va (4 - l) (l + 1) (entryNext e) [] s
  | (none, s) =>
    if s.sptlim ≤ q.space then (.fault 0 0xF 0 0, s)
    else
      let a := s.sptbase.toNat + 8 * q.space
      match s.readEntry q va a with
      | (none, s) => (.wait, s)
      | (some e, s) =>
        if !bitAt e.toNat 0 then (.fault 0 0xF a e, s)
        else if spaceReserved e.toNat then (.fault 2 0xF a e, s)
        else walkFrom q va 5 0 (entryNext e) [(15, e)] s

/-- A bit set in a number of table entries at their home (18 R402). -/
def State.orEntries (s : State) (pos bit : Nat) : Nat → State
  | 0 => s
  | n + 1 =>
    let e := s.memRd pos 8
    (if bitAt e bit then s else s.memPut pos (leBytes (e + 2 ^ bit) 8)).orEntries (pos + 8) bit n

/-- The entries of a contiguous group, from its first (18 R403): one that is uncorrectable reads as zero. -/
def State.groupWords (s : State) (pos : Nat) : List Word :=
  (upFrom 0 16).map (fun j => if tget false ((pos + 8 * j) / 8) s.bad then 0 else BitVec.ofNat 64 (s.memRd (pos + 8 * j) 8))

/-- The UNCORR records of such a read (18 R405). It raises no fault: the group then does not merge, and R403 leaves the found leaf
to be installed alone (notes/assumptions/70). -/
def State.groupDamage (s : State) (q : Asker) (va pos : Nat) : State :=
  ((upFrom 0 16).filter (fun j => tget false ((pos + 8 * j) / 8) s.bad)).foldl
    (fun s j => s.uncorr 2 q.ctx va (pos + 8 * j) 0) s

/-- An entry without PA, A and D. -/
def entryKey (e : Word) : Nat := setFld (setFld e.toNat 12 45 0) 5 2 0

/-- Whether the 16 entries of a line make one merged entry (18 R403). -/
def State.mergeable (s : State) (es : List Word) (level : Nat) (e : Word) : Bool :=
  let p0 := leafPa (es.headD 0)
  let size := 2 ^ pageLog level
  es.all (fun x => s.entryKind x level == .leaf && leafCont x && entryKey x == entryKey e) &&
  (upFrom 0 16).all (fun j => leafPa (es.getD j 0) == p0 + j * size) && p0 % (16 * size) == 0

/-- The entry that a completed walk installs (18 R402, R403); its D is that of every entry it stands for. -/
def State.entryFor (s : State) (q : Asker) (va : Nat) (e : Word) (level pos : Nat) : TlbEntry :=
  let line := pos / 128 * 128
  let es := s.groupWords line
  let log := pageLog level
  if leafCont e && s.mergeable es level e then
    { place := 0, space := q.space, vbase := va / 2 ^ (log + 4) * 2 ^ (log + 4), log := log + 4, pbase := leafPa (es.headD 0),
      leaf := e, dirty := es.all leafD, at0 := line, n := 16, words := es }
  else
    { place := 0, space := q.space, vbase := va / 2 ^ log * 2 ^ log, log := log, pbase := leafPa e, leaf := e,
      dirty := leafD e, at0 := pos, n := 1, words := [] }

/-- Where an asker's translations stand: its cluster's micro-TLB, or its die's TLB (18 R404). -/
def Asker.place (q : Asker) : Nat := q.cluster.getD (1024 + q.die)

/-- A store's entries with one more, within its capacity (18 R404). -/
def addTlb (cap : Nat) (t : TlbEntry) (l : List TlbEntry) : List TlbEntry :=
  (t :: l.filter (fun u => u.place == t.place)).take cap ++ l.filter (fun u => u.place != t.place)

/-- A completed walk's leaf and table entries installed, and A set where it was 0 (18 R402, R404, R406). -/
def State.install (s : State) (q : Asker) (va : Nat) (t : TlbEntry) (path : List (Nat × Word)) : State :=
  let tlb := addTlb Config.dieTlb { t with place := 1024 + q.die } s.tlb
  let tlb := match q.cluster with
    | some c => addTlb Config.microTlb { t with place := c } tlb
    | none => tlb
  let news : List WalkEntry := path.reverse.map (fun p =>
    { die := q.die, space := q.space, level := p.1, prefixVa := walkTag p.1 va, entry := p.2 })
  let mine := (news ++ s.walks.filter (fun w => w.die == q.die)).take Config.walkCache
  let s := { s with tlb := tlb, walks := mine ++ s.walks.filter (fun w => w.die != q.die) }
  if leafA t.leaf then s else s.orEntries t.at0 5 t.n

/-- How a translation ends. -/
inductive Xlated where
  | page (t : TlbEntry)
  | fault (kind level pos : Nat) (e : Word)
  | wait
  deriving DecidableEq, Repr

/-- Whether a translation entry maps an address for an asker. -/
def TlbEntry.maps (t : TlbEntry) (q : Asker) (va : Nat) : Bool :=
  (t.place == 1024 + q.die || q.cluster == some t.place) && t.space == q.space && va / 2 ^ t.log * 2 ^ t.log == t.vbase

/-- A completed walk's translation: its page, through the entry it installed, and the state after it (18 R402 to R405). -/
def State.walked (s : State) (q : Asker) (va : Nat) (e : Word) (level pos : Nat) (path : List (Nat × Word)) : Xlated × State :=
  let s := if leafCont e then s.groupDamage q va (pos / 128 * 128) else s
  let t := s.entryFor q va e level pos
  (.page { t with place := q.place }, s.install q va t path)

/-- A translation (18 R395, R404): from a translation store that still holds the page, a free value, or by a walk. -/
def State.translate (s : State) (q : Asker) (va : Nat) : Xlated × State :=
  if 2 ^ 57 ≤ va then (.fault 3 0 0 0, s)
  else
    let (k, s) := s.draw
    match s.tlb.find? (fun t => t.maps q va), Config.keeps k with
    | some t, true => (.page t, s)
    | _, _ =>
      match s.walk q va with
      | (.leaf e level pos path, s) => s.walked q va e level pos path
      | (.fault kind level pos e, s) => (.fault kind level pos e, s)
      | (.wait, s) => (.wait, s)

/-- The physical address of an address in a page (18 R397). -/
def TlbEntry.addr (t : TlbEntry) (va : Nat) : Nat := t.pbase + va % 2 ^ t.log

/-! ### Checks, dirty bits and the fault log (18 R399, R402, R407) -/

/-- What the checks of 18 R399 steps 1 to 4 decide. -/
inductive Checked where
  | ok
  | kind1
  | readOnly
  deriving DecidableEq, Repr

/-- The checks of 18 R399 steps 1 to 4. -/
def checkLeaf (user rd wr : Bool) (e : Word) : Checked :=
  if user && !leafU e then .kind1
  else if rd && !leafR e then .kind1
  else if wr && leafRop e then .readOnly
  else if wr && !leafW e then .kind1
  else .ok

/-- The table entry of the page that holds an address, as it was read: in a merged entry its own (18 R403, R407). -/
def TlbEntry.entryAt (t : TlbEntry) (va : Nat) : Word := t.words.getD (va / 2 ^ (t.log - 4) % 16) t.leaf

/-- A write through an entry whose D is 0 sets D in the leaf or the 16 entries, and in the entry written through (18 R402). -/
def State.markDirty (s : State) (t : TlbEntry) : State :=
  if t.dirty then s
  else
    { s.orEntries t.at0 6 t.n with
      tlb := s.tlb.map (fun u => if u.place = t.place ∧ u.space = t.space ∧ u.vbase = t.vbase ∧ u.log = t.log ∧ u.at0 = t.at0 then
        { u with dirty := true } else u) }

/-- The log takes a fault now: it holds none, or one of the same cycle, of the device and of the core's island, from a higher core
number (18 R407). -/
def State.logTakes (s : State) (core : Nat) : Bool :=
  !bitAt s.tflog0.toNat 15 || s.tflogAt.any (fun e => e.1 == s.dcyc && e.2.1 == (s.core core).cyc && decide (core < e.2.2))

/-- The first translation fault logged (18 R407). R11 gives a Welwick core no core number: TFLOG0.CORE holds its index, the model's
choice (notes/assumptions/71). -/
def State.logFault (s : State) (q : Asker) (kind level va : Nat) (wr : Bool) (pos : Nat) (e : Word) : State :=
  if !s.logTakes q.core then s
  else
    { s with
      tflogAt := some (s.dcyc, (s.core q.core).cyc, q.core),
      tflog0 := BitVec.ofNat 64 (q.core % 2 ^ 15 + 2 ^ 15 + 2 ^ 16 * kind + 2 ^ 20 * level + 2 ^ 24 * b01 wr +
        2 ^ 25 * b01 q.eng + 2 ^ 32 * (q.space % 2 ^ 16)),
      tflog1 := BitVec.ofNat 64 (va % 2 ^ 57),
      tflog2 := BitVec.ofNat 64 (if kind = 1 ∨ kind = 3 then 0 else pos % 2 ^ 45),
      tflog3 := if kind = 3 then 0 else e }

/-- The asker that a core's own accesses make (18 R393, 19 R421). -/
def State.asker (s : State) (n : Nat) : Asker :=
  let c := s.core n
  if isHub n then
    { die := Config.hubDie, cluster := none, space := fld (c.svGet 0x22).toNat 0 16, user := c.level == .t, core := n,
      eng := false, ctx := s.ctxOf n }
  else
    { die := dieOf n, cluster := some (clusterOf n), space := ((s.runOf n).map Run.space).getD 0, user := c.level == .t,
      core := n, eng := false, ctx := s.ctxOf n }

/-- The page of a Welwick core that does not translate: local physical addresses with every permission (19 R421). -/
def State.flatPage (s : State) : TlbEntry :=
  { place := 0, space := 0, vbase := 0, log := 45, pbase := s.peerid * 2 ^ 45, leaf := 0x1F, dirty := true, at0 := 0, n := 0,
    words := [] }

/-- The translation of an access of core `n` (18 R393, 19 R421). -/
def State.translateFor (s : State) (n va : Nat) : Xlated × State :=
  if isHub n && !bitAt ((s.core n).svGet 0x22).toNat 16 then
    if 2 ^ 57 ≤ va then (.fault 3 0 0 0, s) else (.page s.flatPage, s.touch va)
  else s.translate (s.asker n) va

/-- How the translation and the checks of an access end: the page, a trap of the given cause, code and TINFO, or a wait. -/
inductive Reached where
  | page (t : TlbEntry)
  | trap (cause code info : Nat)
  | wait
  deriving DecidableEq, Repr

/-- A translation with its checks, for an access that reads or writes data (18 R399, R406): a fault is logged. -/
def reach (q : Asker) (va : Nat) (rd wr : Bool) : Xlated × State → Reached × State
  | (.wait, s) => (.wait, s)
  | (.fault kind level pos e, s) => (.trap 0x16 (kind + 16 * level + 256 * b01 wr) va, s.logFault q kind level va wr pos e)
  | (.page t, s) =>
    match checkLeaf q.user rd wr t.leaf with
    | .ok => (.page t, s)
    | .kind1 =>
      (.trap 0x16 (1 + 16 * levelOfLog t.log + 256 * b01 wr) va, s.logFault q 1 (levelOfLog t.log) va wr 0 (t.entryAt va))
    | .readOnly => (.trap 0x12 0 va, s)

/-- An access of the current instruction translated and checked: `k` goes on with the page; a trap or a wait ends the try. -/
def withPage (va : Nat) (rd wr : Bool) (s : State) (k : TlbEntry → State → Out) : Out :=
  match reach (s.asker s.cur.core) va rd wr (s.translateFor s.cur.core va) with
  | (.page t, s) => k t s
  | (.trap cause code info, s) => trap cause code 0 info s
  | (.wait, s) => stall s

/-- A translation as far as its page: whether it reads depends on the page (09 R230). -/
def withPageOf (va : Nat) (rd : TlbEntry → Bool) (s : State) (k : TlbEntry → State → Out) : Out :=
  match s.translateFor s.cur.core va with
  | (.page t, s) =>
    (match reach (s.asker s.cur.core) va (rd t) true (.page t, s) with
     | (.page t, s) => k t s
     | (.trap cause code info, s) => trap cause code 0 info s
     | (.wait, s) => stall s)
  | o =>
    match reach (s.asker s.cur.core) va false true o with
    | (.page t, s) => k t s
    | (.trap cause code info, s) => trap cause code 0 info s
    | (.wait, s) => stall s

/-- The same for an engine: a page with ROP is no trap (07 R188). -/
def reachEngine (q : Asker) (va : Nat) (rd wr : Bool) (r : Xlated × State) : Reached × State :=
  match r with
  | (.page t, s) => if checkLeaf q.user rd wr t.leaf = .readOnly then (.page t, s) else reach q va rd wr (.page t, s)
  | r => reach q va rd wr r

/-- The asker of an engine that works for core `n`. -/
def State.engineAsker (s : State) (n : Nat) : Asker := { s.asker n with eng := true, cluster := none }

/-- An engine's address translated and checked at issue (18 R406). -/
def withEnginePage (va : Nat) (rd wr : Bool) (s : State) (k : TlbEntry → State → Out) : Out :=
  let q := s.engineAsker s.cur.core
  match reachEngine q va rd wr (s.translate q va) with
  | (.page t, s) => k t s
  | (.trap cause code info, s) => trap cause code 0 info s
  | (.wait, s) => stall s

/-- Translations removed by an invalidation (16 R366, 18 R409): the TLB entries and walk-cache entries of the page, the space or
everything. -/
def Inval.hitsTlb (m : Inval) (t : TlbEntry) : Bool :=
  match m.kind with
  | 0 => t.space == m.space && m.va / 2 ^ t.log * 2 ^ t.log == t.vbase
  | 1 => t.space == m.space
  | _ => true

def Inval.hitsWalk (m : Inval) (w : WalkEntry) : Bool :=
  match m.kind with
  | 0 => w.space == m.space && w.prefixVa == walkTag w.level m.va
  | 1 => w.space == m.space
  | _ => true

/-- The die that a translation store belongs to. -/
def placeDie (p : Nat) : Nat := if p < 1024 then p / 32 else p - 1024

end Sys2Proof.Machine
end

