-- ==== Sys2Proof/Machine/Mem.lean ====
section
/-! DEFINITION. Device memory: scopes, requests to homes, the cluster caches, releases and acquires, deferred records, and the
homes' own actions (07_memory_order.md, 08 R195 to R200, 09 R219 to R232). -/

namespace Sys2Proof.Machine

/-! ### Scopes, takes and the fabric -/

/-- The physical level that a scope field names (02 R43): none where the tree has no such level. -/
def State.scopeOf (s : State) (n : Nat) (f : BitVec 5) : Option Nat :=
  if 16 ≤ f.toNat then some (f.toNat % 16)
  else ((s.runOf n).bind (fun r => r.levels[f.toNat]?)).map TreeLevel.bind

/-- A scope of the current instruction resolved, or LEVEL_MISMATCH (02 R44). -/
def withScope (f : BitVec 5) (s : State) (k : Nat → State → Out) : Out :=
  match s.scopeOf s.cur.core f with
  | some l => k l s
  | none => trap 0x05 0 0 f.toNat s

/-- The take launch that core `n` runs a task of (08 R192). -/
def State.takeRun (s : State) (n : Nat) : Option Run := (s.runOf n).filter (fun r => r.takeLv.isSome)

/-- Peer numbers of a cut group's members, by domain index (19 R416). -/
def State.groupPeers (s : State) (grp : Nat) : List Nat :=
  match s.groupEntry grp with
  | some (n, a) => (upFrom 0 n).map (fun i => fld (s.memRd (a + 2 * i) 2) 0 12)
  | none => []

/-- Whether the device of a peer number belongs to the launch's placement domain. -/
def State.inGroup (s : State) (r : Run) (peer : Nat) : Bool := peer == s.peerid || (s.groupPeers r.cgrp).contains peer

/-- This device's instance of a cut of a launch (08 R209). -/
def State.cutOf (s : State) (run n : Nat) : Option CutInst := s.cuts.find? (fun c => c.run == run && c.n == n)

/-- Whether cut `n` of a launch is not closed on this device: a closed instance is dropped (08 R209). -/
def State.cutOpen (s : State) (run n : Nat) : Bool := (s.cutOf run n).any (fun c => c.st != .closed)

/-- Whether cut `n` has not reached APPLIED on this device (08 R210). -/
def State.cutUnapplied (s : State) (run n : Nat) : Bool :=
  (s.cutOf run n).any (fun c => c.st != .closed && c.st != .applied)

/-- Take numbers wrap at 2^32 (08 R193). -/
def prevTake (t : Nat) : Nat := (t + 2 ^ 32 - 1) % 2 ^ 32

/-- An access of the task on core `n` must wait for the cut before its take (08 R210): `own` marks an access to the device's
own memory that is not deferred, `pubLoad` a load of a published page. -/
def State.takeWait (s : State) (n : Nat) (own pubLoad : Bool) : Bool :=
  match s.takeRun n, (s.core n).task with
  | some r, some t =>
    (own && s.cutUnapplied r.id (prevTake t.take)) || (pubLoad && s.cutOpen r.id (prevTake t.take))
  | _, _ => false

/-! ### Requests -/

/-- Whether a request writes memory at its home under a sequence number (07 R171); of the synchronising accesses the stores do. -/
def ReqKind.writes : ReqKind → Bool
  | .store _ => true
  | .atomic .. => true
  | .writeback _ => true
  | .sync _ isLoad _ _ => !isLoad
  | _ => false

/-- Whether a request is a plain write, which its home applies without an answer. -/
def ReqKind.plain : ReqKind → Bool
  | .store _ => true
  | .writeback _ => true
  | _ => false

/-- Whether a request is answered. -/
def ReqKind.answers : ReqKind → Bool
  | .load .. => true
  | .atomic _ _ _ ret _ _ => ret
  | .sync .. => true
  | .rdsum => true
  | _ => false

/-- The byte addresses that a request touches. -/
def Req.range (r : Req) : List Nat :=
  match r.kind with
  | .load n .. => upFrom r.pa n
  | .store bs => upFrom r.pa bs.length
  | .atomic _ n .. => upFrom r.pa n
  | .sync .. => upFrom r.pa 8
  | .writeback bs => bs.map Prod.fst
  | .rdsum => upFrom r.pa 64

/-- Two requests touch a common byte. -/
def Req.meets (a b : Req) : Bool := a.range.any (fun x => b.range.contains x)

/-- A request sent (07 R171, R173, R175): a write takes the next number of its die and its place in the chain to its home. -/
def State.send (s : State) (r : Req) : State :=
  let s' := (s.fresh).2
  let r := { r with id := s.nextId }
  if r.kind.writes then
    let n := tget 0 r.die s.nseq + 1
    let key := 64 * r.die + homeOf (paLocal r.pa)
    { s' with reqs := s.reqs ++ [{ r with seq := n, prev := tget 0 key s.lastTo }],
              nseq := tput 0 r.die n s.nseq, lastTo := tput 0 key n s.lastTo }
  else { s' with reqs := s.reqs ++ [r] }

/-- Requests of an owner. -/
def State.ownReqs (s : State) (o : Owner) : List Req := s.reqs.filter (fun r => r.owner == o)

/-- The owner that the current stream is. -/
def State.meOwner (s : State) : Owner := .stream s.cur.core s.cur.x

/-- A request of the current stream, to be completed by its kind. -/
def State.newReq (s : State) (pa va : Nat) (kind : ReqKind) (vec : Table Nat) : Req :=
  { id := 0, owner := s.meOwner, die := dieOf s.cur.core, pa := pa, va := va, space := (s.asker s.cur.core).space, kind := kind,
    st := .flight, seq := 0, prev := 0, vec := vec, pend := none, cache := false, pub := false, delay := 0,
    ctx := s.ctxOf s.cur.core }

/-- The core that owns a request, and its cluster; none for the hub and the engines. -/
def Owner.coreNo : Owner → Option Nat
  | .stream n _ => some n
  | .copy n _ => some n
  | .nmc _ => none
  | .story _ => none

/-- The code of an UNCORR record about a request: 0 for a stream's own access, 1 for an engine's (16 R374). -/
def Owner.code : Owner → Nat
  | .stream .. => 0
  | _ => 1

def Owner.cluster : Owner → Option Nat
  | .stream n _ => if isHub n then none else some (clusterOf n)
  | _ => none

/-! ### Cluster caches (07 R170, 18 R401) -/

/-- The line of a cluster that holds an address. -/
def State.lineAt (s : State) (cl pa : Nat) : Option CacheLine :=
  s.lines.find? (fun l => l.cluster == cl && l.line == pa / 64 * 64)

/-- The state without a line of a cluster. -/
def State.dropLine (s : State) (cl pa : Nat) : State :=
  { s with lines := s.lines.filter (fun l => !(l.cluster == cl && l.line == pa / 64 * 64)) }

/-- The bits of a line that `n` bytes from an address cover. -/
def lineBits (pa n : Nat) : BitVec 64 := BitVec.ofNat 64 ((2 ^ n - 1) * 2 ^ (pa % 64))

/-- The dirty bytes of a line, with their addresses. -/
def CacheLine.dirtyBytes (l : CacheLine) : List (Nat × Byte) :=
  ((upFrom 0 64).filter (fun i => l.dirty.getLsbD i)).map (fun i => (l.line + i, tget 0 i l.data))

/-- The write-back of a line's dirty bytes, by the stream that dirtied them (07 R170, R171); it carries that stream's vector. -/
def State.sendBack (s : State) (l : CacheLine) : State :=
  if l.dirty = 0 then s
  else
    s.send { id := 0, owner := .stream l.core l.x, die := dieOf l.core, pa := l.line, va := l.va, space := 0,
             kind := .writeback l.dirtyBytes, st := .flight, seq := 0, prev := 0,
             vec := ((s.core l.core).stream l.x).carried, pend := none, cache := true, pub := false, delay := 0,
             ctx := s.ctxOf l.core }

/-- A line written back where dirty and dropped from its cluster. -/
def State.evict (s : State) (l : CacheLine) : State := (s.sendBack l).dropLine l.cluster l.line

/-- The line of a cluster as a look-up finds it: whether it is still held is a free value (18 R401). -/
def State.lookLine (s : State) (cl pa : Nat) : Option CacheLine × State :=
  match s.lineAt cl pa with
  | none => (none, s)
  | some l =>
    let (k, s) := s.draw
    if Config.keeps k then (some l, s) else (none, s.evict l)

/-- A line put into its cluster's cache; beyond the capacity the oldest is evicted. -/
def State.putLine (s : State) (l : CacheLine) : State :=
  let s := s.dropLine l.cluster l.line
  let s := { s with lines := s.lines ++ [l] }
  if Config.cacheLines < (s.lines.filter (fun m => m.cluster == l.cluster)).length then
    match s.lines.find? (fun m => m.cluster == l.cluster) with
    | some o => s.evict o
    | none => s
  else s

/-- Bytes written into a line's data. -/
def CacheLine.write (l : CacheLine) (pa : Nat) (bs : List Byte) : CacheLine :=
  { l with data := tputs 0 (pa % 64) bs l.data, valid := l.valid ||| lineBits pa bs.length }

/-- The bits of a line in the 8-byte words that `n` bytes from an address touch. -/
def wordBits (pa n : Nat) : BitVec 64 := lineBits (pa / 8 * 8) (8 * ((pa + n + 7) / 8 - pa / 8))

/-- The clean bytes of the touched words invalidated in a cluster's line: their home has answered or taken a newer value, and a
later hit reads no mixture of two writes and no older one (07 R167, R168, R176). -/
def State.dropWords (s : State) (cl pa n : Nat) : State :=
  { s with lines := s.lines.filterMap (fun l =>
      if l.cluster = cl ∧ l.line = pa / 64 * 64 then
        let v := l.valid &&& (l.dirty ||| ~~~(wordBits pa n))
        if v = 0 then none else some { l with valid := v }
      else some l) }

/-- The line of the current stream's cluster written back and dropped where bytes that an access takes to their home are dirty in
it: the cache is the point of order of its cluster (07 R168, R170). -/
def State.flushDirty (s : State) (pa n : Nat) : State :=
  match s.meOwner.cluster.bind (fun cl => s.lineAt cl pa) with
  | some l => if l.dirty &&& lineBits pa n = 0 then s else s.evict l
  | none => s

/-- A store that goes into a cluster's line and makes it dirty (18 R401, WP 0); bytes that another stream dirtied are written
back first. `take` says that the line belongs to a published page (08 R200). -/
def State.dirtyLine (s : State) (cl pa va : Nat) (take : Bool) (bs : List Byte) : State :=
  let fresh : CacheLine := { cluster := cl, line := pa / 64 * 64, valid := 0, dirty := 0, data := [], core := s.cur.core,
                             x := s.cur.x, take := false, va := 0 }
  let s := match s.lineAt cl pa with
    | some l => if l.dirty ≠ 0 ∧ ¬(l.core = s.cur.core ∧ l.x = s.cur.x) then s.sendBack l else s
    | none => s
  let l := match s.lineAt cl pa with
    | some l => if l.core = s.cur.core ∧ l.x = s.cur.x then l else { l with dirty := 0, core := s.cur.core, x := s.cur.x }
    | none => fresh
  s.putLine { l.write pa bs with dirty := l.dirty ||| lineBits pa bs.length, va := va / 64 * 64, take := l.take || take }

/-- The line that holds a word which is accessed at its home: written back where dirty, and invalidated (09 R228). -/
def State.yieldLine (s : State) (pa : Nat) : State :=
  match s.meOwner.cluster with
  | some cl => match s.lineAt cl pa with
    | some l => s.evict l
    | none => s
  | none => s

/-- Every clean byte of a cluster's cache invalidated; a fill in flight allocates nothing (07 R170). -/
def State.cleanCluster (s : State) (cl : Nat) : State :=
  { s with
    lines := s.lines.filterMap (fun l =>
      if l.cluster ≠ cl then some l else if l.dirty = 0 then none else some { l with valid := l.dirty }),
    reqs := s.reqs.map (fun r => if r.owner.cluster = some cl then { r with cache := r.kind.writes && r.cache } else r) }

/-- Every dirty line of a stream written back; the lines stay, clean (07 R170). -/
def State.writeBack (s : State) (core : Nat) (x : Bool) : State :=
  let mine (l : CacheLine) : Bool := l.core == core && l.x == x && l.dirty != 0
  let s' := (s.lines.filter mine).foldl State.sendBack s
  { s' with lines := s'.lines.map (fun l => if mine l then { l with dirty := 0 } else l) }

/-! ### Releases, acquires and fences (07 R172 to R179) -/

/-- The dies of the partition. -/
def State.dies (s : State) : List Nat := upFrom s.partFirst (2 ^ s.partLog)

/-- A release horizon taken on die `d`: a horizon message to every home, and V_d[d] (07 R172). -/
def State.takeHorizon (s : State) (d : Nat) : State :=
  let h := tget 0 d s.nseq
  { s with
    agenda := s.agenda ++ s.dies.map (fun k => Instr.horizonMessage k d h (tget 0 (64 * d + k) s.lastTo)),
    vec := tput 0 (65 * d) h s.vec }

/-- What a release of the current stream does before it waits (07 R168, R172): its LM stores are applied, and from die scope on
the lines that it dirtied are written back. -/
def State.preRelease (s : State) (sc : Nat) : State :=
  let s := s.setMe (s.me.lmFlush s.cur.x)
  if 4 ≤ sc then s.writeBack s.cur.core s.cur.x else s

/-- What a release at a scope above device waits for beside its own accesses (07 R177): from pod scope on the deferred records of task
`wid` of a launch, from hall scope on the queue-pair entries that the task has posted from its core. -/
def State.farBusy (s : State) (core : Nat) (run : Option Nat) (wid : Word) (sc : Nat) : Bool :=
  (decide (6 ≤ sc) && s.sent.any (fun r => some r.run == run && r.swid == wid)) ||
  (decide (9 ≤ sc) && s.qps.any (fun q => q.2.any (fun e => e.core == core && some e.run == run && decide (e.phase < 3))))

/-- Whether a release must wait (07 R177, R178): for the stream's earlier loads, below die scope for its earlier writes too, at
pod scope for the task's deferred records, at hall scope for its queue-pair entries. -/
def State.relBusy (s : State) (sc : Nat) : Bool :=
  let own := s.ownReqs s.meOwner
  (if sc < 4 then !own.isEmpty else own.any (fun r => r.kind.answers)) ||
    s.farBusy s.cur.core (s.me.task.map Task.run) ((s.me.task.map Task.wid).getD 0) sc

/-- The release made (07 R172): from die scope on it takes a horizon, which the stream's stores then carry. -/
def State.postRelease (s : State) (sc : Nat) : State :=
  let d := dieOf s.cur.core
  let s := if 4 ≤ sc then s.takeHorizon d else s
  let st := if 4 ≤ sc then { s.st with carried := s.vecOf d } else s.st
  s.setSt { st with stage := .released }

/-- A release of the current stream at a physical scope (07 R172, R177, R178): `k` goes on once it is made. -/
def withRelease (sc : Nat) (s : State) (k : State → Out) : Out :=
  if s.st.stage = .released then k s
  else if (s.preRelease sc).relBusy sc then stall (s.preRelease sc)
  else k ((s.preRelease sc).postRelease sc)

/-- Whether an acquire must wait: for the stream's earlier loads (07 R174, R177). -/
def State.acqBusy (s : State) : Bool := (s.ownReqs s.meOwner).any (fun r => r.kind.answers)

/-- The acquire made (07 R174, R178): from die scope on the die's vector takes what the stream's loads have seen, and the
cluster cache holds no clean byte. -/
def State.postAcquire (s : State) (sc : Nat) : State :=
  if sc < 4 then s
  else
    let s := s.mergeVec (dieOf s.cur.core) s.st.seen
    match s.meOwner.cluster with
    | some cl => s.cleanCluster cl
    | none => s

/-- An acquire of the current stream at a physical scope (07 R174, R177, R178). -/
def withAcquire (sc : Nat) (s : State) (k : State → Out) : Out := if s.acqBusy then stall s else k (s.postAcquire sc)

/-- What the later stores of a stream carry once one instruction has both released and acquired (07 R173, R174, R176): the vector with
what the acquire took, so that whoever sees such a store has all that the instruction saw before it. -/
def State.recarry (s : State) (sc : Nat) : State :=
  if 4 ≤ sc then s.setSt { s.st with carried := s.vecOf (dieOf s.cur.core) } else s

/-- The acquire of an instruction that released before (07 R176, R184). -/
def withReacquire (sc : Nat) (s : State) (k : State → Out) : Out := withAcquire sc s fun s => k (s.recarry sc)

/-- A fence of the current stream (07 R179). -/
def withFence (sc : Nat) (s : State) (k : State → Out) : Out :=
  withRelease sc s fun s =>
    if decide (4 ≤ sc) && !(s.ownReqs s.meOwner).isEmpty then stall s else withReacquire sc s k

/-! ### Plain accesses (09 R223) -/

/-- Size in bytes and signedness of an SZ code (05 R126). -/
def szBytes (sz : BitVec 3) : Nat := 2 ^ (sz.toNat % 4)
def szSigned (sz : BitVec 3) : Bool := decide (4 ≤ sz.toNat)

/-- Whether the stream has a request in flight that touches the bytes: a later access to them goes to the home (07 R168). -/
def State.ownInFlight (s : State) (pa n : Nat) : Bool :=
  (s.ownReqs s.meOwner).any (fun r => r.range.any (fun a => decide (pa ≤ a) && decide (a < pa + n)))

/-- A load of `n` bytes into a pending register (09 R223): answered by a line of the cluster cache, or by the home, to which dirty
bytes that it touches go first. R174 speaks only of answers from a home: a line's answer adds the home's horizons as they stand
now, the model's choice (notes/assumptions/72). -/
def State.plainLoad (s : State) (t : TlbEntry) (va n : Nat) (sgn ro : Bool) (r : Reg) : State :=
  let pa := t.addr va
  let d := dieOf s.cur.core
  let cl := if leafCl t.leaf = 1 ∧ ¬ro then s.meOwner.cluster else none
  let flight := s.ownInFlight pa n
  let (hit, s) := match cl with
    | some c => if flight then (none, s) else s.lookLine c pa
    | none => (none, s)
  match hit.filter (fun l => lineBits pa n &&& l.valid == lineBits pa n) with
  | some l =>
    let v := leNat (tgets 0 (pa % 64) n l.data)
    let st := s.st
    let seen := if paPeer pa = s.peerid then vmax st.seen (s.horOf (homeOf (paLocal pa))) else st.seen
    (s.setSt { st with seen := seen }).pendNew [(r, some (ext64 sgn (8 * n) v).toNat)]
  | none =>
    let s := s.flushDirty pa n
    let id := s.nextId
    let s := s.pendNew [(r, none)]
    s.send { s.newReq pa va (.load n sgn ro) (if ro then [] else s.vecOf d) with
             pend := some id, cache := cl.isSome && leafWp t.leaf != 2, pub := leafPub t.leaf }

/-- A store of bytes to local memory (09 R223, 18 R401): into the cluster cache, or to the home, updating a line it hits; dirty
bytes that it overwrites at the home go there first. -/
def State.plainStore (s : State) (t : TlbEntry) (va : Nat) (bs : List Byte) : State :=
  let pa := t.addr va
  let home (s : State) (cached : Bool) : State :=
    s.send { s.newReq pa va (.store bs) s.st.carried with cache := cached }
  match (if leafCl t.leaf = 1 then s.meOwner.cluster else none) with
  | none => home (s.flushDirty pa bs.length) false
  | some cl =>
    if leafWp t.leaf = 0 then s.dirtyLine cl pa va (leafPub t.leaf) bs
    else
      match s.lookLine cl pa with
      | (some l, s) =>
        if leafWp t.leaf = 2 then s.dirtyLine cl pa va (leafPub t.leaf) bs
        else if l.dirty &&& lineBits pa bs.length = 0 then home (s.putLine (l.write pa bs)) true
        else home (s.evict l) false
      | (none, s) => home s false

/-! ### Deferred records (08 R195 to R198, R205) -/

/-- A deferred record of core `n`, before its key and target are filled in: data at local address `lpa` of `peer`. -/
def State.newRec (s : State) (n peer lpa va rule len esz : Nat) (sgn : Bool) (mask : BitVec 64) (data : List Byte) : DRec :=
  let t := (s.core n).task
  let r := s.runOf n
  { peer := peer, lpa := lpa, rule := BitVec.ofNat 3 rule, len := BitVec.ofNat 2 len, esz := BitVec.ofNat 2 esz, sgn := sgn,
    swid := (t.map Task.wid).getD 0, seq := (t.map Task.seq).getD 0, take := (t.map Task.take).getD 0, score := n,
    speer := s.peerid, ncontrib := 1, mask := mask, data := data, cbm := 0, va := va, run := (t.map Task.run).getD 0,
    group := (r.map Run.cgrp).getD 0, launch := (r.map Run.slate).getD 0, copyId := none }

/-- A record sent to its target's cut buffer (08 R195): an unreachable one is lost (19 R417, 08 R214). -/
def State.sendRec (s : State) (r : DRec) : State :=
  let s := { s with sent := s.sent ++ [r] }
  if r.peer = s.peerid || s.reachable r.peer then s.emitFrom r.score r.peer (.deferredRecord r)
  else { s with agenda := s.agenda ++ [.recordLost r 0] }

/-- The next deferred-record number of the task on core `n` used (08 R197); beyond the limit the record is not sent
but counted and recorded as dropped (08 R198, 16 R374). -/
def State.deferAs (s : State) (n : Nat) (r : DRec) : State :=
  let seq := ((s.core n).task.map Task.seq).getD 0
  let s := s.mapTask n (fun t => { t with seq := t.seq + 1 })
  if seq < 2 ^ 32 then s.sendRec { r with seq := seq }
  else
    let key := 2 * r.group + r.take % 2
    let s := { s with overrun := tput 0 key (tget 0 key s.overrun + 1) s.overrun }
    s.errTask 0x04 true 1 (s.ctxOf n) 0 1 0 2

/-- ESZ of a record: for ISUM, BSUM, IMAX and IMIN that of the element, 0 for the other rules (08 R205). -/
def recEsz (rule size : Nat) : Nat := if rule = 2 ∨ rule = 3 ∨ rule = 4 ∨ rule = 5 then lg size else 0

/-- SGN of a record: for IMAX and IMIN that of the element, where 8-byte elements compare as s64 (08 R201, R205). -/
def recSgn (rule size : Nat) (sgn : Bool) : Bool := (rule == 4 || rule == 5) && (sgn || size == 8)

/-- A deferred write of up to 8 bytes (08 R195, R205): one record of LEN 0, with a mask bit for each byte. -/
def State.deferWrite (s : State) (t : TlbEntry) (va rule : Nat) (sgn : Bool) (bs : List Byte) : State :=
  let pa := t.addr va
  let off := pa % 8
  let mask := BitVec.ofNat 64 ((2 ^ bs.length - 1) * 2 ^ off)
  let data := List.replicate off 0 ++ bs ++ List.replicate (8 - off - bs.length) 0
  let n := s.cur.core
  (s.markDirty t).deferAs n
    (s.newRec n (paPeer pa) (paLocal pa / 8 * 8) (va - off) rule 0 (recEsz rule bs.length) (recSgn rule bs.length sgn) mask data)

/-- Where an access of the task goes (08 R194 to R199). -/
inductive Target where
  | own
  | ownPub
  | remote (pub member : Bool)
  deriving DecidableEq, Repr

/-- The target of an access of the current stream through a page. -/
def State.target (s : State) (t : TlbEntry) (va : Nat) : Target :=
  let pa := t.addr va
  if paPeer pa = s.peerid then (if leafPub t.leaf then .ownPub else .own)
  else .remote (leafPub t.leaf) ((s.takeRun s.cur.core).any (fun r => s.inGroup r (paPeer pa)))

/-- A plain load through a checked page (09 R223, R224; 07 R187; 08 R194, R199, R210): `k` is given the state after it. -/
def loadAt (t : TlbEntry) (va n : Nat) (sgn ro : Bool) (r : Reg) (s : State) (k : State → Out) : Out :=
  let take := (s.takeRun s.cur.core).isSome
  if ro && !leafRop t.leaf then trap 0x11 0 0 va s
  else
    match s.target t va with
    | .remote pub _ =>
      if !take then trap 0x14 0 0 va s
      else if !pub || ro then trap 0x13 0 0 va s
      else if s.takeWait s.cur.core false true then stall s
      else if s.reachable (paPeer (t.addr va)) then k (s.plainLoad t va n sgn ro r)
      else
        let peer := paPeer (t.addr va)
        let s := s.errRecord 0x02 true (s.portFor s.cur.core peer) (s.ctxOf s.cur.core) va peer 3
        k (s.pendNew [(r, some 0)])
    | .ownPub => if take && s.takeWait s.cur.core true true then stall s else k (s.plainLoad t va n sgn ro r)
    | .own => if s.takeWait s.cur.core true false then stall s else k (s.plainLoad t va n sgn ro r)

/-- A write of the task through a checked page (08 R194 to R196, R210): deferred with `rule` in a take launch where R195
applies, else `direct`. -/
def writeAt (t : TlbEntry) (va rule : Nat) (sgn : Bool) (bs : List Byte) (s : State) (direct : State → State)
    (k : State → Out) : Out :=
  let take := (s.takeRun s.cur.core).isSome
  let now (s : State) : Out :=
    if s.takeWait s.cur.core true false then stall s else k (direct (s.markDirty t))
  match s.target t va with
  | .remote _ member =>
    if !take then trap 0x14 0 0 va s
    else if !member then trap 0x14 0 0 va s
    else k (s.deferWrite t va rule sgn bs)
  | .ownPub => if take then k (s.deferWrite t va rule sgn bs) else now s
  | .own => now s

/-- A synchronising access or returning atomic through a checked page (08 R194, R196, R210). -/
def syncAt (t : TlbEntry) (va : Nat) (s : State) (k : State → Out) : Out :=
  let take := (s.takeRun s.cur.core).isSome
  match s.target t va with
  | .remote .. => trap (if take then 0x15 else 0x14) 0 0 va s
  | .ownPub => if take then trap 0x15 0 0 va s else k s
  | .own => if s.takeWait s.cur.core true false then stall s else k s

/-! ### What a home does (07 R164, R172 to R175, R181 to R186) -/

/-- The new word of an atomic (09 R228): operations 0 ADD, 1 MIN, 2 MAX, 3 OR, 4 AND, 5 exchange, 6 compare and swap; `cmp` is
the value a swap stores. -/
def atomicNew (op n : Nat) (sgn : Bool) (old v cmp : Nat) : Nat :=
  let w := 8 * n
  let le (a b : Nat) : Bool := if sgn then decide (toS a w ≤ toS b w) else decide (a % 2 ^ w ≤ b % 2 ^ w)
  (match op with
   | 0 => old + v
   | 1 => if le old v then old else v
   | 2 => if le old v then v else old
   | 3 => Nat.lor old v
   | 4 => Nat.land old v
   | 5 => v
   | _ => if old % 2 ^ w = v % 2 ^ w then cmp else old) % 2 ^ w

/-- Words of `n` bytes from an address that hold an uncorrectable error. -/
def State.badIn (s : State) (a n : Nat) : Bool := (upFrom (a / 8) ((a + n + 7) / 8 - a / 8)).any (fun w => tget false w s.bad)

/-- A record for each damaged word of `n` bytes that an access touches, with the word's virtual and local physical address
(09 R225, 16 R374). -/
def State.uncorrWords (s : State) (code : Nat) (ctx : Ctx) (va a n : Nat) : State :=
  ((upFrom (a / 8) ((a + n + 7) / 8 - a / 8)).filter (fun w => tget false w s.bad)).foldl
    (fun s w => s.uncorr code ctx ((va + 8 * w - a / 8 * 8) / 8 * 8) (8 * w) 0) s

/-- Bytes written to memory (09 R225): the bytes of a damaged word that are not written become zero, and the damage is gone. -/
def State.homePut (s : State) (a : Nat) (bs : List Byte) : State :=
  let ws := upFrom (a / 8) ((a + bs.length + 7) / 8 - a / 8)
  let s := ws.foldl (fun s w =>
    if tget false w s.bad then { s.memPut (8 * w) (List.replicate 8 0) with bad := tdel w s.bad } else s) s
  s.memPut a bs

/-- A read of `n` bytes at a home (09 R225): a damaged word reads as zero with a record, and ERRC of the task counts one. -/
def State.homeGet (s : State) (code : Nat) (ctx : Ctx) (errc : Bool) (va a n : Nat) : Nat × State :=
  if s.badIn a n then
    let v := leNat ((upFrom a n).map (fun b => if tget false (b / 8) s.bad then 0 else tget 0 b s.mem))
    let s := s.uncorrWords code ctx va a n
    (v, if errc && s.runsTask ctx then s.mapTask ctx.core (fun t => { t with errc := min (t.errc + 1) 0xFFFF }) else s)
  else (s.memRd a n, s)

/-- Every write of die `d` to the home of an address has been applied there: an engine of the die may write (07 R171, R172). -/
def State.engineFree (s : State) (d a : Nat) : Bool :=
  tget 0 (64 * homeOf a + d) s.chain == tget 0 (64 * d + homeOf a) s.lastTo

/-- A write of an engine of die `d` (07 R171): it takes the die's next number and its place in the chain to the home. -/
def State.engineWrite (s : State) (d a : Nat) (bs : List Byte) : State :=
  let k := homeOf a
  let n := tget 0 d s.nseq + 1
  { s with nseq := tput 0 d n s.nseq, lastTo := tput 0 (64 * d + k) n s.lastTo,
           chain := tput 0 (64 * k + d) n s.chain }.homePut a bs

/-- Whether a request comes in its turn (07 R168): no earlier request of its stream touches its bytes, and none that its cluster
cache has written. -/
def State.inTurn (s : State) (r : Req) : Bool :=
  (s.reqs.takeWhile (fun q => q.id != r.id)).all (fun q =>
    !(r.meets q && (q.owner == r.owner || (q.cache && q.kind.writes && q.owner.cluster == r.owner.cluster))))

/-- Whether the home of a request may perform it (07 R172, R173, R175). -/
def State.homeReady (s : State) (r : Req) : Bool :=
  r.st == .flight && s.inTurn r &&
  (paPeer r.pa != s.peerid ||
    (s.covers (homeOf (paLocal r.pa)) r.vec &&
     (r.seq == 0 || tget 0 (64 * homeOf (paLocal r.pa) + r.die) s.chain == r.prev)))

/-- The request with an identifier. -/
def State.req? (s : State) (id : Nat) : Option Req := s.reqs.find? (fun r => r.id == id)

/-- The state without a request. -/
def State.dropReq (s : State) (id : Nat) : State := { s with reqs := s.reqs.filter (fun r => r.id != id) }

/-- A write's place in its chain passed (07 R172). -/
def State.chained (s : State) (r : Req) : State :=
  if r.seq ≠ 0 then { s with chain := tput 0 (64 * homeOf (paLocal r.pa) + r.die) r.seq s.chain } else s

/-- The horizons of a home seen by the stream that made a request (07 R174). -/
def State.see (s : State) (r : Req) : State :=
  match r.owner with
  | .stream n x =>
    let c := s.core n
    let st := c.stream x
    if paPeer r.pa = s.peerid then
      s.setCore n (c.setStream x { st with seen := vmax st.seen (s.horOf (homeOf (paLocal r.pa))) })
    else s
  | _ => s

/-- A value for the pending register of a request. -/
def State.answer (s : State) (r : Req) (v : Nat) : State :=
  match r.owner.coreNo, r.pend with
  | some n, some id =>
    let c := s.core n
    let fill (p : Pending) : Pending :=
      if p.id = id then { p with outs := p.outs.map (fun o => (o.1, some (o.2.getD v))) } else p
    s.setCore n { c with pends := c.pends.map fill }
  | _, _ => s

/-- Bytes at a fabric address as its target answers: zero beyond the local address map (18 R400, 19 R414), else free. -/
def State.remoteBytes (s : State) (pa n : Nat) : List Byte :=
  (upFrom pa n).map (fun a => if Config.lpaEnd ≤ paLocal a then 0 else Config.remoteByte s.epoch a)

/-- A fabric read of core `c` beyond the local address map: its target writes a PULL_READ record (18 R400). -/
def State.pulled (s : State) (c pa : Nat) : State :=
  if Config.lpaEnd ≤ paLocal pa then s.emitFrom c (paPeer pa) (.pullReadRequest (paLocal pa) s.peerid) else s

/-- The bytes of a line that may come into a cluster: none of a damaged word, and none of a word that a write of the cluster is
on its way to. -/
def State.fillBits (s : State) (cl line : Nat) (id : Nat) : BitVec 64 :=
  let open' (w : Nat) : Bool :=
    !(decide (paPeer line = s.peerid) && tget false (paLocal line / 8 + w) s.bad) &&
    !s.reqs.any (fun q => q.id != id && q.owner.cluster == some cl &&
      (match q.kind with
       | .load .. => false
       | .rdsum => false
       | _ => true) && q.range.any (fun a => a / 8 == line / 8 + w))
  BitVec.ofNat 64 (leNat ((upFrom 0 8).map (fun w => if open' w then 0xFF else 0)))

/-- What an answered load does to its cluster's cache: the words it read are brought up to date by dropping them, and it may
bring in the whole line as the home holds it, a free choice (18 R401). -/
def State.fillLine (s : State) (r : Req) (n : Nat) : State :=
  match r.owner.cluster with
  | none => s
  | some cl =>
    let s := s.dropWords cl r.pa n
    if !r.cache then s
    else
      let (k, s) := s.draw
      let line := r.pa / 64 * 64
      if !Config.allocates k || (s.lineAt cl line).isSome then s
      else
        let all := if paPeer r.pa = s.peerid then tgets 0 (paLocal line) 64 s.mem else s.remoteBytes line 64
        s.putLine { cluster := cl, line := line, valid := s.fillBits cl line r.id, dirty := 0, data := tputs 0 0 all [], va := 0,
                    core := 0, x := false, take := r.pub || paPeer r.pa != s.peerid }

/-- Where a mode's condition holds for a full bit (07 R183). -/
def modeMet (mode : Nat) (full : Bool) : Bool :=
  match mode with
  | 1 => full
  | 2 => full
  | 3 => !full
  | _ => true

/-- The full bit after an access in a mode (07 R183). -/
def modeBit (mode : Nat) (full : Bool) : Bool :=
  match mode with
  | 0 => full
  | 1 => true
  | 2 => false
  | 3 => true
  | 4 => true
  | _ => false

/-- The stream that made a request told the outcome (09 R226, R227); with STATUS of a completion record written, the completion
interrupt is raised where the storyboard asks for it (02 R55). -/
def State.tell (s : State) (r : Req) (ok : Bool) (v : Nat) : State :=
  match r.owner with
  | .story id => if s.stories.any (fun y => y.id == id && y.intr) then s.interrupt 0 else s
  | .stream n x =>
    let c := s.core n
    let st := c.stream x
    if st.stage = .request r.id then s.setCore n (c.setStream x { st with stage := .answered ok v }) else s
  | _ => s

/-- The words of a request dropped from its cluster's cache, as its home has performed it. -/
def State.dropLineOf (s : State) (r : Req) (n : Nat) : State :=
  match r.owner.cluster with
  | some cl => s.dropWords cl r.pa n
  | none => s

/-- A synchronising access performed at its home (07 R183): one step tests, moves and sets. -/
def State.performSync (s : State) (r : Req) (mode : Nat) (isLoad : Bool) (v : Word) : State :=
  let a := paLocal r.pa
  let full := tget false (a / 8) s.full
  let s := { s with full := tput false (a / 8) (modeBit mode full) s.full }
  let s := (s.see r).dropLineOf r 8
  if isLoad then
    let (v, s) := s.homeGet 0 r.ctx true r.va a 8
    (s.tell r true v).dropReq r.id
  else
    (((s.uncorrWords r.owner.code r.ctx r.va a 8).homePut a (leBytes v.toNat 8)).tell r true 0).dropReq r.id

/-- The oldest entry of a word's retry list whose condition holds now (07 R185): requests stand in the order of their listing. -/
def State.nextListed (s : State) (word : Nat) : Option Req :=
  s.reqs.find? (fun r => r.st == .listed && paPeer r.pa == s.peerid && paLocal r.pa / 8 == word &&
    (match r.kind with
     | .sync mode .. => modeMet mode (tget false word s.full)
     | _ => false))

/-- The examination of a word's retry list after its bit changed (07 R185): a pass goes from the oldest to the youngest entry,
restarts when an entry changes the bit, and ends when a whole pass performs nothing; performing the oldest entry whose
condition holds, again and again, is the same. -/
def examine (word : Nat) : Nat → State → State
  | 0, s => s
  | f + 1, s =>
    match s.nextListed word with
    | some r =>
      (match r.kind with
       | .sync mode isLoad _ v => examine word f (s.performSync r mode isLoad v)
       | _ => s)
    | none => s

/-- A synchronising access that has reached its home (07 R185): performed, refused in a TRY form, listed, or refused. Its place in
its die's chain is passed when it first arrives. -/
def State.arriveSync (s : State) (r : Req) (mode : Nat) (isLoad tr : Bool) (v : Word) : State :=
  let s := s.chained r
  let word := paLocal r.pa / 8
  let full := tget false word s.full
  if modeMet mode full then
    let s := s.performSync r mode isLoad v
    if tget false word s.full = full then s else examine word 256 s
  else if tr then (s.tell r false 0).dropReq r.id
  else
    let listed := (s.reqs.filter (fun q => q.st == .listed && homeOf (paLocal q.pa) == homeOf (paLocal r.pa))).length
    let delay := if r.delay = 0 then 64 else min 8192 (2 * r.delay)
    let q : Req := { r with seq := 0, st := if listed < 256 then .listed else .backoff (s.dcyc + delay),
                            delay := if listed < 256 then r.delay else delay }
    { s with reqs := s.reqs.filter (fun p => p.id != r.id) ++ [q] }

/-- A write applied at its home (07 R173). -/
def State.applyReq (s : State) (r : Req) : State :=
  let s := s.chained r
  let cl := r.owner.cluster
  let code := r.owner.code
  let put (s : State) (pa : Nat) (bs : List Byte) : State :=
    let s := s.homePut (paLocal pa) bs
    match cl with
    | some c => s.dropWords c pa bs.length
    | none => s
  match r.kind with
  | .store bs =>
    (put (s.uncorrWords code r.ctx r.va (paLocal r.pa) bs.length) r.pa bs).dropReq r.id
  | .writeback bs =>
    let words := (bs.map (fun b => b.1 / 8)).eraseDups
    let s := words.foldl (fun s w => s.uncorrWords 0 r.ctx (r.va + 8 * w - r.pa) (paLocal (8 * w)) 8) s
    (bs.foldl (fun s b => put s b.1 [b.2]) s).dropReq r.id
  | _ => s.dropReq r.id

/-- An atomic performed at its home (07 R181, 09 R228): the old value and the state after it. -/
def State.atomicAt (s : State) (r : Req) (op n : Nat) (sgn : Bool) (v cmp : Nat) : Nat × State :=
  let (old, s) := (s.dropLineOf r n).homeGet 0 r.ctx false r.va (paLocal r.pa) n
  (old, s.homePut (paLocal r.pa) (leBytes (atomicNew op n sgn old v cmp) n))

/-- A load answered, an atomic or a synchronising access performed at its home (07 R175). -/
def State.answerReq (s : State) (r : Req) : State :=
  match r.kind with
  | .load n sgn _ =>
    let (v, s) := if paPeer r.pa = s.peerid then s.homeGet 0 r.ctx true r.va (paLocal r.pa) n
      else (leNat (s.remoteBytes r.pa n), s.pulled r.ctx.core r.pa)
    (((s.see r).answer r (ext64 sgn (8 * n) v).toNat).fillLine r n).dropReq r.id
  | .atomic op n sgn ret v cmp =>
    let (old, s) := (s.chained r).atomicAt r op n sgn v cmp
    let s := s.see r
    (if ret then s.answer r (ext64 sgn (8 * n) old).toNat else s).dropReq r.id
  | .sync mode isLoad tr v => s.arriveSync r mode isLoad tr v
  | .rdsum =>
    let lane (j : Nat) : Nat := leNat ((upFrom (r.pa + 8 * j) 8).map (Config.remoteByte s.epoch))
    let s := match r.owner.coreNo, r.pend with
      | some n, some id =>
        let c := s.core n
        let fill (p : Pending) : Pending :=
          if p.id = id then { p with outs := (p.outs.zip (upFrom 0 p.outs.length)).map (fun (o : (Reg × Option Nat) × Nat) => (o.1.1, some (lane o.2))) }
          else p
        s.setCore n { c with pends := c.pends.map fill }
      | _, _ => s
    s.dropReq r.id
  | _ => s

/-- The writes of completion records that are still on their way, performed at their homes (02 R55, 19 R425). -/
def State.landStories (s : State) : State :=
  (s.reqs.filter (fun r => match r.owner with
    | .story _ => true
    | _ => false)).foldl (fun s r => if r.kind.plain then s.applyReq r else s.answerReq r) s

end Sys2Proof.Machine
end

