-- ==== Sys2Proof/Machine/Access.lean ====
section
/-! DEFINITION. The A-stream's memory instructions of OP 0x40 to 0x45 and the events that complete them: loads, stores,
synchronising accesses, atomics, fences, deferred stores and reduced pulls (09 R219 to R231). -/

namespace Sys2Proof.Machine

/-! ### Common parts -/

/-- An instruction of family M up to its effective address (09 R219): base plus signed offset, modulo 2^64. -/
def memOp (i : Instr) (m : MForm) (reads writes : List Reg) (s : State) (k : Nat → State → Out) : Out :=
  issue i s fun s =>
    withNeeds ((srcNeeds s.cur.x m.base).and (needs reads writes)) s fun s =>
      k ((s.take m.base).1 + m.off.signExtend 64).toNat s

/-- The alignment check of a scalar access (09 R220). -/
def aligned (ea n : Nat) (s : State) (k : State → Out) : Out := if ea % n ≠ 0 then trap 0x0E 0 0 ea s else k s

/-- The checks of a scalar LM access (09 R220, R236). -/
def lmChecked (ea n : Nat) (write : Bool) (s : State) (k : State → Out) : Out :=
  if 65536 < ea + n then trap 0x0D 0 0 ea s
  else aligned ea n s fun s => if s.me.lmBlocked ea n write then stall s else k s

/-- The data register of a family M instruction. -/
def dreg (m : MForm) : Reg := .g m.didx.toNat

/-- A register's value. -/
def State.rd (s : State) (r : Reg) : Nat := s.me.reg r

/-- Whether the wait of the current instruction has lasted 2^24 cycles (07 R186). -/
def State.feExpired (s : State) : Bool := (s.st.waitFrom).any (fun t => decide (t + Config.stallLimit ≤ s.now))

/-! ### Local memory (09 R222) -/

/-- A synchronising access has issued: from now on its cycles count towards FE_STALL (07 R186). -/
def State.beginSync (s : State) (ea : Nat) : State :=
  match s.st.stage with
  | .start => s.setSt { s.st with stage := .issued ea, waitFrom := some s.now }
  | .waited => s.setSt { s.st with stage := .issued ea, waitFrom := some s.now }
  | .popWait _ => s.setSt { s.st with stage := .issued ea, waitFrom := some s.now }
  | _ => s

/-- A synchronising LM access (07 R183 to R186, 09 R222): a release, the wait for its condition, one step that moves the data
and sets the bit, and an acquire. -/
def lmSync (m : MForm) (ea : Nat) (s : State) (k : State → Out) : Out :=
  let go (sc : Nat) (s : State) : Out :=
    if !modeMet m.mode.toNat (s.me.lmFullAt ea) then stallOn (.lmWait ea) s
    else
      withReacquire sc s fun s =>
        k (s.setMe (s.me.setLmFull ea (modeBit m.mode.toNat (s.me.lmFullAt ea))))
  withScope m.scope (s.beginSync ea) fun sc s =>
    if s.feExpired then trap 0x10 0 0 ea s
    else if s.st.stage = .lmWait ea then go sc s else withRelease sc s (go sc)

/-- LL (09 R222). -/
def execLl (h : Hdr) (m : MForm) (s : State) : Out :=
  memOp (.ll h m) m [] [dreg m] s fun ea s =>
    let n := szBytes m.sz
    let v (s : State) : Nat := (ext64 (szSigned m.sz) (8 * n) (s.me.lmRd s.cur.x ea n)).toNat
    lmChecked ea n false s fun s =>
      if m.mode = 0 then
        let var := s.st.stage == .waited
        retire h (s.writeReg (dreg m) (v s) 3 var)
      else lmSync m ea s fun s => retire h (s.writeReg (dreg m) (v s) 3 true)

/-- LS (09 R222). -/
def execLs (h : Hdr) (m : MForm) (s : State) : Out :=
  memOp (.ls h m) m [dreg m] [] s fun ea s =>
    let n := szBytes m.sz
    let bs := leBytes (s.rd (dreg m)) n
    lmChecked ea n true s fun s =>
      if m.mode = 0 then retire h (s.lmStore ea bs)
      else lmSync m ea s fun s => retire h (s.setMe { s.me with lm := lmPut s.me.lm ea bs })

/-! ### Loads and stores (09 R223, R224) -/

/-- LD (09 R223). -/
def execLd (h : Hdr) (m : MForm) (s : State) : Out :=
  memOp (.ld h m) m [] [dreg m] s fun ea s =>
    let n := szBytes m.sz
    aligned ea n s fun s =>
      withPage ea true false s fun t s => loadAt t ea n (szSigned m.sz) false (dreg m) s (retire h)

/-- LDC (09 R224). -/
def execLdc (h : Hdr) (m : MForm) (s : State) : Out :=
  memOp (.ldc h m) m [] [dreg m] s fun ea s =>
    let n := szBytes m.sz
    aligned ea n s fun s =>
      withPage ea true false s fun t s => loadAt t ea n (szSigned m.sz) true (dreg m) s (retire h)

/-- ST (09 R223): deferred with EXCL in a take launch where R195 applies. -/
def execSt (h : Hdr) (m : MForm) (s : State) : Out :=
  memOp (.st h m) m [dreg m] [] s fun ea s =>
    let n := szBytes m.sz
    let bs := leBytes (s.rd (dreg m)) n
    aligned ea n s fun s =>
      withPage ea false true s fun t s => writeAt t ea 0 false bs s (fun s => s.plainStore t ea bs) (retire h)

/-! ### Synchronising accesses (09 R226, R227) -/

/-- The outcome of a synchronising access at its registers: data where it loaded, and in a TRY form the outcome (09 R227). -/
def State.syncResult (s : State) (m : MForm) (isLoad tr ok : Bool) (v : Nat) : State :=
  let outs := (if isLoad && ok then [(dreg m, some v)] else []) ++
    (if tr then [(Reg.g (m.didx.toNat + 1), some (b01 ok))] else [])
  if outs = [] then s else s.pendNew outs

/-- A request of a synchronising access sent to its home (07 R175, R183). -/
def State.sendSync (s : State) (t : TlbEntry) (va mode : Nat) (isLoad tr : Bool) (v : Word) : State :=
  let pa := t.addr va
  let s := s.yieldLine pa
  s.send (s.newReq pa va (.sync mode isLoad tr v) (s.vecOf (dieOf s.cur.core)))

/-- LDFE, STFE, TRYLDFE and TRYSTFE (09 R226, R227). A mode of IGN without TRY is a plain access at the home; any other access
keeps its stream until the home has performed it, is a release before and an acquire after. -/
def syncOp (i : Instr) (h : Hdr) (m : MForm) (isLoad tr : Bool) (s : State) : Out :=
  let mode := m.mode.toNat
  let d1 : List Reg := if tr then [.g (m.didx.toNat + 1)] else []
  memOp i m (if isLoad then [] else [dreg m]) ((if isLoad then [dreg m] else []) ++ d1) s fun ea s =>
    match s.st.stage with
    | .answered ok v =>
      let done (s : State) : Out := retire h (s.syncResult m isLoad tr ok v)
      if mode = 0 ∨ ok = false then done s else withScope m.scope s fun sc s => withReacquire sc s done
    | .request id => if s.feExpired && !tr then trap 0x10 0 0 ea s else stallOn (.request id) s
    | _ =>
      aligned ea 8 (if tr then s else s.beginSync ea) fun s =>
      withScope m.scope s fun sc s =>
      if s.feExpired && !tr then trap 0x10 0 0 ea s
      else
      withPage ea true (!isLoad || mode == 2 || mode == 5) s fun t s =>
        if !leafFe t.leaf then trap 0x0F 0 0 ea s
        else
          syncAt t ea s fun s =>
            let s := if isLoad then s else s.markDirty t
            let v := BitVec.ofNat 64 (s.rd (dreg m))
            if mode = 0 ∧ !tr then
              if isLoad then
                let id := s.nextId
                let s := s.pendNew [(dreg m, none)]
                let s := s.yieldLine (t.addr ea)
                retire h (s.send { s.newReq (t.addr ea) ea (.load 8 false false) (s.vecOf (dieOf s.cur.core)) with
                                   pend := some id })
              else
                let s := s.yieldLine (t.addr ea)
                retire h (s.send (s.newReq (t.addr ea) ea (.store (leBytes v.toNat 8)) s.st.carried))
            else
              let go (s : State) : Out :=
                let s := s.yieldLine (t.addr ea)
                stallOn (.request s.nextId) (s.sendSync t ea mode isLoad tr v)
              if mode = 0 then go s else withRelease sc s go

/-- LDFE (09 R226). -/
def execLdfe (h : Hdr) (m : MForm) (s : State) : Out := syncOp (.ldfe h m) h m true false s

/-- STFE (09 R226). -/
def execStfe (h : Hdr) (m : MForm) (s : State) : Out := syncOp (.stfe h m) h m false false s

/-- TRYLDFE (09 R227). -/
def execTryldfe (h : Hdr) (m : MForm) (s : State) : Out := syncOp (.tryldfe h m) h m true true s

/-- TRYSTFE (09 R227). -/
def execTrystfe (h : Hdr) (m : MForm) (s : State) : Out := syncOp (.trystfe h m) h m false true s

/-! ### Atomics (09 R228) -/

/-- An atomic sent to its home; a returning one has a pending register. -/
def State.sendAtomic (s : State) (t : TlbEntry) (va op n : Nat) (sgn : Bool) (v cmp : Nat) (ret : Option Reg) : State :=
  let pa := t.addr va
  let s := s.yieldLine pa
  let id := s.nextId
  let s := match ret with
    | some r => s.pendNew [(r, none)]
    | none => s
  s.send { s.newReq pa va (.atomic op n sgn ret.isSome v cmp) (s.vecOf (dieOf s.cur.core)) with
           pend := ret.map (fun _ => id) }

/-- The conflict rule that a deferred non-returning atomic takes (08 R195). -/
def atomicRule (op : Nat) : Nat :=
  match op with
  | 0 => 2
  | 1 => 5
  | 2 => 4
  | 3 => 6
  | _ => 7

/-- A non-returning atomic (09 R228): deferred in a take launch where R195 applies. -/
def atOp (i : Instr) (h : Hdr) (m : MForm) (op : Nat) (s : State) : Out :=
  memOp i m [dreg m] [] s fun ea s =>
    let n := szBytes m.sz
    let sgn := bitAt m.mode.toNat 0
    let v := s.rd (dreg m) % 2 ^ (8 * n)
    aligned ea n s fun s =>
      withPage ea true true s fun t s =>
        writeAt t ea (atomicRule op) sgn (leBytes v n) s (fun s => s.sendAtomic t ea op n sgn v 0 none) (retire h)

/-- A returning atomic (09 R228); `cmp` names the register of the value that ACAS stores. -/
def axOp (i : Instr) (h : Hdr) (m : MForm) (op : Nat) (cmp : Option Reg) (s : State) : Out :=
  memOp i m ([dreg m] ++ cmp.toList) [dreg m] s fun ea s =>
    let n := szBytes m.sz
    let sgn := bitAt m.mode.toNat 0
    let v := s.rd (dreg m) % 2 ^ (8 * n)
    let c := (cmp.map s.rd).getD 0 % 2 ^ (8 * n)
    aligned ea n s fun s =>
      withPage ea true true s fun t s =>
        syncAt t ea s fun s => retire h ((s.markDirty t).sendAtomic t ea op n sgn v c (some (dreg m)))

/-- ATADD (09 R228). -/
def execAtadd (h : Hdr) (m : MForm) (s : State) : Out := atOp (.atadd h m) h m 0 s
/-- ATMIN (09 R228). -/
def execAtmin (h : Hdr) (m : MForm) (s : State) : Out := atOp (.atmin h m) h m 1 s
/-- ATMAX (09 R228). -/
def execAtmax (h : Hdr) (m : MForm) (s : State) : Out := atOp (.atmax h m) h m 2 s
/-- ATOR (09 R228). -/
def execAtor (h : Hdr) (m : MForm) (s : State) : Out := atOp (.ator h m) h m 3 s
/-- ATAND (09 R228). -/
def execAtand (h : Hdr) (m : MForm) (s : State) : Out := atOp (.atand h m) h m 4 s
/-- AXADD (09 R228). -/
def execAxadd (h : Hdr) (m : MForm) (s : State) : Out := axOp (.axadd h m) h m 0 none s
/-- AXMIN (09 R228). -/
def execAxmin (h : Hdr) (m : MForm) (s : State) : Out := axOp (.axmin h m) h m 1 none s
/-- AXMAX (09 R228). -/
def execAxmax (h : Hdr) (m : MForm) (s : State) : Out := axOp (.axmax h m) h m 2 none s
/-- AXOR (09 R228). -/
def execAxor (h : Hdr) (m : MForm) (s : State) : Out := axOp (.axor h m) h m 3 none s
/-- AXAND (09 R228). -/
def execAxand (h : Hdr) (m : MForm) (s : State) : Out := axOp (.axand h m) h m 4 none s
/-- AXCHG (09 R228). -/
def execAxchg (h : Hdr) (m : MForm) (s : State) : Out := axOp (.axchg h m) h m 5 none s
/-- ACAS (09 R228). -/
def execAcas (h : Hdr) (m : MForm) (s : State) : Out :=
  axOp (.acas h m) h m 6 (some (.g (m.didx.toNat + 1))) s

/-! ### Fences (09 R229) -/

/-- FENCE (09 R229). -/
def execFence (h : Hdr) (scope : BitVec 5) (s : State) : Out :=
  issue (.fence h scope) s fun s => withScope scope s fun sc s => withFence sc s (retire h)

/-- REL (09 R229). -/
def execRel (h : Hdr) (scope : BitVec 5) (s : State) : Out :=
  issue (.rel h scope) s fun s => withScope scope s fun sc s => withRelease sc s (retire h)

/-- ACQ (09 R229). -/
def execAcq (h : Hdr) (scope : BitVec 5) (s : State) : Out :=
  issue (.acq h scope) s fun s => withScope scope s fun sc s => withAcquire sc s (retire h)

/-- FENCE.ax (07 R169, 09 R229): every LM store of both streams is applied; from gang scope on it is also a fence. -/
def execFenceAx (h : Hdr) (scope : BitVec 5) (s : State) : Out :=
  issue (.fenceAx h scope) s fun s =>
    withScope scope s fun sc s =>
      let s := s.setMe ((s.me.lmFlush false).lmFlush true)
      if sc ≤ 1 then retire h s else withFence sc s (retire h)

/-! ### Deferred stores and reduced pulls (09 R230, R231) -/

/-- The atomic operation that a direct DST acts as (09 R230): EXCL and ORD act as ST. -/
def dstOp (rule : Nat) : Option Nat :=
  match rule with
  | 2 => some 0
  | 3 => some 0
  | 4 => some 2
  | 5 => some 1
  | 6 => some 3
  | 7 => some 4
  | _ => none

/-- DST (09 R230). -/
def execDst (h : Hdr) (m : MForm) (s : State) : Out :=
  memOp (.dst h m) m [dreg m] [] s fun ea s =>
    let n := szBytes m.sz
    let rule := m.mode.toNat
    let sgn := szSigned m.sz || n == 8
    let v := s.rd (dreg m) % 2 ^ (8 * n)
    if (s.takeRun s.cur.core).isNone then trap 0x05 0 0 0 s
    else
      aligned ea n s fun s =>
        withPageOf ea (fun t => decide (paPeer (t.addr ea) = s.peerid) && !leafPub t.leaf && (dstOp rule).isSome) s fun t s =>
          let direct (s : State) : State :=
            match dstOp rule with
            | some op => s.sendAtomic t ea op n sgn v 0 none
            | none => s.plainStore t ea (leBytes v n)
          writeAt t ea rule (szSigned m.sz) (leBytes v n) s direct (retire h)

/-- Whether a peer number is a reduce aperture (13 R340). -/
def State.aperture (s : State) (peer : Nat) : Bool :=
  (upFrom 0 16).any (fun k => let w := (tget 0 k s.rdap).toNat
    bitAt w 12 && fld w 0 12 == peer)

/-- RDSUM (09 R231): the eight lane sums of a reduce aperture, into eight pending registers. -/
def execRdsum (h : Hdr) (m : MForm) (s : State) : Out :=
  let ds := (upFrom m.didx.toNat 8).map Reg.g
  memOp (.rdsum h m) m [] ds s fun ea s =>
    if (s.takeRun s.cur.core).isNone then trap 0x14 0 0 ea s
    else
      aligned ea 8 s fun s =>
        withPage ea true false s fun t s =>
          let pa := t.addr ea
          if ea % 64 ≠ 0 ∨ !s.aperture (paPeer pa) then trap 0x19 0 0 ea s
          else if s.takeWait s.cur.core false true then stall s
          else
            let id := s.nextId
            let s := s.pendNew (ds.map (fun r => (r, none)))
            retire h (s.send { s.newReq pa ea .rdsum [] with pend := some id })

/-! ### Events -/

/-- The state unchanged where an event cannot happen now. -/
def when (b : Bool) (s : State) (t : State) : Out := .next (if b then t else s)

/-- RESULT_LANDS (05 R107): a fixed-latency result due by now lands. -/
def execResultLands (core : Nat) (x : Bool) (s : State) : Out :=
  .next (s.setCore core ((s.core core).land x ((s.core core).cyc - 1)))

/-- No write of a pending result's registers that was outstanding before it is still to land (05 R109). -/
def Core.cleared (c : Core) (p : Pending) : Bool :=
  p.outs.all (fun o => !(c.stream p.x).landings.any (fun l => l.dst == o.1 && decide (c.cyc ≤ l.lands)))

/-- A pending result of core `n` written, where its values have all arrived and the writes of its registers that were outstanding
have landed (05 R109). -/
def State.writePend (s : State) (n id : Nat) : State :=
  let c := s.core n
  match c.pends.find? (fun p => p.id == id) with
  | none => s
  | some p =>
    let mask (r : Reg) : Nat := ((p.masks.find? (fun m => m.1 == r)).map Prod.snd).getD (fullMask r)
    let c' := p.outs.foldl (fun c o => c.setReg o.1 (mask o.1) (o.2.getD 0)) (c.settle (c.cyc - 1))
    if p.outs.all (fun o => o.2.isSome) && c.cleared p then s.setCore n { c' with pends := c.pends.filter (fun q => q.id != id) }
    else s

/-- PENDING_RESULT_WRITTEN (05 R109). -/
def execPendingResultWritten (core id : Nat) (s : State) : Out := .next (s.writePend core id)

/-- HOME_WRITE_APPLY (07 R173). -/
def execHomeWriteApply (id : Nat) (s : State) : Out :=
  match s.req? id with
  | some r => when (r.kind.plain && s.homeReady r) s (s.applyReq r)
  | none => .next s

/-- HOME_LOAD_ANSWER (07 R175): a load is answered, an atomic or a synchronising access performed. -/
def execHomeLoadAnswer (id : Nat) (s : State) : Out :=
  match s.req? id with
  | some r => when (!r.kind.plain && s.homeReady r) s (s.answerReq r)
  | none => .next s

/-- HORIZON_MESSAGE (07 R172): the horizon rises once the chain down from `last` is applied. -/
def execHorizonMessage (home die hz last : Nat) (s : State) : Out :=
  let key := 64 * home + die
  when (decide (last ≤ tget 0 key s.chain)) s { s with hor := tput 0 key (max hz (tget 0 key s.hor)) s.hor }

/-- RETRY_BACKOFF (07 R185): a refused access goes to its home again once its delay is over. -/
def execRetryBackoff (id : Nat) (s : State) : Out :=
  let again (r : Req) : Req :=
    match r.st with
    | .backoff due => if r.id = id ∧ due ≤ s.dcyc then { r with st := .flight } else r
    | _ => r
  .next { s with reqs := s.reqs.map again }

/-- FE_STALL (07 R186): the synchronising access that a core's A-stream waits with traps after 2^24 cycles. -/
def execFeStall (core : Nat) (s : State) : Out :=
  let c := s.core core
  let t := { s with cur := { core := core, x := false } }
  let info := match c.a.stage with
    | .issued ea => some ea
    | .lmWait ea => some ea
    | .request id => (s.req? id).bind (fun r => match r.kind with
        | .sync _ _ tr _ => if tr then none else some r.va
        | _ => none)
    | _ => none
  match info with
  | some ea => if t.feExpired && c.runnable false then trap 0x10 0 0 ea t else .next s
  | none => .next s

end Sys2Proof.Machine
end

