-- ==== Sys2Proof/Machine/Share.lean ====
section
/-! DEFINITION. A device's share of a launch: the cores that run it, how it ends, how its storyboard goes on, and the messages
that tell the root of its cut group that it is suspended (02 R47, R54, R55, R430; 08 R215; 17 R377). -/

namespace Sys2Proof.Machine

/-! ### Work trees (02 R29, R50, R51; 13 R322) -/

/-- Lowest bit of level `k`'s field (02 R29). -/
def loOf (ls : List TreeLevel) (k : Nat) : Nat := ((ls.take k).map TreeLevel.width).sum

/-- Extent of level `k`. -/
def extOf (ls : List TreeLevel) (k : Nat) : Nat := ((ls[k]?).map TreeLevel.extent).getD 1

/-- Coordinate of a work identifier at level `k` (02 R29). -/
def coordOf (ls : List TreeLevel) (w k : Nat) : Nat := fld w (loOf ls k) (((ls[k]?).map TreeLevel.width).getD 0)

/-- Linear index of coordinates at some levels, the first least significant. -/
def linearOf (ls : List TreeLevel) (f : Nat → Nat) (ks : List Nat) : Nat := ks.foldr (fun k r => f k + extOf ls k * r) 0

/-- Levels of a tree whose entries meet a condition. -/
def levelsWhere (ls : List TreeLevel) (p : TreeLevel → Bool) : List Nat :=
  (upFrom 0 ls.length).filter (fun k => (ls[k]?).any p)

/-- The residency level h: the highest co-resident level bound to core or above (02 R51). -/
def resLevel (ls : List TreeLevel) : Option Nat := (levelsWhere ls (fun l => l.co && decide (1 ≤ l.bind))).getLast?

/-- The index q of a task's device-bound and higher coordinates (02 R50). -/
def deviceIndex (ls : List TreeLevel) (w : Nat) : Nat :=
  linearOf ls (coordOf ls w) (levelsWhere ls (fun l => decide (5 ≤ l.bind)))

/-! ### Tasks and cores -/

/-- The cores that run tasks of a launch. -/
def State.coresOf (s : State) (run : Nat) : List Nat :=
  (s.cores.filter (fun e => e.2.task.any (fun t => t.run == run))).map Prod.fst

/-- The tasks of a launch that have not ended, resident and saved, with their cores. -/
def State.tasksOf (s : State) (r : Run) : List (Nat × Task) :=
  (s.cores.filterMap (fun e => (e.2.task.filter (fun t => t.run == r.id)).map (fun t => (e.1, t)))) ++
  (r.saved.map Prod.snd).getD []

/-- A stream that issues nothing more. -/
def Stream.ended (t : Stream) : Stream :=
  { t with run := false, waitFrom := none, stage := .start, aside := none, halted := false, stepping := false, lmq := [],
           landings := [] }

/-- A core whose task has ended (02 R47): what its stores have done stands, its queues, mailbox and inbox are discarded; sends held
at its full inbox, which had arrived before the end, go without a record, and so do the entries that wait at its full mailbox (MBPOST,
a clip box) although R112 loses no waiting message: both are the model's choice (06 R155, R159, notes/assumptions/73). -/
def Core.freed (c : Core) : Core :=
  let c := (c.lmFlush false).lmFlush true
  { c with task := none, level := .t, a := c.a.ended, x := c.x.ended, pends := [], aq := Fifo.empty, xq := Fifo.empty,
           bqa := Fifo.empty, bqx := Fifo.empty, inbox := [], held := [], mail := [], heldMail := [], bars := [],
           copies := [], xbarAt := none }

/-- Core `n` freed: its waiting synchronising accesses and its arrival at the wired barrier are withdrawn; what it has in the
matrix queue goes on (06 R154). -/
def State.freeCore (s : State) (n : Nat) : State :=
  let waits (r : Req) : Bool := (match r.kind with
    | .sync .. => true
    | _ => false) && r.owner.coreNo == some n
  let s := { s with reqs := s.reqs.filterMap (fun r => if waits r then r.withdrawn else some r) }
  let s := s.setCore n (s.core n).freed
  let g := s.gang (gangOf n)
  s.setGang (gangOf n) { g with arrivals := tdel (n % 8) g.arrivals }

/-- Nothing of an aborted launch left in a matrix queue, and no open join of its. -/
def State.stopGangs (s : State) (run : Nat) : State :=
  (s.gangs.map Prod.fst).foldl (fun s gn =>
    let g := s.gang gn
    s.setGang gn { g with queue := g.queue.filter (fun o => o.run != some run), join := g.join.filter (fun j => j.run != some run) }) s

/-! ### Storyboards (02 R54, R55) -/

/-- Where a launch stands for good. -/
def LaunchState.final : LaunchState → Bool
  | .retired => true
  | .faulted .. => true
  | .aborted => true
  | .skipped => true
  | _ => false

/-- A launch that did not retire. -/
def LaunchState.failed : LaunchState → Bool
  | .faulted .. => true
  | .aborted => true
  | .skipped => true
  | _ => false

/-- Launches from index `i` on, each waiting one with a failed predecessor skipped (02 R54); predecessors have lower indices. -/
def skipFrom (edges : List (Nat × Nat)) (l : List LaunchState) (i : Nat) : Nat → List LaunchState
  | 0 => l
  | f + 1 =>
    let bad := edges.any (fun e => e.2 == i && (l.getD e.1 .waiting).failed)
    skipFrom edges (if l.getD i .waiting = .waiting ∧ bad then l.set i .skipped else l) (i + 1) f

/-- STATUS of the completion record (02 R55): the lowest-indexed launch that faulted or aborted. -/
def statusWord (l : List LaunchState) : Nat :=
  let bad (e : Nat × LaunchState) : Bool := match e.2 with
    | .faulted .. => true
    | .aborted => true
    | _ => false
  match ((upFrom 0 l.length).zip l).find? bad with
  | some (i, .faulted code level) => 1 + 2 ^ 8 * (code % 256) + 2 ^ 16 * (i % 256) + 2 ^ 24 * (level % 16)
  | some (i, _) => 2 + 2 ^ 16 * (i % 256)
  | none => 0

/-- A word on a page with FE filled: its full bit, with the retry list that waits for it (02 R55, 09 R240, R246). -/
def State.fillBit (s : State) (fe : Bool) (a : Nat) : State :=
  if fe && !tget false (a / 8) s.full then examine (a / 8) 256 { s with full := tput false (a / 8) true s.full } else s

/-- A write of the launch unit of its own accord, to the completion record of a storyboard (02 R55, 07 R171). -/
def State.storyReq (s : State) (y : Story) (off : Nat) (kind : ReqKind) : Req :=
  { id := 0, owner := .story y.id, die := Config.hubDie, pa := s.peerid * 2 ^ 45 + (y.donePa + off), va := y.done + off,
    space := y.space, kind := kind, st := .flight, seq := 0, prev := 0, vec := s.vecOf Config.hubDie, pend := none, cache := false,
    pub := false, delay := 0, ctx := s.noCtx }

/-- The completion record of a storyboard (02 R55): bytes 8 to 63, then STATUS with FILL on a page with FE, both on their way to their
home, and a release at device scope; the interrupt comes when STATUS is written. Where no launch started T0 is 0, and where the sink
did not retire T1 is 0: the rule gives no value, the model's choice (notes/assumptions/74). -/
def State.writeDone (s : State) (y : Story) (status : Nat) : State :=
  let count (p : LaunchState → Bool) : Nat := (y.launches.filter p).length
  let body := leBytes y.va.toNat 8 ++ leBytes (y.t0.getD 0) 8 ++ leBytes y.t1 8 ++ leBytes (count (· == .retired)) 4 ++
    leBytes (count LaunchState.failed) 4 ++ leBytes (s.drops - y.drop0) 8 ++ leBytes y.cutw 4 ++ List.replicate 12 0
  let s := (s.touch y.donePa).send (s.storyReq y 8 (.store body))
  let s := s.send (s.storyReq y 0 (.sync (if y.doneFe then 4 else 0) false false (BitVec.ofNat 64 status)))
  s.takeHorizon Config.hubDie

/-- A storyboard gone on after a change of one of its launches: successors of failed launches are skipped, and when no launch
is left the device of domain index 0 writes the completion record. -/
def State.advanceStory (s : State) (id : Nat) : State :=
  match s.stories.find? (fun y => y.id == id) with
  | none => s
  | some y =>
    let y := { y with launches := skipFrom y.edges y.launches 0 y.launches.length }
    let ended := y.launches.all LaunchState.final && !y.finished
    let s := { s with stories := s.stories.map (fun z => if z.id = id then { y with finished := y.finished || ended } else z) }
    if ended && y.dIdx == 0 then s.writeDone y (statusWord y.launches) else s

/-- The state of one launch of a storyboard changed. -/
def State.setLaunch (s : State) (sb idx : Nat) (l : LaunchState) : State :=
  { s with stories := s.stories.map (fun y => if y.id = sb then { y with launches := y.launches.set idx l } else y) }

/-! ### Cut groups (08 R209, R215) -/

/-- The take launch of a cut group that is resident and has not ended (08 R192, R209). -/
def State.groupRun (s : State) (grp : Nat) : Option Run :=
  let rs := s.runs.filter (fun r => r.takeLv.isSome && r.cgrp == grp && r.go && !r.retired && !r.aborted)
  (rs.find? (fun r => decide (0 < r.started))).or rs.head?

/-- A cut group whose aborted launch still awaits the root's ABORT of the cut here (08 R209): no other launch of it may use the banks
yet, the model's choice (notes/assumptions/84). -/
def State.groupAborting (s : State) (grp : Nat) : Bool :=
  s.cuts.any (fun c => c.group == grp && (s.run? c.run).any Run.aborted)

/-- Peer numbers of a launch's domain by index (08 R209, 19 R416). -/
def State.domainPeers (s : State) (r : Run) : List Nat :=
  if r.d ≤ 1 then [s.peerid] else (upFrom 0 r.d).map (s.domainPeer r.dgrp r.dIdx)

/-- The next cut of a launch that this device has not closed: instances are kept until the next one closes (08 R209). -/
def State.nextCut (s : State) (run : Nat) : Nat :=
  match s.cuts.find? (fun c => c.run == run && c.st == .closed) with
  | some c => (c.n + 1) % 2 ^ 32
  | none => 1

/-- This device's instance of cut `n` of a launch, made where it is not there yet. -/
def State.ensureCut (s : State) (r : Run) (n : Nat) : State :=
  match s.cutOf r.id n with
  | some _ => s
  | none => { s with cuts := s.cuts ++ [{ group := r.cgrp, run := r.id, n := n, st := .opened, tasks := [], nconf := 0,
                                          ndrop := 0, ndmg := 0, low := none, vec := [] }] }

/-- A debugger holds the stream, or lets it take a single step. -/
def Stream.debugged (t : Stream) : Bool := t.halted || t.stepping

/-- CUTHOLD holds a cut of the launch: the one that the device is to close next, or the one it has closed last (08 R207, R216). -/
def State.holdsCut (s : State) (r : Run) : Bool :=
  let n := fld s.cuthold.toNat 0 32
  bitAt s.cuthold.toNat 32 && (n == s.nextCut r.id || s.cuts.any (fun (c : CutInst) => c.run == r.id && c.n == n && c.st == CutState.closed))

/-- Whether this device's share of a take launch, the one that runs in its cut group, is suspended (08 R215): a debugger holds a
sequencer of it, it is being saved or is saved, or a cut is held. -/
def State.suspended (s : State) (r : Run) : Bool :=
  (s.groupRun r.cgrp).any (fun q => q.id == r.id) && (r.preempted || r.saved.isSome || s.holdsCut r ||
  (s.coresOf r.id).any (fun n => (s.core n).a.debugged || (s.core n).x.debugged))

/-- A change of the state, with the SUSPEND and RESUME messages that it makes the device send to its roots (08 R215); RESUME goes
first, so that the share that follows another in its group can be suspended. -/
def State.noting (s : State) (f : State → State) : State :=
  let t := f s
  let runs := t.runs.filter (fun r => r.takeLv.isSome)
  let was (r : Run) : Bool := (s.run? r.id).any s.suspended
  let u := (runs.filter (fun r => was r && !t.suspended r)).foldl
    (fun u r => u.post (t.rootPeer r) (.resume r.cgrp (t.nextCut r.id) r.dIdx)) t
  (runs.filter (fun r => !was r && t.suspended r)).foldl
    (fun u r => u.post (t.rootPeer r) (.suspend r.cgrp (t.nextCut r.id) r.dIdx)) u

/-! ### The end of a share (02 R430, 17 R377) -/

/-- A share stopped (17 R377, 02 R430): its undealt groups are dropped, its resident and saved tasks end with no further
instruction, its launch stands as aborted. The cut group of a take launch that all devices agreed to run stays taken until the root's
ABORT of the cut has come (08 R209). -/
def State.stopShare (s : State) (r : Run) : State :=
  if r.aborted || r.retired then s
  else
    s.noting fun s =>
      let s := ((s.coresOf r.id).foldl State.freeCore s).stopGangs r.id
      let s := if r.takeLv.isSome && r.go then s.ensureCut r (s.nextCut r.id) else s
      let s := s.setRun { r with aborted := true, dealt := r.groups, started := r.groups, places := [], preempted := false,
                                 saved := none }
      let s := { s with barInsts := s.barInsts.filter (fun b => b.run != r.id),
                        xgroups := s.xgroups.filter (fun x => x.run != r.id) }
      (s.setLaunch r.sb r.idx .aborted).advanceStory r.sb

/-- The root of a launch sends ABORT of a cut to every member and forgets what it held of the launch's cuts (08 R209, R215). -/
def State.sendCutAbort (s : State) (r : Run) (n : Nat) (late : Option Nat) : State :=
  let mine := (s.groupRun r.cgrp).any (fun q => q.id == r.id)
  let t := { s with roots := s.roots.filter (fun q => !mine || q.group != r.cgrp), held := s.held.filter (fun e => !mine || e.1 != r.cgrp) }
  (s.domainPeers r).foldl (fun t p => t.post p (.cutAbort r.cgrp n (late, s.launchName r))) t

/-- A share aborted: at the root of its cut group the abort also goes out as ABORT of the cut (08 R209). -/
def State.endShare (s : State) (r : Run) : State :=
  if r.aborted || r.retired then s
  else (if r.takeLv.isSome && r.dIdx == 0 then s.sendCutAbort r (s.nextCut r.id) none else s).stopShare r

end Sys2Proof.Machine
end

