-- ==== Sys2Proof/Machine/Control.lean ====
section
/-! DEFINITION. Control flow, the queues' own instructions, presence and the trap instructions: OP 0x20 to 0x25, 0x30 and 0x32
(06 R147 to R157, R160, R163). -/

namespace Sys2Proof.Machine

/-! ### Branches (06 R148) -/

/-- The target of a slot offset (05 R127; 19 R421). -/
def State.offTarget (s : State) (off : BitVec 19) : Nat := (((s.st.pc : Int) + off.toInt) % (s.wrap : Int)).toNat

/-- The target slot that a register value names (05 R127; 19 R421). -/
def State.regTarget (s : State) (v : Word) : Nat := if isHub s.cur.core then fld v.toNat 4 53 else v.toNat % 4096

/-- A taken BR, BRQ, BRQN or JMP: the out-of-range test of 06 R150, then the transfer. -/
def branch (h : Hdr) (dest : Nat) (s : State) : Out :=
  transfer h dest (s.setSt { s.st with loops := dropLoops dest s.st.floor s.st.loops })

/-- BR (06 R148). -/
def execBr (h : Hdr) (off : BitVec 19) (s : State) : Out :=
  issue (.br h off) s fun s => branch h (s.offTarget off) s

/-- BRQ and BRQN (06 R148): the popped bit decides. -/
def branchQ (i : Instr) (h : Hdr) (q : Desc) (off : BitVec 19) (want : Bool) (s : State) : Out :=
  issue i s fun s =>
    withNeeds (srcNeeds s.cur.x q) s fun s =>
      let r := s.take q
      if bitAt r.1.toNat 0 = want then branch h (s.offTarget off) r.2 else retire h r.2

/-- BRQ (06 R148). -/
def execBrq (h : Hdr) (q : Desc) (off : BitVec 19) (s : State) : Out := branchQ (.brq h q off) h q off true s

/-- BRQN (06 R148). -/
def execBrqn (h : Hdr) (q : Desc) (off : BitVec 19) (s : State) : Out := branchQ (.brqn h q off) h q off false s

/-- JMP (06 R148). -/
def execJmp (h : Hdr) (r : Desc) (s : State) : Out :=
  issue (.jmp h r) s fun s =>
    withNeeds (srcNeeds s.cur.x r) s fun s => branch h (s.regTarget (s.take r).1) s

/-! ### Loops (06 R149 to R151) -/

/-- LOOP (06 R149). -/
def execLoop (h : Hdr) (n : Desc) (off : BitVec 19) (s : State) : Out :=
  issue (.loop h n off) s fun s =>
    withNeeds (srcNeeds s.cur.x n) s fun s =>
      let st := s.st
      let last := st.pc + off.toNat
      let c := (s.take n).1.toNat % 2 ^ 32
      if s.wrap ≤ last then trap 0x01 0 0 0 s
      else if c = 0 then transfer h ((last + 1) % s.wrap) s
      else if 4 ≤ st.loops.length then trap 0x0A 0 0 0 s
      else
        let r : LoopRec := { start := st.pc + 1, last := last, rem := c }
        let st := { st with loops := r :: st.loops }.left (s.now + 1 + h.stall.toNat) ((s.st.pc + 1) % s.wrap)
        .next (s.setMe ((s.me.setStream s.cur.x st).issued s.cur.x))

/-- BREAKL (06 R151). -/
def execBreakl (h : Hdr) (s : State) : Out :=
  issue (.breakl h) s fun s =>
    match s.st.loops with
    | r :: rs =>
      if s.st.floor ≤ rs.length then transfer h ((r.last + 1) % s.wrap) (s.setSt { s.st with loops := rs })
      else trap 0x0A 0 0 0 s
    | [] => trap 0x0A 0 0 0 s

/-! ### Calls (06 R152, 19 R421) -/

/-- Base and entry count of the current stream's spill area (16 R360, 19 R421). -/
def State.spillArea (s : State) : Nat × Nat :=
  if isHub s.cur.core then
    let w := (s.me.svGet 0x23).toNat
    (fld w 3 54 * 8, fld w 57 7)
  else
    let w := (s.me.svGet (if s.cur.x then 0xA else 0x9)).toNat
    (fld w 0 16, fld w 16 16)

/-- A return entry as the z64 that LM and saved contexts hold (06 R152): the slot's low 12 bits and the floor. -/
def RetEntry.word (e : RetEntry) : Nat := e.slot % 2 ^ 12 + 2 ^ 12 * (e.floor % 8)

/-- A return entry from such a word: bits [63:15] are ignored (06 R152). -/
def retOf (n : Nat) : RetEntry := { slot := n % 2 ^ 12, floor := fld n 12 3 }

/-- A call of slot `dest` (06 R152): a full store first spills its oldest entry. R152 tests k = COUNT; a count k above a COUNT that
a handler has lowered traps too, the model's choice (notes/assumptions/75). -/
def callTo (h : Hdr) (dest : Nat) (s : State) : Out :=
  let push (s : State) : Out :=
    let st := s.st
    let e : RetEntry := { slot := (st.pc + 1) % s.wrap, floor := st.floor }
    transfer h dest (s.setSt { st with rets := e :: st.rets, floor := st.loops.length })
  let st := s.st
  if st.rets.length < 16 then push s
  else
    let (base, count) := s.spillArea
    let k := st.spilled
    let bs := leBytes ((st.rets.getLast?.map RetEntry.word).getD 0) 8
    let spilt (s : State) : State := s.setSt { s.st with rets := s.st.rets.dropLast, spilled := k + 1 }
    if count ≤ k then trap 0x08 0 0 0 s
    else if isHub s.cur.core then
      withPage (base + 8 * k) false true s fun t s =>
        push (spilt ((s.markDirty t).plainStore t (base + 8 * k) bs))
    else if s.me.lmBlocked (base + 8 * k) 8 true then stall s
    else push (spilt (s.lmStore (base + 8 * k) bs))

/-- CALL (06 R152). -/
def execCall (h : Hdr) (off : BitVec 19) (s : State) : Out :=
  issue (.call h off) s fun s => callTo h (s.offTarget off) s

/-- CALLI (06 R152). -/
def execCalli (h : Hdr) (r : Desc) (s : State) : Out :=
  issue (.calli h r) s fun s =>
    withNeeds (srcNeeds s.cur.x r) s fun s => callTo h (s.regTarget (s.take r).1) s

/-- A return through an entry (06 R152): the routine's loops end, the caller's floor is restored, the out-of-range test is
applied to the target. -/
def returnTo (h : Hdr) (e : RetEntry) (s : State) : Out :=
  let st := s.st
  let loops := st.loops.drop (st.loops.length - st.floor)
  let floor := min e.floor loops.length
  transfer h e.slot (s.setSt { st with loops := dropLoops e.slot floor loops, floor := floor })

/-- RET (06 R152): an empty store refills from the spill area. -/
def execRet (h : Hdr) (s : State) : Out :=
  issue (.ret h) s fun s =>
    let st := s.st
    match st.rets with
    | e :: es => returnTo h e (s.setSt { st with rets := es })
    | [] =>
      let (base, _) := s.spillArea
      let a := base + 8 * (st.spilled - 1)
      let refilled (s : State) : State := s.setSt { s.st with spilled := s.st.spilled - 1 }
      if st.spilled = 0 then trap 0x09 0 0 0 s
      else if isHub s.cur.core then
        (match st.stage with
         | .answered _ v => returnTo h (retOf v) (refilled s)
         | .request id => stallAt (.request id) s
         | _ =>
           withPage a true false s fun t s =>
             stallAt (.request s.nextId)
               (s.send (s.newReq (t.addr a) a (.sync 0 true true 0) (s.vecOf (dieOf s.cur.core)))))
      else if s.me.lmBlocked a 8 false then stall s
      else returnTo h (retOf (s.me.lmRd s.cur.x a 8)) (refilled s)

/-! ### Starting and ending the X-stream (06 R153, R154) -/

/-- XGO (06 R153): the X-stream starts with empty loop stack and return store, no earlier than the next cycle. -/
def execXgo (h : Hdr) (r : Desc) (s : State) : Out :=
  issue (.xgo h r) s fun s =>
    withNeeds (srcNeeds s.cur.x r) s fun s =>
      if s.me.x.run then stall s
      else
        let pc := (s.take r).1.toNat % 4096
        let x := { s.me.x with pc := pc, run := true, ready := max s.me.x.ready (s.now + 1), loops := [], floor := 0,
                               rets := [], spilled := 0, waitFrom := none, stage := .start, guarded := none }
        retire h (s.setMe { s.me with x := x })

/-- XEND (06 R154): it waits as with W = 1; the X-stream becomes idle with empty stores. -/
def execXend (h : Hdr) (s : State) : Out :=
  issue (.xend h) s fun s =>
    if s.busy then stall s
    else
      match retire h s with
      | .next s =>
        .next (s.setMe { s.me with x := { s.me.x with run := false, loops := [], floor := 0, rets := [], spilled := 0 } })
      | o => o

/-! ### Queues (06 R156, R157) -/

/-- The predicate register that a descriptor names, and a truth value in all its bits (05 R105). -/
def State.outcome (s : State) (p : Desc) (b : Bool) : List (Reg × Option Nat) :=
  match regOf s.cur.x p with
  | some r => [(r, some (if b then (if s.cur.x then allOnes else 1) else 0))]
  | none => []

/-- The port code that a descriptor names. -/
def portOf : Desc → Nat
  | .port c => c.toNat
  | _ => 0

/-- TRYPOP (06 R156; a destination may be a port under R139). -/
def execTrypop (h : Hdr) (d q p : Desc) (s : State) : Out :=
  issue (.trypop h d q p) s fun s =>
    let dst := if 0 < s.me.poppable (portOf q) s.now then dstNeeds s.cur.x d else needs [] (regOf s.cur.x d).toList
    withNeeds (dst.and (needs [] (regOf s.cur.x p).toList)) s fun s =>
      if 0 < s.me.poppable (portOf q) s.now then
        let r := s.take q
        let r' := if d.isPush s.cur.x then r.2.give d r.1 1 false else r.2
        retire h (r'.pendNew ((regOf s.cur.x d).toList.map (fun x => (x, some r.1.toNat)) ++ s.outcome p true))
      else retire h (s.pendNew (s.outcome p false))

/-- TRYPUSH (06 R156): its source is read, and popped where it is a port, whether or not the queue has room. -/
def execTrypush (h : Hdr) (q a p : Desc) (s : State) : Out :=
  issue (.trypush h q a p) s fun s =>
    withNeeds ((srcNeeds s.cur.x a).and (needs [] (regOf s.cur.x p).toList)) s fun s =>
      let r := s.take a
      let ok := s.me.room (portOf q) s.now
      let s' := if ok then r.2.give q r.1 1 false else r.2
      retire h (s'.pendNew (s.outcome p ok))

/-- The bit that PUSHB derives from a predicate (06 R157). -/
def pushbBit (x : Bool) (v m : Nat) : Bool :=
  match m with
  | 0 => bitAt v 0
  | 1 => v % 2 ^ (if x then 128 else 1) != 0
  | _ => v % 2 ^ (if x then 128 else 1) == 2 ^ (if x then 128 else 1) - 1

/-- PUSHB (06 R157). -/
def execPushb (h : Hdr) (q p : Desc) (m : Option Desc) (s : State) : Out :=
  issue (.pushb h q p m) s fun s =>
    withNeeds ((dstNeeds s.cur.x q).and (needs (regOf s.cur.x p).toList [])) s fun s =>
      let mode := match m with
        | some (.imm v) => v.toNat
        | _ => 0
      let v := ((regOf s.cur.x p).map s.me.reg).getD 0
      retire h (s.give q (bw (pushbBit s.cur.x v mode)) 1 false)

/-! ### Presence and traps (06 R160, R163) -/

/-- The core with a register made absent (06 R160). -/
def Core.clear (c : Core) : Reg → Core
  | .g i => { c with presG := tput false i false c.presG }
  | .v i => { c with presV := tput false i false c.presV }
  | _ => c

/-- CLRP (06 R160): it waits for the stream's earlier writes of the register. -/
def execClrp (h : Hdr) (r : Desc) (s : State) : Out :=
  issue (.clrp h r) s fun s =>
    withNeeds (needs [] (regOf s.cur.x r).toList) s fun s =>
      match regOf s.cur.x r with
      | some g => if s.me.inFlight s.cur.x g s.now then stall s else retire h (s.setMe (s.me.clear g))
      | none => retire h s

/-- TRAP (06 R163). -/
def execTrap (h : Hdr) (code : BitVec 16) (s : State) : Out :=
  issue (.trap h code) s fun s => trap 0x06 code.toNat 0 0 s

/-- BRK (06 R163, 17 R390, R391): with a debugger attached it completes and its stream halts: the watchdog stops, and the root of a
take launch learns of it (08 R215). -/
def execBrk (h : Hdr) (code : BitVec 16) (s : State) : Out :=
  issue (.brk h code) s fun s =>
    if !bitAt s.dbgctl.toNat 0 then trap 0x07 code.toNat 0 0 s
    else
      match retire h (s.setSt { s.st with stepping := true }) with
      | .next t => .next (s.noting fun _ => t.setMe t.me.holdWatch)
      | o => o

end Sys2Proof.Machine
end

