-- ==== Sys2Proof/Machine/Cuts.lean ====
section
/-! DEFINITION. Takes and cuts: CUTA, CUTW and CUTST, the cut buffer and its deferred records, the conflict rules, and the cut
protocol with its root (08_takes_and_cuts.md, 09 R232, 13 R338, R339). -/

namespace Sys2Proof.Machine

/-! ### Instances (08 R209) -/

/-- An instance changed. -/
def State.mapCut (s : State) (run n : Nat) (f : CutInst → CutInst) : State :=
  { s with cuts := s.cuts.map (fun c => if c.run = run ∧ c.n = n then f c else c) }

/-- The status of one device's counts (08 R212). -/
def cutStatus (nconf ndrop ndmg : Nat) : Nat := if 0 < ndmg then 3 else if 0 < ndrop then 2 else if 0 < nconf then 1 else 0

/-- A cut status word (08 R212). -/
def cutWord (st nconf ndrop ndmg n : Nat) : Word :=
  BitVec.ofNat 64 (st % 4 + 2 ^ 8 * min nconf 0xFFFF + 2 ^ 24 * min ndrop 0xFFFF + 2 ^ 40 * min ndmg 0xFFFF +
    2 ^ 56 * (n % 256))

/-- A device's own word (08 R212, 16 R428). -/
def CutInst.word (c : CutInst) : Word := cutWord (cutStatus c.nconf c.ndrop c.ndmg) c.nconf c.ndrop c.ndmg c.n

/-! ### CUTA, CUTW and CUTST (08 R207, R208, R212; 09 R232) -/

/-- A copy or near-memory command of core `n` is not complete (08 R207). -/
def State.enginesBusy (s : State) (n : Nat) : Bool :=
  (s.core n).copies.any (fun e => e.2.isSome) || s.nmcs.any (fun c => c.core == n)

/-- Whether CUTHOLD holds cut `n` (08 R207, R216). -/
def State.cutHeld (s : State) (n : Nat) : Bool := bitAt s.cuthold.toNat 32 && fld s.cuthold.toNat 0 32 == n

/-- CUTA (08 R207). -/
def execCuta (h : Hdr) (s : State) : Out :=
  issue (.cuta h) s fun s =>
    let n := s.cur.core
    match s.takeRun n, s.me.task with
    | some r, some t =>
      let wait (s : State) : Out :=
        if s.cutOpen r.id (prevTake t.take) || s.cutHeld t.take then stallAt (.cutArrived t.take) s
        else retire h (s.mapTask n (fun t => { t with take := (t.take + 1) % 2 ^ 32, seq := 0 }))
      if s.st.stage = .cutArrived t.take then wait s
      else if s.enginesBusy n then stall s
      else
        withRelease 8 s fun s =>
          wait ((s.ensureCut r t.take).mapCut r.id t.take (fun c =>
            { c with tasks := without n c.tasks ++ [n], vec := vmax c.vec (s.vecOf (dieOf n)) }))
    | _, _ => trap 0x05 0 0 0 s

/-- CUTW (08 R208). -/
def execCutw (h : Hdr) (s : State) : Out :=
  issue (.cutw h) s fun s =>
    match s.takeRun s.cur.core, s.me.task with
    | some r, some t => if s.cutOpen r.id (prevTake t.take) then stall s else withAcquire 8 s (retire h)
    | _, _ => trap 0x05 0 0 0 s

/-- CUTST (09 R232). -/
def execCutst (h : Hdr) (d : BitVec 6) (s : State) : Out :=
  issue (.cutst h d) s fun s =>
    withNeeds (needs [] [.g d.toNat]) s fun s =>
      if (s.takeRun s.cur.core).isNone then trap 0x05 0 0 0 s
      else retire h (s.pendNew [(.g d.toNat, some s.cutst.toNat)])

/-! ### The cut buffer (08 R204 to R206) -/

/-- The bank of a take's parity. -/
def State.bank (s : State) (n : Nat) : Bank := if n % 2 = 0 then s.bank0 else s.bank1

def State.setBank (s : State) (n : Nat) (b : Bank) : State :=
  if n % 2 = 0 then { s with bank0 := b } else { s with bank1 := b }

/-- Data bytes of a LEN code (08 R205). -/
def recLen (l : BitVec 2) : Nat := if l = 0 then 8 else if l = 1 then 64 else 256

end Sys2Proof.Machine

namespace Sys2Proof

open Machine

/-- Whether byte `i` of a record's data is valid (08 R205). -/
def DRec.valid (r : DRec) (i : Nat) : Bool := decide (i < recLen r.len) && (r.len == 2 || r.mask.getLsbD i)

/-- The 40-byte header and the data of a filed record (08 R205). -/
def DRec.bytes (r : DRec) : List Byte :=
  leBytes (r.lpa % 2 ^ 45 + 2 ^ 45 * r.rule.toNat + 2 ^ 48 * r.len.toNat + 2 ^ 50 * r.esz.toNat + 2 ^ 52 * b01 r.sgn) 8 ++
  leBytes r.swid.toNat 8 ++ leBytes r.seq 4 ++ leBytes r.take 4 ++ leBytes r.score 2 ++ leBytes r.speer 2 ++
  leBytes r.ncontrib 2 ++ leBytes 0 2 ++ leBytes r.mask.toNat 8 ++ r.data

/-- The acknowledgement of a record (13 R339). -/
def DRec.ack (r : DRec) : RecAck := { swid := r.swid, seq := r.seq, speer := r.speer, cbm := r.cbm }

/-- Key of a record as one number (08 R197). -/
def DRec.key (r : DRec) : Nat := r.swid.toNat * 2 ^ 32 + r.seq

/-- The unit of a record's rule in bytes (08 R201). -/
def DRec.unit (r : DRec) : Nat :=
  match r.rule.toNat with
  | 2 => 2 ^ r.esz.toNat
  | 3 => 8
  | 4 => 2 ^ r.esz.toNat
  | 5 => 2 ^ r.esz.toNat
  | _ => 1

/-- Whether a record covers byte `a`, and its byte there. -/
def DRec.covers (r : DRec) (a : Nat) : Bool := decide (r.lpa ≤ a) && r.valid (a - r.lpa)
def DRec.byteAt (r : DRec) (a : Nat) : Byte := r.data.getD (a - r.lpa) 0

/-- A record's value on a unit. -/
def DRec.unitAt (r : DRec) (a z : Nat) : Nat := leNat ((upFrom a z).map r.byteAt)

end Sys2Proof

namespace Sys2Proof.Machine

/-- Size of one bank's first part in bytes (08 R204). -/
def State.bankSize (s : State) : Nat := s.cbsize * 2 ^ 19

/-- Where a record of `n` bytes fits in its bank (08 R206), taking the extent at the head of the chain where it does not fit in
the rest; none where the chain gives nothing. -/
def State.fitRecord (s : State) (take n : Nat) : Option Nat × State :=
  let b := s.bank take
  let size := match b.extents.getLast? with
    | some e => e.2.2
    | none => s.bankSize
  let base := match b.extents.getLast? with
    | some e => e.2.1
    | none => s.cbbase.toNat + take % 2 * s.bankSize
  let used := if b.extents = [] then b.used else b.extUsed
  if used + n ≤ size then
    (some (base + used), s.setBank take (if b.extents = [] then { b with used := used + n } else { b with extUsed := used + n }))
  else
    let d := s.cbovf.toNat
    if d = 0 then (none, s)
    else
      let ebase := s.memRd d 8
      let esize := s.memRd (d + 8) 8
      let code := if s.memRd (d + 24) 8 ≠ 0 then some 0
        else if d % 32 ≠ 0 ∨ ebase % 4096 ≠ 0 ∨ 2 ^ 45 ≤ ebase then some 1
        else if esize = 0 then some 2 else none
      match code with
      | some c => (none, { s with cbovf := 0 }.errRecord 0x0F false c s.noCtx 0 d (take % 2))
      | none =>
        let s := { s with cbovf := BitVec.ofNat 64 (s.memRd (d + 16) 8 % 2 ^ 45) }
        (some ebase, s.setBank take { b with extents := b.extents ++ [(d, ebase, esize)], extUsed := n })

/-- A record dropped because the chain was empty (08 R206): every further record of its take is dropped too. -/
def State.dropRecord (s : State) (r : DRec) : State :=
  let b := s.bank r.take
  s.setBank r.take { b with dropped := tput 0 r.group (tget 0 r.group b.dropped + 1) b.dropped,
                            short := without (r.group, r.take) b.short ++ [(r.group, r.take)] }

/-- A record filed in the bank of its take (08 R205): acknowledged, but dropped and counted, where the chain is, or was for an
earlier record of the take, empty (R206). -/
def State.fileRecord (s : State) (r : DRec) : State :=
  if (s.bank r.take).short.contains (r.group, r.take) then s.dropRecord r
  else
    match s.fitRecord r.take (40 + recLen r.len) with
    | (some a, s) => (s.engPut a r.bytes).setBank r.take { s.bank r.take with recs := (s.bank r.take).recs ++ [r] }
    | (none, s) => s.dropRecord r

/-- DEFERRED_RECORD (08 R205, 13 R339): filed and acknowledged; one whose address lies outside memory, or whose NCONTRIB is
wrong, is lost to its source. One of an aborted launch that comes after its CUT_ABORT is filed like any other, the model's choice
(notes/assumptions/84). -/
def execDeferredRecord (r : DRec) (s : State) : Out :=
  if !s.assigned r.lpa then .next (s.emit r.speer (.recordLost r 1))
  else if r.ncontrib = 0 ∨ (r.rule ≠ 3 ∧ r.ncontrib ≠ 1) then .next (s.emit r.speer (.recordLost r 0))
  else .next ((s.fileRecord r).emit r.speer (.recordAck r.ack))

/-- A record sent has been acknowledged or has failed: the branches of one multicast record share their key. -/
def State.settled (s : State) (p : DRec → Bool) : State :=
  match s.sent.find? p with
  | some r => { s with sent := s.sent.erase r }
  | none => s

/-- RECORD_ACK (13 R339). -/
def execRecordAck (a : RecAck) (s : State) : Out :=
  .next (s.settled (fun r => r.swid == a.swid && r.seq == a.seq))

/-- RECORD_LOST (08 R214): the record counts as acknowledged-failed, one dropped-data record is written. -/
def execRecordLost (r : DRec) (why : Nat) (s : State) : Out :=
  if !s.sent.any (fun q => q.swid == r.swid && q.seq == r.seq && q.take == r.take) then .next s
  else
    let s := s.settled (fun q => q.swid == r.swid && q.seq == r.seq && q.take == r.take)
    let key := 2 * r.group + r.take % 2
    let s := { s with lost := tput 0 key (tget 0 key s.lost + 1) s.lost }
    let cx : Ctx := { task := true, launch := r.launch, wid := r.swid, take := r.take, core := r.score, peer := s.peerid }
    .next (s.errTask 0x05 true why cx r.va r.peer r.lpa 2)

/-! ### The conflict rules (08 R201, R202) -/

/-- The record of lowest, and of highest, key among some. -/
def lowest (r : DRec) (rs : List DRec) : DRec := rs.foldl (fun a b => if b.key < a.key then b else a) r
def highest (r : DRec) (rs : List DRec) : DRec := rs.foldl (fun a b => if a.key < b.key then b else a) r

/-- The value of a rule on a unit of `z` bytes with contents `m` (08 R201), and the conflicts it counts. -/
def ruleValue (r : DRec) (rs : List DRec) (a z m : Nat) : Nat × Nat :=
  let all := r :: rs
  let w := 8 * z
  let vs := all.map (fun q => q.unitAt a z)
  let sg := r.sgn || z == 8
  let less (x y : Nat) : Bool := if sg then decide (toS x w < toS y w) else decide (x % 2 ^ w < y % 2 ^ w)
  match r.rule.toNat with
  | 0 => ((lowest r rs).unitAt a z, if rs = [] then 0 else 1)
  | 1 => ((highest r rs).unitAt a z, 0)
  | 2 => ((m + vs.sum) % 2 ^ w, 0)
  | 3 => ((m + vs.sum) % 2 ^ w, if 8191 < (all.map DRec.ncontrib).sum then 1 else 0)
  | 4 => (vs.foldl (fun x y => if less x y then y else x) m, 0)
  | 5 => (vs.foldl (fun x y => if less y x then y else x) m, 0)
  | 6 => (vs.foldl Nat.lor m, 0)
  | _ => (vs.foldl Nat.land m, 0)

/-- Whether the records on a unit do not agree (08 R202): more than one rule, or a differing element size or signedness, or one
that covers only part of the unit. -/
def mixed (r : DRec) (rs : List DRec) (a z : Nat) : Bool :=
  let sized := r.rule == 2 || r.rule == 4 || r.rule == 5
  rs.any (fun q => q.rule != r.rule || (sized && (q.esz != r.esz || q.sgn != r.sgn))) ||
  (r :: rs).any (fun q => (upFrom a z).any (fun b => !q.covers b))

/-- The bytes of a unit on which the records do not agree, and the conflicts (08 R202). -/
def mixedBytes (rs : List DRec) (m : Nat) (a z : Nat) : List Byte × Nat :=
  let one (i : Nat) : Byte × Nat :=
    match rs.filter (fun q => q.covers (a + i)) with
    | [] => (BitVec.ofNat 8 (fld m (8 * i) 8), 0)
    | r :: qs => ((lowest r qs).byteAt (a + i), if qs = [] then 0 else 1)
  let bs := (upFrom 0 z).map one
  (bs.map Prod.fst, (bs.map Prod.snd).sum)

/-- The size of the unit that holds byte `a`: the largest that a record on it has; 0 where no record covers the unit. Units of
different sizes nest, and the largest are disjoint. -/
def unitSize (rs : List DRec) (a : Nat) : Nat :=
  let has (z : Nat) : Bool := rs.any (fun r => r.unit == z && (upFrom (a / z * z) z).any r.covers)
  if has 8 then 8 else if has 4 then 4 else if has 2 then 2 else if has 1 then 1 else 0

/-- One unit applied (08 R202): contents whose word is uncorrectable count as zero, with a record of the launch and take. -/
def State.applyUnit (s : State) (cx : Ctx) (rs : List DRec) (a z : Nat) : Nat × State :=
  let s := if s.badIn a z then s.uncorr 3 cx 0 (a / 8 * 8) 0 else s
  let m := if s.badIn a z then 0 else s.memRd a z
  match rs.filter (fun r => (upFrom a z).any r.covers) with
  | [] => (0, s)
  | q :: qs =>
    if mixed q qs a z then
      let (bs, n) := mixedBytes (q :: qs) m a z
      (n, s.homePut a bs)
    else
      let (v, n) := ruleValue q qs a z m
      (n, s.homePut a (leBytes v z))

/-- Conflicts so far, the lowest conflicting unit, and the state. -/
structure Applied where
  nconf : Nat
  low   : Option Nat
  st    : State

/-- The units of the word at `a` applied, from byte `i` on. -/
def applyWord (cx : Ctx) (rs : List DRec) (a i : Nat) (p : Applied) : Nat → Applied
  | 0 => p
  | f + 1 =>
    let z := unitSize rs (a + i)
    if z = 0 ∨ i % z ≠ 0 then applyWord cx rs a (i + 1) p f
    else
      let (n, t) := p.st.applyUnit cx rs (a + i) z
      let low := if n = 0 then p.low else match p.low with
        | some l => some (min l (a + i))
        | none => some (a + i)
      applyWord cx rs a (i + 1) { nconf := p.nconf + n, low := low, st := t } f

/-- Words that some records cover, each once. -/
def coveredWords (rs : List DRec) : List Nat :=
  (rs.flatMap (fun r => ((upFrom r.lpa (recLen r.len)).filter r.covers).map (fun a => a / 8 * 8))).eraseDups

/-- What an application that has finished orders (08 R211): every access of a member task before its CUTA comes before the accesses
that waited. The dies of the member tasks take the vectors of the releases, and their clusters hold no clean byte. -/
def State.cutOrders (s : State) (r : Run) (v : Table Nat) : State :=
  (s.coresOf r.id).foldl (fun s n => (s.mergeVec (dieOf n) v).cleanCluster (clusterOf n)) s

/-- The records of a cut group in the bank of cut `n` applied (08 R202). -/
def State.applyBank (s : State) (cx : Ctx) (grp n : Nat) : Applied :=
  let rs := (s.bank n).recs.filter (fun r => r.group == grp)
  (coveredWords rs).foldl (fun p w => applyWord cx rs w 0 p 8) { nconf := 0, low := none, st := s }

/-- The records of a cut group out of a bank (08 R206): an empty bank returns its extents to the head of the chain, in the order
in which they were taken. Groups share the two banks, and a bank in which another group has records keeps its fill and its extents
until those are gone too, the model's choice (notes/assumptions/85). -/
def State.emptyBank (s : State) (grp n : Nat) : State :=
  let b := s.bank n
  let recs := b.recs.filter (fun r => r.group != grp)
  let dropped := tdel grp b.dropped
  let short := b.short.filter (fun e => e.1 != grp)
  if recs ≠ [] then s.setBank n { b with recs := recs, dropped := dropped, short := short }
  else
    let ds := b.extents.map Prod.fst
    let next := ds.drop 1 ++ [s.cbovf.toNat]
    let s := (ds.zip next).foldl (fun s e => s.engPut (e.1 + 16) (leBytes e.2 8)) s
    let s := match ds with
      | d :: _ => { s with cbovf := BitVec.ofNat 64 d }
      | [] => s
    s.setBank n { recs := [], used := 0, extents := [], extUsed := 0, dropped := dropped, short := short }

/-! ### The members' part of the protocol (08 R209) -/

/-- DEVICE_ARRIVED (08 R209): the instance of cut `n` leaves OPEN once cut n − 1 is closed, every group has started, every task
has arrived or ended and every record of the take is settled. The share has ended with it where no task of it is left and none
had passed its CUTA into take n + 1 (08 R193). -/
def execDeviceArrived (grp n : Nat) (s : State) : Out :=
  match s.groupRun grp with
  | none => .next s
  | some r =>
    let t := s.ensureCut r n
    let cores := s.coresOf r.id
    let here := (t.cutOf r.id n).any (fun c => c.st == .opened && cores.all (fun k => c.tasks.contains k))
    let ok := n == s.nextCut r.id && !s.groupAborting grp && !r.lastCut && r.saved.isNone && r.started == r.groups && here &&
      !s.sent.any (fun q => q.run == r.id && q.take == n)
    if ok then
      let passed := (t.cutOf r.id n).any (fun c => !c.tasks.isEmpty)
      .next ((t.mapCut r.id n (fun c => { c with st := .arrived })).post (s.rootPeer r)
        (.arrive grp n r.dIdx (cores.isEmpty && !passed)))
    else .next s

/-- APPLY (08 R209). -/
def execApply (grp n : Nat) (s : State) : Out :=
  match s.groupRun grp with
  | some r => .next (s.mapCut r.id n (fun c => if c.st = .arrived then { c with st := .applying } else c))
  | none => .next s

/-- Writes of a launch that have not reached memory (08 R203). -/
def State.writing (s : State) (r : Run) : Bool :=
  s.reqs.any (fun q => q.kind.writes && q.ctx.launch == r.slate)

/-- The coordinates of a record about a cut of a launch: no one task is responsible for it. -/
def State.cutCtx (s : State) (r : Run) (n : Nat) : Ctx := { s.noCtx with launch := r.slate, take := n }

/-- A record of class 2 about a cut, with the trap that it asks of every member task, resident or saved (16 R374). -/
def State.cutClass (s : State) (r : Run) (kind : Nat) (drop : Bool) (n addr d0 d1 : Nat) : State :=
  s.errClass kind drop 0 (s.cutCtx r n) addr d0 d1 2 (fun _ t => t.run == r.id)

/-- A bank applied with its counts, and the record of what it dropped (08 R202, R206, R212). -/
def State.closeBank (s : State) (r : Run) (n : Nat) : State :=
  let drop := tget 0 r.cgrp (s.bank n).dropped
  let key := 2 * r.cgrp + n % 2
  let p := s.applyBank (s.cutCtx r n) r.cgrp n
  let t := if drop = 0 then p.st else p.st.cutClass r 0x04 true n 0 drop 0
  t.mapCut r.id n (fun c => { c with nconf := p.nconf, low := p.low, ndrop := drop + tget 0 key s.overrun,
                                     ndmg := tget 0 key s.lost })

/-- APPLY_FINISHED (08 R203, R209): the launch's direct writes are in memory, then the bank is applied. -/
def execApplyFinished (grp n : Nat) (s : State) : Out :=
  match s.groupRun grp with
  | none => .next s
  | some r =>
    if !(s.cutOf r.id n).any (fun c => c.st == .applying) || s.writing r then .next s
    else
      let t := s.closeBank r n
      match t.cutOf r.id n with
      | some c => .next (((t.cutOrders r c.vec).mapCut r.id n (fun c => { c with st := .applied })).post (s.rootPeer r)
          (.report grp n r.dIdx c.word))
      | none => .next s

/-- Lines of other devices' memory and of published pages invalidated, and fills of them in flight (08 R200); what a launch without
takes has left dirty in such a line is written back. -/
def State.dropTakeLines (s : State) : State :=
  let s := (s.lines.filter CacheLine.take).foldl State.evict s
  { s with lines := s.lines.filter (fun l => !l.take)
           reqs := s.reqs.map (fun r => if r.pub || paPeer r.pa != s.peerid then { r with cache := false } else r) }

/-- A cut closed on this device (08 R209, R212): the status word, a record where the device's own status is not OK, the bank
emptied, the lines invalidated. -/
def State.closeCut (s : State) (r : Run) (c : CutInst) (st : Word) (last : Bool) : State :=
  let n := c.n
  let key := 2 * r.cgrp + n % 2
  let s := (s.emptyBank r.cgrp n).dropTakeLines
  let s := { s with cutst := st, epoch := s.epoch + 1, lost := tdel key s.lost, overrun := tdel key s.overrun,
                    cuts := s.cuts.filter (fun d => !(d.run == r.id && d.st == CutState.closed)) }
  let s := (s.mapCut r.id n (fun d => { d with st := .closed })).setRun { r with lastCut := last }
  let s := { s with stories := s.stories.map (fun y => if y.id = r.sb then { y with cutw := max y.cutw (st.toNat % 4) } else y) }
  if cutStatus c.nconf c.ndrop c.ndmg = 0 then s
  else s.cutClass r 0x0B false n (c.low.getD 0) st.toNat c.word.toNat

/-- DONE (08 R209, R212): an applied cut is closed; a held cut may begin or end with it (08 R215). -/
def execDone (grp n : Nat) (st : Word) (last : Bool) (s : State) : Out :=
  match s.groupRun grp with
  | none => .next s
  | some r =>
    match s.cutOf r.id n with
    | none => .next s
    | some c => if c.st ≠ .applied then .next s else .next (s.noting fun s => s.closeCut r c st last)

/-- The launch that a message names, whether or not its share has been stopped (02 R58). -/
def State.runNamed (s : State) (l : AbortMsg) : Option Run :=
  (s.stories.find? (fun y => y.va == l.sb && y.nth == l.nth)).bind (fun y =>
    s.runs.find? (fun r => r.sb == y.id && r.idx == l.idx))

/-- Whether another launch of a cut group than the one named has started on this device. -/
def State.groupOther (s : State) (grp : Nat) (run : Option Run) : Bool :=
  s.runs.any (fun q => q.takeLv.isSome && q.cgrp == grp && decide (0 < q.started) && !q.retired && !q.aborted &&
    run.all (fun r => q.id != r.id))

/-- What a cut group has in both banks, and the counts of what it lost, dropped (08 R209). -/
def State.emptyGroup (s : State) (grp : Nat) : State :=
  let s := (s.emptyBank grp 0).emptyBank grp 1
  { s with lost := tdel (2 * grp) (tdel (2 * grp + 1) s.lost), overrun := tdel (2 * grp) (tdel (2 * grp + 1) s.overrun) }

/-- CUT_ABORT (08 R209, R215): an application in progress is finished, both banks are emptied, the launch is aborted. What another
launch of the group that has started here holds stays (notes/assumptions/84). -/
def execCutAbort (grp n : Nat) (late : Option Nat × AbortMsg) (s : State) : Out :=
  let run := s.runNamed late.2
  let apply (r : Run) : State :=
    (s.cuts.filter (fun (c : CutInst) => c.run == r.id && c.st == CutState.applying)).foldl (fun (s : State) (c : CutInst) => s.closeBank r c.n) s
  let s := if s.groupOther grp run then s else (run.elim s apply).emptyGroup grp
  match run with
  | none => .next s
  | some r =>
    let s := { s with sent := s.sent.filter (fun q => q.run != r.id) }
    let s := match late.1 with
      | some i => s.errRecord 0x0C false 0 (s.cutCtx r n) 0 i 0
      | none => s
    let t := s.stopShare ((s.run? r.id).getD r)
    .next { t with cuts := t.cuts.filter (fun c => c.run != r.id) }

/-! ### The root's part (08 R209, R215) -/

/-- The root's record of a cut. -/
def State.root? (s : State) (grp n : Nat) : Option RootCut := s.roots.find? (fun q => q.group == grp && q.n == n)

def State.setRoot (s : State) (q : RootCut) : State :=
  { s with roots := s.roots.filter (fun p => !(p.group == q.group && p.n == q.n)) ++ [q] }

/-- Whether the skew timers of a group are suspended (08 R215). -/
def State.timersHeld (s : State) (grp : Nat) : Bool := s.held.any (fun e => e.1 == grp)

/-- The count of a skew timer (08 R215). -/
def RootCut.elapsed (q : RootCut) (now : Nat) : Nat := q.count + (match q.since with
  | some t => now - t
  | none => 0)

/-- A skew timer stopped, or suspended. -/
def RootCut.pause (q : RootCut) (now : Nat) : RootCut := { q with count := q.elapsed now, since := none }

/-- The root's own ABORT of a cut of the group is still on its way to the device itself. -/
def State.cutAborting (s : State) (grp : Nat) : Bool :=
  s.agenda.any (fun m => match m with
    | .cutAbort g _ _ => g == grp
    | _ => false)

/-- ARRIVE (08 R209, R215): the timer runs from the first to the last; with all, APPLY goes out. One that comes once the root has sent
ABORT is of the aborted launch (notes/assumptions/84). -/
def execArrive (grp n dev : Nat) (ended : Bool) (s : State) : Out :=
  match (s.groupRun grp).filter (fun _ => !s.cutAborting grp) with
  | none => .next s
  | some r =>
    let new : RootCut := { group := grp, n := n, members := max 1 r.d, arrived := [], reports := [], sentApply := false,
                           count := 0, since := if s.timersHeld grp then none else some s.dcyc, ended := [] }
    let q := (s.root? grp n).getD new
    let q := { q with arrived := without dev q.arrived ++ [dev],
                      ended := if ended then without dev q.ended ++ [dev] else q.ended }
    if q.arrived.length < q.members ∨ q.sentApply then .next (s.setRoot q)
    else .next ((s.domainPeers r).foldl (fun s p => s.post p (.apply grp n))
      (s.setRoot { q.pause s.dcyc with sentApply := true }))

/-- The combined status of the members' reports (08 R209): the worst STATUS, the counts summed with saturation. -/
def combine (n : Nat) (ws : List Word) : Word :=
  let f (lo w : Nat) : List Nat := ws.map (fun v => fld v.toNat lo w)
  cutWord ((f 0 2).foldl max 0) (f 8 16).sum (f 24 16).sum (f 40 16).sum n

/-- REPORT (08 R209): with all, DONE goes out; the last cut is that at which every member's tasks had ended (08 R193). -/
def execReport (grp n dev : Nat) (st : Word) (s : State) : Out :=
  match s.groupRun grp, s.root? grp n with
  | some r, some q =>
    let reps := q.reports.filter (fun e => e.1 != dev) ++ [(dev, st)]
    if reps.length < q.members then .next (s.setRoot { q with reports := reps })
    else
      let w := combine n (reps.map Prod.snd)
      let s := { s with roots := s.roots.filter (fun p => !(p.group == grp && p.n == n)) }
      .next ((s.domainPeers r).foldl (fun s p => s.post p (.done grp n w (q.ended.length == q.members))) s)
  | _, _ => .next s

/-- SUSPEND (08 R215): the timers of the group stand while any device is suspended. -/
def execSuspend (grp n dev : Nat) (s : State) : Out :=
  let _ := n
  .next { s with
    held := without (grp, dev) s.held ++ [(grp, dev)],
    roots := s.roots.map (fun q => if q.group = grp then q.pause s.dcyc else q) }

/-- RESUME (08 R215). -/
def execResume (grp n dev : Nat) (s : State) : Out :=
  let _ := n
  let s := { s with held := without (grp, dev) s.held }
  if s.timersHeld grp then .next s
  else .next { s with roots := s.roots.map (fun q =>
    if q.group = grp ∧ ¬q.sentApply ∧ q.since.isNone then { q with since := some s.dcyc } else q) }

/-- The lowest domain index that has not arrived. -/
def RootCut.missing (q : RootCut) : Nat :=
  ((upFrom 0 q.members).find? (fun i => !q.arrived.contains i)).getD 0

/-- SKEW_TIMER_EXPIRY (08 R215): past CUTTMO.LIM × 2^16 router cycles the root sends ABORT. -/
def execSkewTimerExpiry (grp n : Nat) (s : State) : Out :=
  match s.groupRun grp, s.root? grp n with
  | some r, some q =>
    if q.sentApply ∨ s.cuttmo = 0 ∨ q.elapsed s.dcyc ≤ s.cuttmo * 2 ^ 16 then .next s
    else .next (s.sendCutAbort r n (some q.missing))
  | _, _ => .next s

end Sys2Proof.Machine
end

