-- ==== Sys2Proof/Machine/Sends.lean ====
section
/-! DEFINITION. Register sends, the inbox and the mailbox (06 R158, R159; 05 R112). -/

namespace Sys2Proof.Machine

/-- The core that bits [14:0] of the register named by a remote descriptor give, and the file and index it names (05 R123). -/
def remoteReg (x : Bool) : Desc → Option Reg
  | .remote t _ _ => some (if x then .s t.toNat else .g t.toNat)
  | _ => none

/-- File and index of a remote descriptor. -/
def remoteFile : Desc → BitVec 2 × BitVec 5
  | .remote _ f i => (f, i)
  | _ => (0, 0)

/-- The task on core `t` where it belongs to the launch of core `n` (06 R159). -/
def State.fellow (s : State) (n t : Nat) : Option Task :=
  ((s.core t).task).filter (fun k => (s.core n).task.any (fun m => m.run == k.run))

/-- A send to the core that register `tgt` names (06 R158, R159): SEND_TARGET where it runs no task of the sender's launch. -/
def sendTo (h : Hdr) (d : Desc) (tgt : Reg) (s : State) (value : Nat × State) : Out :=
  let n := s.cur.core
  let t := s.me.reg tgt % 2 ^ 15
  match s.fellow n t with
  | none => trap 0x0B 0 0 t s
  | some k =>
    let m : SendMsg := { dst := t, run := k.run, wid := k.wid, file := (remoteFile d).1, index := (remoteFile d).2,
                         value := value.1, ctx := s.ctxOf n }
    retire h { value.2 with agenda := value.2.agenda ++ [.sendArrival m] }

/-- SEND (06 R158). -/
def execSend (h : Hdr) (d a : Desc) (s : State) : Out :=
  issue (.send h d a) s fun s =>
    match remoteReg false d with
    | none => trap 0x01 0 0 0 s
    | some tgt =>
      withNeeds ((srcNeeds s.cur.x a).and (needs [tgt] [])) s fun s => sendTo h d tgt s ((s.take a).1.toNat, (s.take a).2)

/-- VSEND (06 R158). -/
def execVsend (h : Hdr) (d a : Desc) (s : State) : Out :=
  issue (.vsend h d a) s fun s =>
    match remoteReg true d, regOf true a with
    | some tgt, some v => withNeeds (needs [tgt, v] []) s fun s => sendTo h d tgt s (s.me.reg v, s)
    | _, _ => trap 0x01 0 0 0 s

/-- SEND_LATE (06 R159, 16 R428). -/
def State.sendLate (s : State) (code dst file idx off : Nat) (cx : Ctx) : State :=
  s.errRecord 0x08 false code cx 0 (dst + 2 ^ 16 * file + 2 ^ 18 * idx + 2 ^ 32 * off) 0

/-- Whether core `dst` still runs the task that a message was sent to (06 R159, 13 R331). -/
def State.awaits (s : State) (dst run : Nat) (wid : Word) : Bool :=
  (s.core dst).task.any (fun t => t.run == run && t.wid == wid)

/-- Whether an earlier send of the same source is held at the target (06 R159). -/
def State.behindHeld (s : State) (m : SendMsg) : Bool := (s.core m.dst).held.any (fun q => q.ctx.core == m.ctx.core)

/-- SEND_ARRIVAL (06 R159): a full inbox holds the message; a late one is discarded with a record. -/
def execSendArrival (m : SendMsg) (s : State) : Out :=
  if !s.awaits m.dst m.run m.wid then .next (s.sendLate 0 m.dst m.file.toNat m.index.toNat 0 m.ctx)
  else if s.behindHeld m then .next s
  else
    let c := (s.core m.dst).arrival
    .next (s.setCore m.dst
      (if m.file = 0 then c.setReg (.g (32 + m.index.toNat)) 1 m.value
       else if m.file = 1 then c.setReg (.v m.index.toNat) allLanes m.value
       else if c.inbox.length < 32 then { c with inbox := c.inbox ++ [BitVec.ofNat 64 m.value] }
       else { c with held := c.held ++ [m] }))

/-- HELD_SEND_DELIVERY (06 R159): the oldest held send once a word frees. -/
def execHeldSendDelivery (core : Nat) (s : State) : Out :=
  let c := s.core core
  match c.held with
  | m :: ms =>
    if c.inbox.length < 32 then
      .next (s.setCore core { c.arrival with inbox := c.inbox ++ [BitVec.ofNat 64 m.value], held := ms })
    else .next s
  | [] => .next s

/-! ### The mailbox (05 R112) -/

/-- A copy channel whose clip-box message has been placed (09 R239). -/
def Core.clipPlaced (c : Core) (ch : Option Nat) : Core :=
  match ch with
  | some k =>
    match tget none k c.copies with
    | some r => { c with copies := tput none k (some { r with clipSt := 2 }) c.copies }
    | none => c
  | none => c

/-- An entry for a core's mailbox, with the copy channel it is a clip box of: held where the mailbox is full. -/
def Core.placeMail (c : Core) (ch : Option Nat) (ws : List Word) : Core :=
  if c.mail.length < 16 ∧ c.heldMail = [] then { c.arrival with mail := c.mail ++ [ws] }.clipPlaced ch
  else { c with heldMail := c.heldMail ++ [(ch, ws)] }

/-- MAILBOX_PLACEMENT (05 R112): the oldest held entry once one frees. -/
def execMailboxPlacement (core : Nat) (s : State) : Out :=
  let c := s.core core
  match c.heldMail with
  | (ch, ws) :: es =>
    if c.mail.length < 16 then .next (s.setCore core ({ c.arrival with mail := c.mail ++ [ws], heldMail := es }.clipPlaced ch))
    else .next s
  | [] => .next s

end Sys2Proof.Machine
end

