-- ==== Sys2Proof/Machine/Copy.lean ====
section
/-! DEFINITION. Copies between device memory and local memory: CPY, its elements, its clip-box message and its completion
(09 R233 to R241). -/

namespace Sys2Proof.Machine

/-! ### Shape (09 R234, R235) -/

/-- Elements of a copy. -/
def dimsTotal (ds : List CopyDim) : Nat := ds.foldl (fun a d => a * d.ext) 1

/-- Coordinates of the element at a traversal index, dimension 0 first. -/
def coords : List CopyDim → Nat → List Nat
  | [], _ => []
  | d :: ds, i => i % d.ext :: coords ds (i / d.ext)

/-- Whether the element at an index is in bounds (09 R235). -/
def CopyRun.inBounds (r : CopyRun) (i : Nat) : Bool := (r.dims.zip (coords r.dims i)).all (fun e => decide (e.2 < e.1.bnd))

/-- LM offset and device address of the element at an index (09 R235). -/
def CopyRun.lmAt (r : CopyRun) (i : Nat) : Nat := r.dlm + ((r.dims.zip (coords r.dims i)).map (fun e => e.2 * e.1.pitch)).sum
def CopyRun.vaAt (r : CopyRun) (i : Nat) : Nat :=
  (((r.va : Int) + ((r.dims.zip (coords r.dims i)).map (fun (e : CopyDim × Nat) => (e.2 : Int) * e.1.stride)).sum) % 2 ^ 64).toNat

/-- Dimension `k` of a shape record at LM offset `a` (09 R234). -/
def dimAt (lm : Table Byte) (a k : Nat) : CopyDim :=
  let n := rdLe lm (a + 16 + 12 * k) 12
  { ext := fld n 0 16, bnd := fld n 16 16, stride := toS (fld n 32 48) 48, pitch := fld n 80 16 }

/-- Whether the dimensions meet the checks of 09 R234; `low` is what the first pitch must reach. -/
def dimsOk (esz : Nat) : Nat → List CopyDim → Bool
  | _, [] => true
  | low, d :: ds =>
    d.ext != 0 && d.pitch % esz == 0 && decide (low ≤ d.pitch) && d.stride % (esz : Int) == 0 &&
    dimsOk esz (d.pitch * d.ext) ds

/-- The copy that a shape record at LM offset `a` describes, or none where it breaks 09 R234 or R241. -/
def readShape (lm : Table Byte) (a : Nat) (f : CpyForm) (cword : Nat) (peers : Word) : Option CopyRun :=
  let w := rdLe lm a 8
  let nd := fld w 57 4
  let esz := 2 ^ fld w 61 2
  let dims := (upFrom 0 nd).map (dimAt lm a)
  let dlm := rdLe lm (a + 8) 2
  let va := fld w 0 57
  let lmEnd := dlm + esz + (dims.map (fun d => (d.ext - 1) * d.pitch)).sum
  let zero := rdLe lm (a + 10) 6 == 0 && rdLe lm (a + 124) 4 == 0 && !bitAt w 63 &&
    (upFrom nd (9 - nd)).all (fun k => rdLe lm (a + 16 + 12 * k) 12 == 0)
  let word := !f.cw || (cword % 8 == 0 && !inIdent cword && !(decide (cword < lmEnd) && decide (dlm < cword + 8)) &&
    decide (cword + 8 ≤ 65536))
  if zero && decide (1 ≤ nd) && decide (nd ≤ 9) && dlm % esz == 0 && va % esz == 0 && dimsOk esz esz dims &&
      decide (lmEnd ≤ 65536) && word && !(f.rule == 3 && esz != 8) then
    some { form := f, run := none, space := 0, sup := false, va := va, esz := esz, dlm := dlm, dims := dims, cword := cword,
           peers := peers, next := 0, wm := dlm, lmEnd := lmEnd, moved := 0, faulted := 0, fault1 := none,
           ropHeld := none, clipped := false, clipSt := 0, seqBase := 0, gran := none, grans := 0, lastLine := none,
           vec := [], ctx := { task := false, launch := 0, wid := 0, take := 0, core := 0, peer := 0 } }
  else none

/-- Destination granules of a copy (09 R241): runs of in-bounds elements in one 64-byte line, from index `i` on. -/
def countGranules (r : CopyRun) (i : Nat) (line : Option Nat) (n : Nat) : Nat → Nat
  | 0 => n
  | f + 1 =>
    if !r.inBounds i then countGranules r (i + 1) line n f
    else
      let l := r.vaAt i / 64
      countGranules r (i + 1) (some l) (if line = some l then n else n + 1) f

/-! ### The watermark (09 R236) -/

/-- Full bits of the LM words whose last byte of the range the watermark passes (09 R236). -/
def Core.fillRange (c : Core) (r : CopyRun) (w0 w1 : Nat) : Core :=
  if !r.form.fe then c
  else
    (upFrom (w0 / 8) (w1 / 8 + 1 - w0 / 8)).foldl (fun c w =>
      let b := min (8 * w + 7) (r.lmEnd - 1)
      if w0 ≤ b ∧ b < w1 then c.setLmFull (8 * w) true else c) c

/-- The index after the out-of-bounds elements from `i` on, and whether there was one. -/
def passOut (r : CopyRun) (i : Nat) : Nat → Nat
  | 0 => i
  | f + 1 => if r.inBounds i then i else passOut r (i + 1) f

/-- A copy whose elements before index `i` are dealt with: the out-of-bounds elements from there are passed at once, the
watermark goes to the end of the last element passed. -/
def State.advanceCopy (s : State) (n ch : Nat) (r : CopyRun) (i : Nat) : State :=
  let total := dimsTotal r.dims
  let j := passOut r i (total - i)
  let wm := if total ≤ j then r.lmEnd else if j = 0 then r.dlm else r.lmAt (j - 1) + r.esz
  let q := { r with next := j, wm := wm, clipped := r.clipped || decide (i < j) }
  let c := (s.core n).fillRange r r.wm wm
  s.setCore n { c with copies := tput none ch (some q) c.copies }

/-! ### CPY (09 R233, R234) -/

/-- The peers that an element's record goes to (09 R241): with MC, (P AND 0xFC0) + j for each set bit j. -/
def CopyRun.branches (r : CopyRun) (peer : Nat) : List Nat :=
  if r.form.mc then ((upFrom 0 64).filter (fun j => r.peers.getLsbD j)).map (fun j => peer / 64 * 64 + j) else [peer]

/-- The launch of a copy where it is a take launch. -/
def State.copyTake (s : State) (r : CopyRun) : Option Run := (r.run.bind s.run?).filter (fun q => q.takeLv.isSome)

/-- Why an element's page on another device is refused (09 R234, R237): 3 outside a take launch, 2 outside the cut group, 1 a
non-published page in a load copy. -/
def State.remoteFault (s : State) (r : CopyRun) (t : TlbEntry) (va : Nat) : Option Nat :=
  let peer := paPeer (t.addr va)
  if peer = s.peerid ∧ !r.form.mc then none
  else
    match s.copyTake r with
    | none => some 3
    | some q =>
      if !s.inGroup q peer || (r.form.dir && (r.branches peer).any (fun p => !s.inGroup q p)) then some 2
      else if !r.form.dir && peer != s.peerid && !leafPub t.leaf then some 1
      else none

/-- CPY (09 R233 to R236). -/
def execCpy (h : Hdr) (f : CpyForm) (s : State) : Out :=
  issue (.cpy h f) s fun s =>
    let n := s.cur.core
    let ch := f.ch.toNat
    let regs := [Reg.g f.gs.toNat] ++ (if f.cw then [.g f.gc.toNat] else []) ++ (if f.mc then [.g f.gm.toNat] else [])
    withNeeds (needs regs []) s fun s =>
      let a := s.me.reg (.g f.gs.toNat) % 2 ^ 16
      let start (r : CopyRun) (s : State) : Out :=
        let total := dimsTotal r.dims
        let r := { r with run := s.me.task.map Task.run, space := (s.asker n).space, sup := s.me.level != .t,
                          seqBase := (s.me.task.map Task.seq).getD 0, vec := if f.acq then s.vecOf (dieOf n) else [],
                          ctx := s.ctxOf n }
        let s := if f.dir && (s.takeRun n).isSome then
            s.mapTask n (fun t => { t with seq := t.seq + countGranules r 0 none 0 total }) else s
        retire h (s.advanceCopy n ch r 0)
      if (tget none ch s.me.copies).isSome then stall s
      else if (s.takeRun n).isNone && (f.mc || f.rule != 0) then trap 0x05 0 0 f.scope.toNat s
      else if a % 16 ≠ 0 ∨ 65536 < a + 128 then trap 0x17 0 0 a s
      else if s.me.lmBlocked a 128 false then stall s
      else
        let shape := readShape (s.me.lmView false) a f (s.me.reg (.g f.gc.toNat) % 2 ^ 16)
          (BitVec.ofNat 64 (s.me.reg (.g f.gm.toNat)))
        let body (sc : Nat) (s : State) : Out :=
          match shape with
          | none => trap 0x17 0 0 a s
          | some r =>
            withEnginePage r.va (!f.dir) f.dir s fun t s =>
              match s.remoteFault { r with run := s.me.task.map Task.run } t r.va with
              | some 1 => trap 0x13 0 0 r.va s
              | some _ => trap 0x14 0 0 r.va s
              | none => if f.acq then withRelease sc s (start r) else start r s
        if f.acq || f.rel then withScope f.scope s body else body 0 s

/-! ### Elements (09 R236, R237, R241) -/

/-- A faulted element counted, the first with its address, index and reason (09 R237). -/
def CopyRun.fault (r : CopyRun) (va why : Nat) : CopyRun :=
  { r with faulted := r.faulted + 1, fault1 := some (r.fault1.getD (va, r.next, why)) }

/-- An element's translation, as the copy's issuing stream had it checked; none where it must wait. -/
def State.elementPage (s : State) (n : Nat) (r : CopyRun) (va : Nat) : Option (Option TlbEntry × State) :=
  let q := { s.engineAsker n with space := r.space, user := !r.sup, ctx := r.ctx }
  match reachEngine q va (!r.form.dir) r.form.dir (s.translate q va) with
  | (.page t, s) => some (some t, s)
  | (.trap .., s) => some (none, s)
  | (.wait, _) => none

/-- The bytes of an element of a load copy; none where it must wait. -/
def State.elementData (s : State) (n : Nat) (r : CopyRun) (t : TlbEntry) (va : Nat) : Option (List Byte × State) :=
  let pa := t.addr va
  let take := (s.copyTake r).isSome
  if paPeer pa = s.peerid then
    if s.takeWait n true (take && leafPub t.leaf) || !s.covers (homeOf (paLocal pa)) r.vec then none
    else
      let (v, s) := (s.touch (paLocal pa)).homeGet 1 r.ctx false va (paLocal pa) r.esz
      some (leBytes v r.esz, s)
  else if s.takeWait n false true then none
  else if s.reachable (paPeer pa) then some (s.remoteBytes pa r.esz, s.pulled n pa)
  else some (leBytes 0 r.esz, s.errRecord 0x02 true (s.portFor n (paPeer pa)) r.ctx va (paPeer pa) 2)

/-- One element of a load copy: the copy and the state after it; none where it must wait. -/
def State.loadElement (s : State) (n : Nat) (r : CopyRun) : Option (CopyRun × State) :=
  let va := r.vaAt r.next
  match s.elementPage n r va with
  | none => none
  | some (none, s) => some (r.fault va 0, s)
  | some (some t, s) =>
    match s.remoteFault r t va with
    | some why => some (r.fault va why, s)
    | none =>
      match s.elementData n r t va with
      | none => none
      | some (bs, s) =>
        let c := (s.core n).arrival
        some ({ r with moved := r.moved + 1 }, s.setCore n { c with lm := lmPut c.lm (r.lmAt r.next) bs })

/-- The granule of a store copy sent, one record to each branch that is deferred (09 R241). -/
def State.sendGranule (s : State) (n ch : Nat) (r : CopyRun) : State :=
  match r.gran with
  | none => s
  | some g =>
    let peers := (r.branches (paPeer g.pa)).filter (fun p => !(r.form.mc && p == s.peerid && !g.pub))
    let rule := r.form.rule.toNat
    peers.foldl (fun s p =>
      let d := { s.newRec n p (paLocal g.pa) g.va rule 1 (recEsz rule r.esz) (recSgn rule r.esz r.form.sgn) g.mask g.data with
                 seq := r.seqBase + g.seq, copyId := some (n, ch) }
      if d.seq < 2 ^ 32 then s.sendRec d
      else
        let key := 2 * d.group + d.take % 2
        { s with overrun := tput 0 key (tget 0 key s.overrun + 1) s.overrun }.errTask 0x04 true 1 r.ctx 0 1 0 2) s

/-- A direct write of an element: a request of the die that holds the streamer (07 R171). -/
def State.copyWrite (s : State) (n ch : Nat) (r : CopyRun) (pa va : Nat) (bs : List Byte) : State :=
  s.send { id := 0, owner := .copy n ch, die := dieOf n, pa := s.peerid * 2 ^ 45 + paLocal pa, va := va, space := r.space,
           kind := .store bs, st := .flight, seq := 0, prev := 0, vec := r.vec, pend := none, cache := false,
           pub := false, delay := 0, ctx := r.ctx }

/-- An element's bytes put into the granule that is being formed (09 R241). -/
def CopyRun.addGranule (r : CopyRun) (t : TlbEntry) (va : Nat) (bs : List Byte) : CopyRun :=
  let pa := t.addr va
  let g := r.gran.getD { pa := pa / 64 * 64, va := va / 64 * 64, pub := leafPub t.leaf, seq := r.grans - 1, mask := 0,
                         data := List.replicate 64 0 }
  let off := pa % 64
  { r with gran := some { g with mask := g.mask ||| lineBits pa bs.length,
                                 data := g.data.take off ++ bs ++ g.data.drop (off + bs.length) } }

/-- One element of a store copy: the copy and the state after it; none where it must wait. -/
def State.storeElement (s : State) (n ch : Nat) (r : CopyRun) : Option (CopyRun × State) :=
  let va := r.vaAt r.next
  let fresh := r.lastLine != some (va / 64)
  let s := if fresh then s.sendGranule n ch r else s
  let r := if fresh then { r with gran := none, grans := r.grans + 1, lastLine := some (va / 64) } else r
  match s.elementPage n r va with
  | none => none
  | some (none, s) => some (r.fault va 0, s)
  | some (some t, s) =>
    match s.remoteFault r t va with
    | some why => some (r.fault va why, s)
    | none =>
      if leafRop t.leaf then
        some ({ r with ropHeld := some (match r.ropHeld with
                         | some (v, k) => (v, k + 1)
                         | none => (va, 1)) }, s)
      else
        let pa := t.addr va
        let take := (s.copyTake r).isSome
        let bs := tgets 0 (r.lmAt r.next) r.esz (s.core n).lm
        let brs := r.branches (paPeer pa)
        let own := !take || (brs.contains s.peerid && !leafPub t.leaf)
        let far := take && brs.any (fun p => !(p == s.peerid && !leafPub t.leaf))
        if own && s.takeWait n true false then none
        else
          let s := s.markDirty t
          let s := if own then s.copyWrite n ch r pa va bs else s
          some ({ (if far then r.addGranule t va bs else r) with moved := r.moved + 1 }, s)

/-- COPY_ELEMENT (09 R236): the next element of a copy. -/
def execCopyElement (core ch : Nat) (s : State) : Out :=
  match tget none ch (s.core core).copies with
  | none => .next s
  | some r =>
    if dimsTotal r.dims ≤ r.next then .next s
    else
      match (if r.form.dir then s.storeElement core ch r else s.loadElement core r) with
      | none => .next s
      | some (q, s) =>
        let s := s.advanceCopy core ch q (q.next + 1)
        .next (match tget none ch (s.core core).copies with
          | some p =>
            if dimsTotal p.dims ≤ p.next then
              let s := s.sendGranule core ch p
              s.setCore core { s.core core with copies := tput none ch (some { p with gran := none }) (s.core core).copies }
            else s
          | none => s)

/-! ### Completion (09 R239, R240) -/

/-- Every element is moved and every write applied, acknowledged or failed (09 R240 step 1). -/
def State.copyWritten (s : State) (n ch : Nat) (r : CopyRun) : Bool :=
  decide (dimsTotal r.dims ≤ r.next) && !s.reqs.any (fun q => q.owner == .copy n ch) &&
  !s.sent.any (fun q => q.copyId == some (n, ch))

/-- The words of a clip-box message (09 R239). -/
def clipBox (ch : Nat) (r : CopyRun) : List Word :=
  let empty := r.dims.any (fun d => d.bnd == 0)
  let w0 := 1 + 2 ^ 8 * ch + 2 ^ 11 * r.dims.length + 2 ^ 15 * b01 empty
  let side (k : Nat) : Nat := match r.dims[k]? with
    | some d => min d.bnd d.ext
    | none => 0
  let w (j : Nat) : Word := BitVec.ofNat 64 (mkLanes side 16 (4 * j) 4)
  [BitVec.ofNat 64 w0, w 0, w 1, w 2, 0, 0, 0, 0]

/-- The release that an engine of a die performs at a scope (07 R189). -/
def State.engineRelease (s : State) (d sc : Nat) : State := if 4 ≤ sc then s.takeHorizon d else s

/-- The physical scope of a command's flags. -/
def State.copyScope (s : State) (n : Nat) (f : BitVec 5) : Nat := (s.scopeOf n f).getD 0

/-- Whether the release of a copy need not wait (07 R177, R189): it has none, or nothing of its task stands out at its scope. -/
def State.copyReleases (s : State) (n : Nat) (r : CopyRun) : Bool :=
  !r.form.rel || !s.farBusy n r.run r.ctx.wid (s.copyScope n r.form.scope)

/-- CLIP_BOX_MESSAGE (09 R239, R240): after the writes and the release. -/
def execClipBoxMessage (core ch : Nat) (s : State) : Out :=
  match tget none ch (s.core core).copies with
  | none => .next s
  | some r =>
    if !(s.copyWritten core ch r && r.clipped && r.clipSt == 0 && s.copyReleases core r) then .next s
    else
      let s := if r.form.rel then s.engineRelease (dieOf core) (s.copyScope core r.form.scope) else s
      let c := s.core core
      let c := { c with copies := tput none ch (some { r with clipSt := 1 }) c.copies }
      .next (s.setCore core (c.placeMail (some ch) (clipBox ch r)))

/-- COPY_COMPLETE (09 R237, R240): the release, the records of the copy, the completion word. -/
def execCopyComplete (core ch : Nat) (s : State) : Out :=
  match tget none ch (s.core core).copies with
  | none => .next s
  | some r =>
    if !(s.copyWritten core ch r && (if r.clipped then r.clipSt == 2 else s.copyReleases core r)) then .next s
    else
      let s := if r.form.rel && !r.clipped then s.engineRelease (dieOf core) (s.copyScope core r.form.scope) else s
      let s := match r.fault1 with
        | some (va, i, why) =>
          s.errTask 0x0D false 0 r.ctx va i (why + 2 ^ 8 * ch + 2 ^ 32 * r.faulted) 1
        | none => s
      let s := match r.ropHeld with
        | some (va, k) => s.errTask 0x09 false 0 r.ctx va k 0 1
        | none => s
      let c := s.core core
      let c := { c with copies := tput none ch none c.copies }
      .next (s.setCore core (if r.form.cw then
        let c := c.arrival
        { c with lm := lmPut c.lm r.cword (leBytes (r.moved % 2 ^ 32 + 2 ^ 32 * r.faulted) 8) }.setLmFull r.cword true
      else c))

end Sys2Proof.Machine
end

