-- ==== Sys2Proof/Machine/Float.lean ====
section
/-! DEFINITION. Exact values, the floating-point formats, rounding onto the unbounded grid, the overflow rules and the
counter events (03_number_formats.md, 04_rounding_and_sums.md). -/

namespace Sys2Proof.Machine

/-- An exact value: NaN, an infinity, or (-1)^neg * m * 2^e, where m = 0 is a signed zero (03 R62, R64). -/
inductive Ex where
  | nan
  | inf (neg : Bool)
  | fin (neg : Bool) (m : Nat) (e : Int)
  deriving DecidableEq, Repr

/-- Arithmetic events of one result element (04 R100). -/
structure Ev where
  ovf : Bool
  inf : Bool
  nan : Bool
  srs : Bool
  deriving DecidableEq, Repr

/-- No event. -/
def Ev.none : Ev := { ovf := false, inf := false, nan := false, srs := false }

/-- Events of one element counted together: each counter at most once (04 R100). -/
def Ev.or (a b : Ev) : Ev :=
  { ovf := a.ovf || b.ovf, inf := a.inf || b.inf, nan := a.nan || b.nan, srs := a.srs || b.srs }

/-- One NaN event. -/
def Ev.isNan : Ev := { Ev.none with nan := true }

/-- A rounding mode with its draw (04 R85, R88). -/
inductive Rm where
  | rne
  | rz
  | sr (draw : Nat)
  deriving DecidableEq, Repr

/-- 2^i for a natural number i, from an integer that is at least 0. -/
def p2 (i : Int) : Nat := 2 ^ i.toNat

namespace Ex

def isNan : Ex → Bool
  | .nan => true
  | _ => false

def isInf : Ex → Bool
  | .inf _ => true
  | _ => false

def isFin : Ex → Bool
  | .fin .. => true
  | _ => false

def isZero : Ex → Bool
  | .fin _ m _ => m == 0
  | _ => false

/-- Sign; NaN has none. -/
def sign : Ex → Bool
  | .nan => false
  | .inf n => n
  | .fin n _ _ => n

def neg : Ex → Ex
  | .nan => .nan
  | .inf n => .inf (!n)
  | .fin n m e => .fin (!n) m e

/-- +0. -/
def zero : Ex := .fin false 0 0

/-- The value of an integer; 0 is +0. -/
def ofInt (i : Int) : Ex := .fin (decide (i < 0)) i.natAbs 0

/-- The signed mantissa at exponent `q`, where `q` is at most the exponent of the value. -/
def units (x : Ex) (q : Int) : Int :=
  match x with
  | .fin n m e => let u : Int := (m * p2 (e - q) : Nat); if n then -u else u
  | _ => 0

/-- The exponent of a finite value. -/
def expo : Ex → Int
  | .fin _ _ e => e
  | _ => 0

/-- Product; the flag marks 0 times infinity (10 R256, 11 R302). The sign of a zero is the XOR of the signs. -/
def mul : Ex → Ex → Ex × Bool
  | .nan, _ => (.nan, false)
  | _, .nan => (.nan, false)
  | .inf a, .inf b => (.inf (a != b), false)
  | .inf a, .fin b m _ => if m = 0 then (.nan, true) else (.inf (a != b), false)
  | .fin a m _, .inf b => if m = 0 then (.nan, true) else (.inf (a != b), false)
  | .fin a m e, .fin b k f => (.fin (a != b) (m * k) (e + f), false)

/-- Sum; the flag marks opposite infinities. A zero sum is +0 unless both operands are -0 (10 R256). -/
def add : Ex → Ex → Ex × Bool
  | .nan, _ => (.nan, false)
  | _, .nan => (.nan, false)
  | .inf a, .inf b => if a = b then (.inf a, false) else (.nan, true)
  | .inf a, .fin .. => (.inf a, false)
  | .fin .., .inf b => (.inf b, false)
  | .fin a m e, .fin b k f =>
    let q := min e f
    let s := units (.fin a m e) q + units (.fin b k f) q
    if s = 0 then (.fin (a && b && m == 0 && k == 0) 0 0, false)
    else (.fin (decide (s < 0)) s.natAbs q, false)

/-- a < b for values that are not NaN; -0 and +0 are equal (03 R64). -/
def lt : Ex → Ex → Bool
  | .nan, _ => false
  | _, .nan => false
  | .inf a, .inf b => a && !b
  | .inf a, .fin .. => a
  | .fin .., .inf b => !b
  | .fin a m e, .fin b k f => let q := min e f; decide (units (.fin a m e) q < units (.fin b k f) q)

/-- a < b where -0 lies below +0 (10 R257, R269). -/
def ltz (a b : Ex) : Bool := a.lt b || (a.isZero && b.isZero && a.sign && !b.sign)

/-- floor(log2 |x|) of a nonzero finite value. -/
def log : Ex → Int
  | .fin _ m e => (lg m : Int) + e
  | _ => 0

/-- The value times 2^k. -/
def scale (x : Ex) (k : Int) : Ex :=
  match x with
  | .fin n m e => .fin n m (e + k)
  | y => y

end Ex

/-- Parameters of a floating-point format (03 R63): exponent bits, mantissa bits, bias, emax. -/
structure Fmt where
  eb   : Nat
  mb   : Nat
  bias : Nat
  emax : Nat
  deriving DecidableEq, Repr

/-- The bare floating formats by code 0 to 7 (03 R63, R76). -/
def fmtOf (f : Nat) : Fmt :=
  match f with
  | 0 => { eb := 8, mb := 23, bias := 127, emax := 127 }
  | 1 => { eb := 8, mb := 7, bias := 127, emax := 127 }
  | 2 => { eb := 5, mb := 10, bias := 15, emax := 15 }
  | 3 => { eb := 5, mb := 2, bias := 15, emax := 15 }
  | 4 => { eb := 4, mb := 3, bias := 7, emax := 8 }
  | 5 => { eb := 3, mb := 2, bias := 3, emax := 4 }
  | 6 => { eb := 2, mb := 3, bias := 1, emax := 2 }
  | _ => { eb := 2, mb := 1, bias := 1, emax := 2 }

/-- The element format of an MX code (03 R76). -/
def elemFmt (f : Nat) : Nat :=
  if f = 8 then 3 else if f = 9 then 4 else if f = 10 then 5 else if f = 11 then 6 else 7

/-- The exact value of an encoding in a bare floating format (03 R62 to R66). -/
def decodeF (f c : Nat) : Ex :=
  let p := fmtOf f
  let m := c % 2 ^ p.mb
  let e := c / 2 ^ p.mb % 2 ^ p.eb
  let s := bitAt c (p.mb + p.eb)
  if f ≤ 3 ∧ e = 2 ^ p.eb - 1 then (if m = 0 then .inf s else .nan)
  else if f = 4 ∧ e = 15 ∧ m = 7 then .nan
  else if e = 0 then .fin s m (1 - (p.bias : Int) - p.mb)
  else .fin s (2 ^ p.mb + m) ((e : Int) - p.bias - p.mb)

/-- The canonical NaN of a format that has one (03 R65); 0 for FP6 and FP4, which have none. -/
def canonNan (f : Nat) : Nat :=
  match f with
  | 0 => 0x7FC00000
  | 1 => 0x7FC0
  | 2 => 0x7E00
  | 3 => 0x7E
  | 4 => 0x7F
  | _ => 0

/-- The encoding of the largest finite magnitude (03 R63). -/
def maxCode (f : Nat) : Nat :=
  match f with
  | 0 => 0x7F7FFFFF
  | 1 => 0x7F7F
  | 2 => 0x7BFF
  | 3 => 0x7B
  | 4 => 0x7E
  | 5 => 0x1F
  | 6 => 0x1F
  | _ => 0x7

/-- The encoding of +infinity (03 R63), in the formats that have one. -/
def infCode (f : Nat) : Nat :=
  match f with
  | 0 => 0x7F800000
  | 1 => 0x7F80
  | 2 => 0x7C00
  | _ => 0x7C

/-- A sign put on a magnitude's encoding. -/
def signed (f : Nat) (neg : Bool) (c : Nat) : Nat :=
  if neg then c + 2 ^ ((fmtOf f).mb + (fmtOf f).eb) else c

/-- The number of units 2^q to which |x| = m * 2^e rounds (04 R86 to R88). -/
def roundUnits (rm : Rm) (m : Nat) (e q : Int) : Nat :=
  if q ≤ e then m * p2 (e - q)
  else
    let d := p2 (q - e)
    let lo := m / d
    let r := m % d
    match rm with
    | .rz => lo
    | .rne => if 2 * r < d then lo else if 2 * r > d then lo + 1 else if lo % 2 = 0 then lo else lo + 1
    | .sr o => if o < r * 2 ^ 32 / d then lo + 1 else lo

/-- The exponent of the unit of the unbounded grid of a format around m * 2^e (03 R77). -/
def gridExp (f : Nat) (m : Nat) (e : Int) : Int :=
  let p := fmtOf f
  max ((lg m : Int) + e - p.mb) (1 - (p.bias : Int) - p.mb)

/-- The encoding of a magnitude n * 2^q that lies on the grid within the finite range (03 R62). -/
def encodeF (f n : Nat) (q : Int) : Nat :=
  let p := fmtOf f
  if n = 0 then 0
  else
    let l := (lg n : Int) + q
    if l < 1 - (p.bias : Int) then n * p2 (q - (1 - (p.bias : Int) - p.mb))
    else (l + p.bias).toNat * 2 ^ p.mb + (n * 2 ^ p.mb / 2 ^ lg n - 2 ^ p.mb)

/-- Whether n * 2^q lies above the largest finite value (03 R77). -/
def overMax (f n : Nat) (q : Int) : Bool :=
  match decodeF f (maxCode f) with
  | .fin _ m e => (Ex.fin false m e).lt (.fin false n q)
  | _ => false

/-- What a finite value that overflows becomes, and its events (03 R79, R80); `prop` is the SAT/PROP bit. -/
def overflowF (f : Nat) (prop : Bool) (rm : Rm) (neg : Bool) : Nat × Ev :=
  let srs := match rm with
    | .sr _ => true
    | _ => false
  let ev := { Ev.none with ovf := true, srs := srs }
  if f ≤ 2 then
    (match rm with
     | .rz => (signed f neg (maxCode f), ev)
     | _ => (signed f neg (infCode f), { ev with inf := true }))
  else if f = 3 ∧ prop then (signed f neg (infCode f), { ev with inf := true })
  else if f = 4 ∧ prop then (canonNan f, { ev with nan := true })
  else (signed f neg (maxCode f), ev)

/-- What an infinity becomes in a floating destination (03 R79). -/
def infF (f : Nat) (prop : Bool) (neg : Bool) : Nat × Ev :=
  if f ≤ 3 then (signed f neg (infCode f), Ev.none)
  else if f = 4 ∧ prop then (canonNan f, { Ev.none with ovf := true, nan := true })
  else (signed f neg (maxCode f), { Ev.none with ovf := true })

/-- What a NaN becomes in a bare floating destination (03 R79). -/
def nanF (f : Nat) : Nat × Ev := (canonNan f, if f ≤ 4 then Ev.none else Ev.isNan)

/-- Conversion of an exact value to a bare floating format: one rounding, then 03 R78 and R79 (04 R86, R87). -/
def toF (f : Nat) (prop : Bool) (rm : Rm) : Ex → Nat × Ev
  | .nan => nanF f
  | .inf n => infF f prop n
  | .fin n m e =>
    if m = 0 then (signed f n 0, Ev.none)
    else
      let q := gridExp f m e
      let u := roundUnits rm m e q
      if overMax f u q then overflowF f prop rm n else (signed f n (encodeF f u q), Ev.none)

/-- Conversion to an integer of `w` bits (03 R79, R81). -/
def toInt (w : Nat) (sgn : Bool) (rm : Rm) : Ex → Nat × Ev
  | .nan => (0, Ev.isNan)
  | .inf n =>
    (if sgn then (if n then 2 ^ (w - 1) else 2 ^ (w - 1) - 1) else if n then 0 else 2 ^ w - 1, { Ev.none with ovf := true })
  | .fin n m e =>
    let u := roundUnits rm m e 0
    let i : Int := if n then -(u : Int) else u
    let lo : Int := if sgn then -(2 ^ (w - 1) : Nat) else 0
    let hi : Int := if sgn then (2 ^ (w - 1) : Nat) - 1 else (2 ^ w : Nat) - 1
    let srs := match rm with
      | .sr _ => true
      | _ => false
    if i < lo then (ofS lo w, { Ev.none with ovf := true, srs := srs })
    else if hi < i then (ofS hi w, { Ev.none with ovf := true, srs := srs })
    else (ofS i w, Ev.none)

/-- Conversion of x * 2^-k to a BSI lane (03 R79, R82). -/
def toBsi (k : Int) (rm : Rm) (x : Ex) : Nat × Ev :=
  let lim : Nat := 2 ^ 50 - 1
  match x.scale (-k) with
  | .nan => (0, Ev.isNan)
  | .inf n => (ofS (if n then -(lim : Int) else lim) 64, { Ev.none with ovf := true })
  | .fin n m e =>
    let u := roundUnits rm m e 0
    let srs := match rm with
      | .sr _ => true
      | _ => false
    let ev := if lim < u then { Ev.none with ovf := true, srs := srs } else Ev.none
    let v : Int := min u lim
    (ofS (if n then -v else v) 64, ev)

/-- Conversion to E8M0 (03 R68). -/
def toE8m0 : Ex → Nat × Ev
  | .nan => (0xFF, Ev.none)
  | .inf _ => (0xFF, Ev.isNan)
  | .fin n m e =>
    if m = 0 then (0, Ev.none)
    else
      let c := (Ex.fin n m e).log + 127
      if c < 0 then (0, { Ev.none with ovf := true })
      else if 0xFE < c then (0xFE, { Ev.none with ovf := true })
      else (c.toNat, Ev.none)

/-- The value of an E8M0 scale (03 R67). -/
def ofE8m0 (x : Nat) : Ex := if x = 0xFF then .nan else .fin false 1 ((x : Int) - 127)

/-- The exact value of an element of an MX block with scale `x` (03 R69). -/
def mxVal (ef x c : Nat) : Ex := if x = 0xFF then .nan else (decodeF ef c).scale ((x : Int) - 127)

/-- The shared exponent of a group of exact values in element format `ef`, before and after clamping (03 R84). -/
def mxExp (ef : Nat) (xs : List Ex) : Int × Int :=
  let ls := (xs.filter (fun x => x.isFin && !x.isZero)).map Ex.log
  let xe : Int := match ls with
    | [] => -127
    | l :: r => r.foldl max l - (fmtOf ef).emax
  (xe, max (-127) (min 127 xe))

/-- Whether the block rule of 03 R84 makes the block NaN: a NaN in an FP6 or FP4 block. -/
def mxNan (ef : Nat) (xs : List Ex) : Bool := decide (5 ≤ ef) && xs.any Ex.isNan

/-- One element of an MX block whose shared exponent is `x`, `xe` before clamping (03 R84). -/
def mxElement (ef : Nat) (prop : Bool) (rm : Rm) (xe x : Int) (v : Ex) : Nat × Ev :=
  match v with
  | .fin n m e =>
    if m = 0 then (signed ef n 0, Ev.none)
    else
      let q := gridExp ef m (e - x)
      let u := roundUnits rm m (e - x) q
      if overMax ef u q then
        (if x = xe then (signed ef n (maxCode ef), Ev.none) else overflowF ef prop rm n)
      else (signed ef n (encodeF ef u q), Ev.none)
  | y => toF ef prop rm y

/-- A term of a window sum; `made` marks a NaN that arose inside the instruction (04 R93). -/
structure Term where
  v    : Ex
  made : Bool
  deriving DecidableEq, Repr

/-- An exact product as a term. -/
def Term.prod (a b : Ex) : Term := let (v, bad) := a.mul b; { v := v, made := bad }

/-- An operand as a term. -/
def Term.of (v : Ex) : Term := { v := v, made := false }

/-- The exact sum of the terms, each truncated at 2^(Emax - 87), with the exponent of its unit (04 R93). -/
def windowUnits (ts : List Ex) : Int × Int :=
  match (ts.filter (fun x => x.isFin && !x.isZero)).map Ex.log with
  | [] => (0, 0)
  | l :: r =>
    let q := r.foldl max l - 87
    let tr (x : Ex) : Int := match x with
      | .fin n m e => let u : Int := roundUnits .rz m e q; if n then -u else u
      | _ => 0
    (ts.foldl (fun a x => a + tr x) 0, q)

/-- The window sum of a set of terms, rounded once into format `f` (04 R93); of no term it is +0 (11 R299). -/
def windowSum (f : Nat) (prop : Bool) (rm : Rm) (ts : List Term) : Nat × Ev :=
  let xs := ts.map Term.v
  let pos := xs.any (fun x => x == .inf false)
  let neg := xs.any (fun x => x == .inf true)
  if xs.any Ex.isNan || (pos && neg) then
    (canonNan f, if ts.any Term.made || (pos && neg) then Ev.isNan else Ev.none)
  else if pos then (infCode f, Ev.none)
  else if neg then (signed f true (infCode f), Ev.none)
  else if xs.all Ex.isZero then (signed f (!xs.isEmpty && xs.all Ex.sign) 0, Ev.none)
  else
    let (s, q) := windowUnits xs
    if s = 0 then (0, Ev.none) else toF f prop rm (.fin (decide (s < 0)) s.natAbs q)

/-- The term of one MX block pair (04 R95): element formats, scales and the paired elements. R95 gives the sign of a zero term for 32
products; of fewer (a sparse GMMA.F keeps some) it is −0 where all that are kept are −0, and +0 where none is, the model's choice
(notes/assumptions/80). -/
def blockTerm (xa xb : Nat) (ps : List (Ex × Ex)) : Term :=
  let prods := ps.map (fun p => p.1.mul p.2)
  let pos := prods.any (fun p => p.1 == .inf false)
  let neg := prods.any (fun p => p.1 == .inf true)
  if xa = 0xFF || xb = 0xFF || prods.any (fun p => p.1.isNan) || (pos && neg) then { v := .nan, made := true }
  else if pos then Term.of (.inf false)
  else if neg then Term.of (.inf true)
  else
    let q : Int := prods.foldl (fun a p => min a p.1.expo) 0
    let s : Int := prods.foldl (fun a p => a + p.1.units q) 0
    if s = 0 then Term.of (.fin (!ps.isEmpty && prods.all (fun p => p.1.isZero && p.1.sign)) 0 0)
    else Term.of (.fin (decide (s < 0)) s.natAbs (q + ((xa : Int) - 127) + ((xb : Int) - 127)))

/-- Constants of the generator (04 R91). -/
def kmM0 : Nat := 0x8E3AF5D12B974C69
def kmM1 : Nat := 0xB4C71E935D2A60F7
def kmW : Nat := 0x6A1D47C3B58E2F91

/-- One round of KM4 (04 R91). -/
def kmRound (k r : Nat) (ab : Nat × Nat) : Nat × Nat :=
  let a := Nat.xor ab.1 ((k + r * kmW) % 2 ^ 64) * kmM0 % 2 ^ 64
  let a := Nat.xor a (a / 2 ^ 29)
  (Nat.xor ab.2 a, a)

/-- The KM4 generator (04 R91): 32 bits from key, coordinate and context. -/
def km4 (k c0 c1 : Nat) : Nat :=
  let ab := kmRound k 3 (kmRound k 2 (kmRound k 1 (kmRound k 0 (c0 % 2 ^ 64, c1 % 2 ^ 64))))
  Nat.xor ab.1 ab.2 * kmM1 % 2 ^ 64 / 2 ^ 32

/-- C1 of a draw: step, purpose, draw number (04 R89). -/
def kmC1 (step purpose draw : Nat) : Nat := step % 2 ^ 32 * 2 ^ 32 + purpose * 2 ^ 24 + draw

/-- The generator output of a rounding draw (04 R87 to R89). -/
def drawOf (key step c0 : Nat) : Nat := km4 key (c0 % 2 ^ 64) (kmC1 step 1 0)

/-- Integer square root by binary digits; `k` is at least half the number of binary digits. -/
def isqrt : Nat → Nat → Nat
  | 0, _ => 0
  | k + 1, n => let r := 2 * isqrt k (n / 4); if (r + 1) * (r + 1) ≤ n then r + 1 else r

/-- A value of magnitude at least r * 2^e and below (r + 1) * 2^e; `exact` when it is r * 2^e. -/
def sticky (neg : Bool) (r : Nat) (e : Int) (exact : Bool) : Ex :=
  .fin neg (2 * r + b01 (!exact)) (e - 1)

/-- 1/x of a nonzero finite x, exact enough for one rounding to FP32 (04 R97). -/
def recip (neg : Bool) (m : Nat) (e : Int) : Ex :=
  let k := lg m + 80
  sticky neg (2 ^ k / m) (-(k : Int) - e) (2 ^ k % m == 0)

/-- The square root of m * 2^e (04 R97). -/
def root (m : Nat) (e : Int) : Ex :=
  let odd : Bool := e % 2 == 1
  let n := (if odd then 2 * m else m) * 2 ^ 160
  let h := (if odd then e - 1 else e) / 2 - 80
  let r := isqrt (lg n / 2 + 2) n
  sticky false r h (r * r == n)

/-- The reciprocal square root of m * 2^e, m nonzero (04 R97). -/
def rroot (m : Nat) (e : Int) : Ex :=
  let odd : Bool := e % 2 == 1
  let n := if odd then 2 * m else m
  let h := (if odd then e - 1 else e) / 2
  let k := lg n + 80
  let r := isqrt (k + 2) (2 ^ (2 * k) / n)
  sticky false r (-(k : Int) - h) (r * r * n == 2 ^ (2 * k))

/-- Product of 2^(2^-j) for the fraction bits set in `f`, most significant of `n` first, in units of 2^-160, truncated:
`s` is 2^(2^-(j-1)) and `acc` the product so far. -/
def exp2Frac (f : Nat) : Nat → Nat → Nat → Nat
  | 0, _, acc => acc
  | n + 1, s, acc =>
    let s' := isqrt 164 (s * 2 ^ 160)
    exp2Frac f n s' (if bitAt f n then acc * s' / 2 ^ 160 else acc)

/-- 2^x of a finite x with |x| below 2^20 (04 R97). A tiny x gives a value next to 1 on its side; a value that is no power
of two lies strictly between two units of the computed precision. -/
def exp2 (neg : Bool) (m : Nat) (e : Int) : Ex :=
  if m = 0 then .fin false 1 0
  else if (lg m : Int) + e < -25 then .fin false (if neg then 2 ^ 80 - 1 else 2 ^ 80 + 1) (-80)
  else
    -- x in units of 2^-60, exact since the lowest bit of x is 2^-48 or above
    let u : Int := (roundUnits .rz m e (-60) : Nat)
    let v : Int := if neg then -u else u
    let i := v / 2 ^ 60
    let f := (v % 2 ^ 60).toNat
    if f = 0 then .fin false 1 i else sticky false (exp2Frac f 60 (2 * 2 ^ 160) (2 ^ 160)) (i - 160) false

/-- Binary digits of log2 y, y in units of 2^-320 and in [1, 2), most significant first. -/
def log2Frac : Nat → Nat → Nat → Nat
  | 0, _, acc => acc
  | n + 1, y, acc =>
    let z := y * y / 2 ^ 320
    if 2 ^ 321 ≤ z then log2Frac n (z / 2) (2 * acc + 1) else log2Frac n z (2 * acc)

/-- log2 x of a positive finite x (04 R97). -/
def log2 (m : Nat) (e : Int) : Ex :=
  let l := (lg m : Int) + e
  if m = 2 ^ lg m then Ex.ofInt l
  else
    let t : Int := l * 2 ^ 120 + log2Frac 120 (m * 2 ^ (320 - lg m)) 0
    if 0 ≤ t then sticky false t.toNat (-120) false else sticky true (t.natAbs - 1) (-120) false

/-- The special functions on FP32 (04 R97), by FN of 10 R274: 0 VEXP2, 1 VLOG2, 2 VRCP, 3 VRSQRT, 4 VSQRT. -/
def special (fn : Nat) (x : Ex) : Nat × Ev :=
  let pole (n : Bool) : Nat × Ev := (signed 0 n (infCode 0), { Ev.none with inf := true })
  let bad : Nat × Ev := (canonNan 0, Ev.isNan)
  let rnd (y : Ex) : Nat × Ev := toF 0 false .rne y
  match fn, x with
  | _, .nan => (canonNan 0, Ev.none)
  | 0, .inf n => (if n then 0 else infCode 0, Ev.none)
  | 0, .fin n m e =>
    if 7 ≤ (lg m : Int) + e ∧ m ≠ 0 then
      (if n then (if (lg m : Int) + e < 8 then rnd (exp2 n m e) else (0, Ev.none)) else overflowF 0 false .rne false)
    else rnd (exp2 n m e)
  | 1, .inf n => if n then bad else (infCode 0, Ev.none)
  | 1, .fin n m e => if m = 0 then pole true else if n then bad else rnd (log2 m e)
  | 2, .inf n => (signed 0 n 0, Ev.none)
  | 2, .fin n m e => if m = 0 then pole n else rnd (recip n m e)
  | 3, .inf n => if n then bad else (0, Ev.none)
  | 3, .fin n m e => if m = 0 then pole n else if n then bad else rnd (rroot m e)
  | _, .inf n => if n then bad else (infCode 0, Ev.none)
  | _, .fin n m e => if m = 0 then (signed 0 n 0, Ev.none) else if n then bad else rnd (root m e)

end Sys2Proof.Machine
end

