-- ==== Sys2Proof/Machine/Flags.lean ====
section
/-! DEFINITION. The arithmetic-event counters: VFLAGS, the tile sets and the bank sets (04 R100 to R103); the key context of a
core (04 R89). -/

namespace Sys2Proof.Machine

/-- Events of many result elements: overflow, infinity, NaN and SR-saturation counts (04 R100). -/
structure Counts where
  ovf : Nat
  inf : Nat
  nan : Nat
  srs : Nat
  deriving DecidableEq, Repr

/-- No event. -/
def noCounts : Counts := { ovf := 0, inf := 0, nan := 0, srs := 0 }

/-- One more result element counted. -/
def Counts.plus (c : Counts) (e : Ev) : Counts :=
  { ovf := c.ovf + b01 e.ovf, inf := c.inf + b01 e.inf, nan := c.nan + b01 e.nan, srs := c.srs + b01 e.srs }

/-- The events of a list of result elements. -/
def countEv (es : List Ev) : Counts := es.foldl Counts.plus noCounts

/-- A counter set after some events: each 16-bit counter stops at 0xFFFF (04 R101). -/
def addCounts (w : Word) (c : Counts) : Word :=
  let n := w.toNat
  let f (i k : Nat) : Nat := min 0xFFFF (fld n (16 * i) 16 + k)
  BitVec.ofNat 64 (f 0 c.ovf + 2 ^ 16 * f 1 c.inf + 2 ^ 32 * f 2 c.nan + 2 ^ 48 * f 3 c.srs)

/-- A counter set with the counters of a mask cleared: bit i of the mask clears counter i (10 R276, 11 R309). -/
def clearCounts (w : Word) (m : Nat) : Word :=
  let n := w.toNat
  let f (i : Nat) : Nat := if bitAt m i then 0 else fld n (16 * i) 16
  BitVec.ofNat 64 (f 0 + 2 ^ 16 * f 1 + 2 ^ 32 * f 2 + 2 ^ 48 * f 3)

/-- Events of a vector result counted in VFLAGS (04 R102). -/
def State.countV (s : State) (es : List Ev) : State :=
  s.setMe { s.me with vflags := addCounts s.me.vflags (countEv es) }

/-- The key context: K and the step (04 R89). -/
def Core.keyCtx (c : Core) : Nat × Nat := (2 ^ 32 * (c.reg (.key 0x10) % 2 ^ 32) + c.reg (.key 0x11) % 2 ^ 32, c.reg (.key 0x12))

end Sys2Proof.Machine
end

