-- ==== Sys2Proof/Machine/Nmc.lean ====
section
/-! DEFINITION. Near-memory commands: NMC and NFENCE, their granules and completion records (09 R242 to R247). -/

namespace Sys2Proof.Machine

/-! ### The command record (09 R243) -/

/-- The command of a record at LM offset `a`, or none where its format breaks 09 R243 step 1. -/
def readNmc (lm : Table Byte) (a : Nat) : Option NmcCmd :=
  let q (o : Nat) : Nat := rdLe lm (a + o) 8
  let opc := fld (q 0) 0 8
  let ng := fld (q 32) 0 32
  let b := fld (q 40) 0 32
  let noG := decide (opc ≤ 1)
  let zero := fld (q 0) 8 56 == 0 && fld (q 40) 32 32 == 0 && q 56 == 0 && (!noG || (q 16 == 0 && b == 0)) &&
    (opc == 4 || q 24 == 0)
  if zero && decide (opc ≤ 4) && decide (1 ≤ ng) && decide (ng ≤ 2 ^ 26) && q 8 % 64 == 0 && q 16 % 64 == 0 &&
      q 24 % 64 == 0 && q 48 % 64 == 0 then
    some { id := 0, core := 0, run := none, stack := 0, opc := opc, addrP := q 8, addrG := q 16, addrM := q 24, ng := ng,
           a := BitVec.ofNat 32 (fld (q 32) 32 32), b := BitVec.ofNat 32 b, doneVa := q 48, donePa := 0, doneFe := false,
           doneRop := false, donePub := false, acq := false, rel := false, scope := 0, pages := [], next := 0, ndone := 0,
           nskip := 0, fskip := 0, ctr := 0, nheld := 0, rop1 := none, pub1 := none, takeRun := false, vec := [],
           after := [], ctx := { task := false, launch := 0, wid := 0, take := 0, core := 0, peer := 0 } }
  else none

/-- The arrays in use, in the order of their checks, each with whether it is read and written (09 R243, R244). -/
def NmcCmd.arrays (c : NmcCmd) : List (Nat × Bool × Bool) :=
  [(c.addrP, c.opc != 0, true)] ++ (if 2 ≤ c.opc then [(c.addrG, true, false)] else []) ++
  (if c.opc = 4 then [(c.addrM, true, true)] else [])

/-- How the translation of the pages of an array ends. -/
inductive Pages where
  | ok (ps : List (Nat × TlbEntry))
  | trap (cause code info : Nat)
  | wait
  deriving DecidableEq, Repr

/-- The pages from an address up to `stop`, in ascending order, each with the first address in use (09 R243 step 2). -/
def walkPages (q : Asker) (rd wr : Bool) (stop va : Nat) (acc : List (Nat × TlbEntry)) : Nat → State → Pages × State
  | 0, s => (.ok acc, s)
  | f + 1, s =>
    if stop ≤ va then (.ok acc, s)
    else
      match reachEngine q va rd wr (s.translate q va) with
      | (.page t, s) => walkPages q rd wr stop (t.vbase + 2 ^ t.log) (acc ++ [(va, t)]) f s
      | (.trap c code info, s) => (.trap c code info, s)
      | (.wait, s) => (.wait, s)

/-- The pages of several arrays, one after another. -/
def walkArrays (q : Asker) (n : Nat) : List (Nat × Bool × Bool) → List (Nat × TlbEntry) → State → Pages × State
  | [], acc, s => (.ok acc, s)
  | (a, rd, wr) :: as, acc, s =>
    match walkPages q rd wr (a + 64 * n) a acc (n / 64 + 2) s with
    | (.ok acc, s) => walkArrays q n as acc s
    | o => o

/-- A page as the command keeps it. -/
def nmcPage (t : TlbEntry) : NmcPage :=
  { vbase := t.vbase, log := t.log, pbase := paLocal t.pbase, rop := leafRop t.leaf, pub := leafPub t.leaf }

/-- NMC (09 R242, R243, R245). -/
def execNmc (h : Hdr) (gr : BitVec 6) (acq rel : Bool) (scope : BitVec 5) (s : State) : Out :=
  issue (.nmc h gr acq rel scope) s fun s =>
    let n := s.cur.core
    withNeeds (needs [.g gr.toNat] []) s fun s =>
      let a := s.me.reg (.g gr.toNat) % 2 ^ 16
      let q := s.engineAsker n
      let body (sc : Nat) (s : State) : Out :=
        if 16 ≤ (s.nmcs.filter (fun c => c.core == n)).length ∨ s.me.lmBlocked a 64 false then stall s
        else
          match (if a % 64 = 0 then readNmc (s.me.lmView false) a else none) with
          | none => trap 0x18 0 0 a s
          | some c =>
            match walkArrays q c.ng c.arrays [] s with
            | (.trap cause code info, s) => trap cause code 0 info s
            | (.wait, s) => stall s
            | (.ok ps, s) =>
              withEnginePage c.doneVa false true s fun t s =>
                let stack := match ps with
                  | p :: _ => homeOf (paLocal p.2.pbase)
                  | [] => 0
                match (ps ++ [(c.doneVa, t)]).find? (fun p => paPeer p.2.pbase != s.peerid) with
                | some p => trap 0x14 0 0 p.1 s
                | none =>
                  if ps.any (fun p => homeOf (paLocal p.2.pbase) != stack) then trap 0x18 0 0 a s
                  else if s.takeWait n true false then stall s
                  else
                    let start (s : State) : Out :=
                      let take := (s.takeRun n).isSome
                      let held (t : TlbEntry) : Bool := leafRop t.leaf || (take && leafPub t.leaf)
                      let wr (p : Nat × TlbEntry) : Bool := !held p.2 && c.arrays.any (fun x => x.2.2 &&
                        decide (x.1 / 4096 ≤ p.1 / 4096) && decide (p.1 < x.1 + 64 * c.ng))
                      let s := s.writeBack n false
                      let s := (ps.filter wr).foldl (fun s p => s.markDirty p.2) s
                      let s := if held t then s else s.markDirty t
                      let before := s.reqs.filter (fun r => r.owner == .stream n false && r.kind.writes &&
                        homeOf (paLocal r.pa) == stack)
                      let cmd := { c with
                        id := s.nextId, core := n, run := s.me.task.map Task.run, stack := stack,
                        donePa := paLocal (t.addr c.doneVa), doneFe := leafFe t.leaf, doneRop := leafRop t.leaf,
                        donePub := take && leafPub t.leaf, acq := acq, rel := rel, scope := sc,
                        pages := ps.map (fun p => nmcPage p.2), takeRun := take,
                        vec := if acq then s.vecOf (dieOf n) else [], after := before.map Req.id, ctx := s.ctxOf n }
                      retire h { (s.fresh).2 with nmcs := s.nmcs ++ [cmd] }
                    if acq then withRelease sc s start else start s
      if acq || rel then withScope scope s body else body 0 s

/-- NFENCE (09 R247). -/
def execNfence (h : Hdr) (scope : BitVec 5) (s : State) : Out :=
  issue (.nfence h scope) s fun s =>
    withScope scope s fun sc s =>
      if s.nmcs.any (fun c => c.core == s.cur.core) then stall s else withRelease sc s (retire h)

/-! ### Granules (09 R244, R246) -/

/-- The page of a command that holds an address. -/
def NmcCmd.pageOf (c : NmcCmd) (va : Nat) : Option NmcPage := c.pages.find? (fun p => va / 2 ^ p.log * 2 ^ p.log == p.vbase)

/-- Local physical address of an address of a command's arrays. -/
def NmcCmd.paOf (c : NmcCmd) (va : Nat) : Nat :=
  match c.pageOf va with
  | some p => p.pbase + (va - p.vbase)
  | none => 0

/-- a × b + c × d, exact and rounded once (09 R244); a NaN counts where no operand is one (04 R100). -/
def fma2 (a b c d : Ex) : Nat × Ev :=
  let x := a.mul b
  let y := c.mul d
  let z := x.1.add y.1
  let r := toF 0 false .rne z.1
  let fresh := !(a.isNan || b.isNan || c.isNan || d.isNan) && (x.2 || y.2 || z.2)
  (r.1, if fresh then Ev.isNan else r.2)

/-- The exact value one. -/
def exOne : Ex := Ex.ofInt 1

/-- The result of an element: p, m and the events, one list entry for each result element (09 R244). -/
def nmcElement (opc : Nat) (a b : BitVec 32) (p g m : Nat) : Nat × Nat × List Ev :=
  let av := decodeF 0 a.toNat
  let bv := decodeF 0 b.toNat
  let pv := decodeF 0 p
  let gv := decodeF 0 g
  let mv := decodeF 0 m
  match opc with
  | 0 => (a.toNat, m, [Ev.none])
  | 1 =>
    let x := av.mul pv
    let r := toF 0 false .rne x.1
    (r.1, m, [if x.2 then Ev.isNan else r.2])
  | 2 => let r := fma2 av gv bv pv; (r.1, m, [r.2])
  | 3 =>
    let t := fma2 bv pv exOne gv
    let r := fma2 exOne pv av.neg (decodeF 0 t.1)
    (r.1, m, [t.2.or r.2])
  | _ =>
    let t := fma2 bv mv exOne gv
    let r := fma2 exOne pv av.neg (decodeF 0 t.1)
    (r.1, t.1, [t.2, r.2])

/-- Whether a granule of a command is held at an address, by ROP and by PUB (09 R244). -/
def NmcCmd.heldAt (c : NmcCmd) (va : Nat) : Bool × Bool :=
  match c.pageOf va with
  | some p => (p.rop, c.takeRun && p.pub)
  | none => (false, false)

/-- A first address and a count with one more. -/
def oneMore (va : Nat) : Option (Nat × Nat) → Option (Nat × Nat)
  | some (v, k) => some (v, k + 1)
  | none => some (va, 1)

/-- The sixteen elements of a granule: p, m and the events. -/
def granuleOf (c : NmcCmd) (p g m : Nat) : List (Nat × Nat × List Ev) :=
  (upFrom 0 16).map (fun i => nmcElement c.opc c.a c.b (fld p (32 * i) 32) (fld g (32 * i) 32) (fld m (32 * i) 32))

/-- The places where the engine of a command writes its next granule come in their turn among the writes of its die (07 R171,
R172). -/
def State.nmcFree (s : State) (c : NmcCmd) : Bool :=
  s.engineFree c.stack (c.paOf (c.addrP + 64 * c.next)) &&
  (c.opc != 4 || s.engineFree c.stack (c.paOf (c.addrM + 64 * c.next)))

/-- One granule: the command and the state after it (09 R244, R246). A granule that reads nothing (OPC 0) and falls on a damaged word
clears the damage without a record, the model's choice (notes/assumptions/87). -/
def State.nmcStep (s : State) (c : NmcCmd) : NmcCmd × State :=
  let vp := c.addrP + 64 * c.next
  let vg := c.addrG + 64 * c.next
  let vm := c.addrM + 64 * c.next
  let c' := { c with next := c.next + 1 }
  let hp := c.heldAt vp
  let hm := if c.opc = 4 then c.heldAt vm else (false, false)
  if hp.1 || hp.2 || hm.1 || hm.2 then
    ({ c' with nheld := c.nheld + 1, rop1 := if hp.1 || hm.1 then oneMore (if hp.1 then vp else vm) c.rop1 else c.rop1,
               pub1 := if hp.2 || hm.2 then oneMore (if hp.2 then vp else vm) c.pub1 else c.pub1 }, s)
  else
    let reads := (if c.opc = 0 then [] else [c.paOf vp]) ++ (if 2 ≤ c.opc then [c.paOf vg] else []) ++
      (if c.opc = 4 then [c.paOf vm] else [])
    let s := (reads ++ [c.paOf vp]).foldl State.touch s
    if reads.any (fun a => s.badIn a 64) then
      ({ c' with nskip := c.nskip + 1, fskip := if c.nskip = 0 then vp else c.fskip },
       s.errTask 0x03 true 0 c.ctx vp c.doneVa 0 1)
    else
      let rs := granuleOf c (s.memRd (c.paOf vp) 64) (if 2 ≤ c.opc then s.memRd (c.paOf vg) 64 else 0)
        (if c.opc = 4 then s.memRd (c.paOf vm) 64 else 0)
      let s := s.engineWrite c.stack (c.paOf vp) (rs.flatMap (fun r => leBytes r.1 4))
      let s := if c.opc = 4 then s.engineWrite c.stack (c.paOf vm) (rs.flatMap (fun r => leBytes r.2.1 4)) else s
      ({ c' with ndone := c.ndone + 1, ctr := addCounts c.ctr (countEv (rs.flatMap (fun r => r.2.2))) }, s)

/-- The oldest command of a core to a stack: commands are performed in issue order (09 R245). -/
def State.nmcFirst (s : State) (c : NmcCmd) : Bool :=
  (s.nmcs.find? (fun d => d.core == c.core && d.stack == c.stack)).any (fun d => d.id == c.id)

/-- NMC_GRANULE (09 R244): after the stores that the command follows, and with ACQ what happened before it. -/
def execNmcGranule (id : Nat) (s : State) : Out :=
  match s.nmcs.find? (fun c => c.id == id) with
  | none => .next s
  | some c =>
    if decide (c.ng ≤ c.next) || !s.nmcFirst c || s.reqs.any (fun r => c.after.contains r.id) || !s.covers c.stack c.vec ||
        !s.nmcFree c then
      .next s
    else
      let (d, s) := s.nmcStep c
      .next { s with nmcs := s.nmcs.map (fun e => if e.id = id then d else e) }

/-- What the release of a command waits for (07 R173, R177, R189): what stands out of its task at its scope, and the home of its
completion record, which must cover what the engine has acquired. -/
def State.nmcHeld (s : State) (c : NmcCmd) : Bool :=
  s.farBusy c.core c.run c.ctx.wid c.scope || !s.covers (homeOf c.donePa) (vmax (s.vecOf c.stack) c.vec)

/-- NMC_COMPLETE (09 R246): the release, which waits for what R177 asks of the task, the records of held granules, the completion
record. -/
def execNmcComplete (id : Nat) (s : State) : Out :=
  match s.nmcs.find? (fun c => c.id == id) with
  | none => .next s
  | some c =>
    if c.next < c.ng ∨ !s.nmcFirst c ∨ !s.engineFree c.stack c.donePa ∨ (c.rel ∧ s.nmcHeld c) then
      .next s
    else
      let s := if c.rel then s.engineRelease c.stack c.scope else s
      let note (kind : Nat) (o : Option (Nat × Nat)) (s : State) : State :=
        match o with
        | some (va, k) => s.errTask kind false 1 c.ctx va k 0 1
        | none => s
      let s := note 0x09 (if c.doneRop then some (c.rop1.getD (c.doneVa, 1)) else c.rop1) s
      let s := note 0x0A (if c.donePub then some (c.pub1.getD (c.doneVa, 1)) else c.pub1) s
      let body := leBytes c.ndone 4 ++ leBytes c.nskip 4 ++ leBytes c.fskip 8 ++ leBytes c.ctr.toNat 8 ++
        leBytes c.nheld 4 ++ List.replicate 28 0
      let s := if c.doneRop || c.donePub then s
        else (((s.touch c.donePa).engineWrite c.stack (c.donePa + 8) body).engineWrite c.stack c.donePa
          (leBytes (if c.nskip = 0 then 1 else 2) 8)).fillBit c.doneFe c.donePa
      .next { s with nmcs := s.nmcs.filter (fun d => d.id != id) }

end Sys2Proof.Machine
end

