-- ==== Sys2Proof/Machine/Qp.lean ====
section
/-! DEFINITION. Queue pairs, trigger counters and pull reads (13 R340 to R349). -/

namespace Sys2Proof.Machine

/-! ### Trigger counters (13 R342, R349) -/

/-- A trigger counter raised; 0xFFFF names none (13 R342, R343). -/
def State.raise (s : State) (k : Nat) (v : Word) : State :=
  if 1024 ≤ k then s else { s with trig := tput 0 k (tget 0 k s.trig + v) s.trig }

/-- QTRIG (13 R349). A counter carries no horizons: its release pairs with no QWAIT and with no read of an entry that the counter
starts, the model's choice (notes/assumptions/92). -/
def execQtrig (h : Hdr) (cnt : BitVec 10) (g : BitVec 6) (scope : BitVec 5) (s : State) : Out :=
  issue (.qtrig h cnt g scope) s fun s =>
    withNeeds (needs [.g g.toNat] []) s fun s =>
      withScope scope s fun sc s =>
        withRelease sc s fun s => retire h (s.raise cnt.toNat (BitVec.ofNat 64 (s.me.reg (.g g.toNat))))

/-- QWAIT (13 R349). -/
def execQwait (h : Hdr) (cnt : BitVec 10) (g : BitVec 6) (scope : BitVec 5) (s : State) : Out :=
  issue (.qwait h cnt g scope) s fun s =>
    withNeeds (needs [.g g.toNat] []) s fun s =>
      withScope scope s fun sc s =>
        if (tget 0 cnt.toNat s.trig).toNat < s.me.reg (.g g.toNat) then stall s else withAcquire sc s (retire h)

/-! ### QPOST (13 R341 to R344) -/

/-- A queue-pair context (13 R341): space, port, ring size, ring address and remote identity, its own virtual and local physical
address, and its page. -/
structure QpContext where
  space  : Nat
  port   : Bool
  size   : Nat
  ring   : Nat
  remote : Word
  va     : Nat
  pa     : Nat
  page   : TlbEntry
  deriving DecidableEq, Repr

/-- How the reading of a context ends. -/
inductive QpRead where
  | ok (c : QpContext)
  | bad
  | wait
  deriving DecidableEq, Repr

/-- Whether the 64 bytes of a context are those of a valid one (13 R341, 00 R6): VALID, LOGN 4 to 12, RING aligned, every reserved
field zero but the ring positions. -/
def validContext (flags ring : Nat) : Bool :=
  bitAt flags 0 && fld flags 2 6 == 0 && decide (4 ≤ fld flags 8 8) && decide (fld flags 8 8 ≤ 12) && fld flags 32 32 == 0 &&
    ring % 64 == 0

/-- The context of a queue pair as core `n` reads it; bad where it is not valid, or its page does not translate for the device to
read it and keep its positions in it, or lies on another device. A task of a later take waits for the cut before it (08 R210). -/
def State.qpContext (s : State) (n q : Nat) : QpRead × State :=
  let va := s.qpbase.toNat + 64 * q
  let a := { s.engineAsker n with user := false }
  match reachEngine a va true true (s.translate a va) with
  | (.page t, s) =>
    let pa := paLocal (t.addr va)
    let w := s.memRd pa 8
    let ring := s.memRd (pa + 8) 8
    (if paPeer (t.addr va) ≠ s.peerid then .bad
     else if s.takeWait n true (leafPub t.leaf) then .wait
     else if validContext w ring then
      .ok { space := fld w 16 16, port := bitAt w 1, size := 2 ^ fld w 8 8, ring := ring,
            remote := BitVec.ofNat 64 (s.memRd (pa + 16) 8), va := va, pa := pa, page := t }
     else .bad, s)
  | (.trap .., s) => (.bad, s)
  | (.wait, s) => (.wait, s)

/-- A work entry at LM offset `a`, or none where it breaks 13 R344; a BSUM entry names BSI blocks at both its addresses, which
are aligned to 256 bytes (03 R73). -/
def readQpEntry (lm : Table Byte) (a : Nat) : Option QpEntry :=
  let q (o n : Nat) : Nat := rdLe lm (a + o) n
  let counter (c : Nat) : Bool := decide (c < 1024) || c == 0xFFFF
  let bsum := q 0 1 == 1 && q 1 1 == 1
  if q 4 4 == 0 && q 44 8 == 0 && q 52 8 == 0 && q 60 4 == 0 && decide (q 0 1 ≤ 1) && decide (q 1 1 ≤ q 0 1) && decide (q 2 2 < 1024) && q 16 8 % 8 == 0 &&
      decide (8 ≤ q 32 4) && decide (q 32 4 ≤ 2 ^ 30) && q 32 4 % (if bsum then 256 else 8) == 0 &&
      (!bsum || (q 16 8 % 256 == 0 && q 24 8 % 256 == 0)) &&
      counter (q 36 2) && counter (q 38 2) && counter (q 40 2) && counter (q 42 2) then
    some { core := 0, opc := q 0 1, red := q 1 1, trig := q 2 2, thresh := q 8 8, laddr := q 16 8, raddr := q 24 8,
           len := q 32 4, evReuse := q 36 2, evLocal := q 38 2, evAll := q 40 2, evRemote := q 42 2, acq := false,
           rel := false, scope := 0, space := 0, port := false, remote := 0, phase := 0, pos := 0, user := false, run := 0,
           lost := false, data := [], vec := [], ctx := { task := false, launch := 0, wid := 0, take := 0, core := 0, peer := 0 } }
  else none

/-- Free bytes drawn one after another. -/
def drawBytes : Nat → State → List Byte × State
  | 0, s => ([], s)
  | n + 1, s =>
    let (k, s) := s.draw
    let (bs, s) := drawBytes n s
    (Config.freeByte k :: bs, s)

/-- How the page of the ring position that comes next is reached. -/
inductive RingPage where
  | page (va : Nat) (t : Option TlbEntry)
  | wait
  deriving DecidableEq, Repr

/-- The page of the next ring position (13 R341, 18 R406): none where it does not translate for a write. -/
def State.ringPage (s : State) (n q : Nat) (c : QpContext) : RingPage × State :=
  let va := c.ring + 64 * (tget 0 q s.qpTail % c.size)
  let a := { s.engineAsker n with user := false }
  match reachEngine a va false true (s.translate a va) with
  | (.page t, s) => (.page va (if paPeer (t.addr va) = s.peerid then some t else none), s)
  | (.trap .., s) => (.page va none, s)
  | (.wait, s) => (.wait, s)

/-- What QPOST writes and where: the entry's bytes at its place in the ring, and the device's positions in the context; nothing on a
read-only page, or at a ring position that does not translate (07 R188, 18 R406). -/
def QpContext.writes (c : QpContext) (va : Nat) (page : Option TlbEntry) (bs pos : List Byte) : List (TlbEntry × Nat × List Byte) :=
  ((page.map (fun t => (t, paLocal (t.addr va), bs))).toList ++ [(c.page, c.pa + 24, pos)]).filter (fun e => !leafRop e.1.leaf)

/-- An engine's write into a page: the page's dirty bit, then the bytes in their turn among the hub's writes (07 R171, 18 R402). -/
def State.hubWrite (s : State) (t : TlbEntry) (a : Nat) (bs : List Byte) : State :=
  ((s.touch a).markDirty t).engineWrite Config.hubDie a bs

/-- An entry's bytes at its place in the ring, and the positions that the device keeps in the context (13 R341). What falls on a
read-only page is not written, with one ENGINE_ROP record of the command (07 R188). -/
def State.ringPut (s : State) (n q : Nat) (c : QpContext) (va : Nat) (page : Option TlbEntry) (bs : List Byte) : State :=
  let ringRop := page.any (fun t => leafRop t.leaf)
  let ctxRop := leafRop c.page.leaf
  let (pos, s) := drawBytes 40 s
  let s := (c.writes va page bs pos).foldl (fun s e => s.hubWrite e.1 e.2.1 e.2.2) s
  let held := 8 * b01 ringRop + 5 * b01 ctxRop
  let s := if held = 0 then s
    else s.errTask 0x09 false 2 (s.ctxOf n) (if ringRop then va else c.va + 24) held 0 1
  { s with qpTail := tput 0 q (tget 0 q s.qpTail + 1) s.qpTail }

/-- The first source page that lies on another device and that the task may not read (08 R194, R199): its trap and address. -/
def State.farSource (s : State) (take : Bool) (ps : List (Nat × TlbEntry)) : Option (Nat × Nat) :=
  (ps.find? (fun p => paPeer p.2.pbase != s.peerid && (!take || !leafPub p.2.leaf))).map
    (fun p => (if take then 0x13 else 0x14, p.1))

/-- QPOST (13 R344): the context, the entry, its source pages, then a place in the ring; it stalls until the hub's earlier writes have
reached the homes of what it writes (07 R171). -/
def execQpost (h : Hdr) (qpn : BitVec 8) (ge : BitVec 6) (acq rel : Bool) (scope : BitVec 5) (s : State) : Out :=
  issue (.qpost h qpn ge acq rel scope) s fun s =>
    let n := s.cur.core
    let q := qpn.toNat
    withNeeds (needs [.g ge.toNat] []) s fun s =>
      let a := s.me.reg (.g ge.toNat) % 2 ^ 16
      let body (sc : Nat) (s : State) : Out :=
        if s.me.lmBlocked a 64 false then stall s
        else
          match s.qpContext n q with
          | (.bad, s) => trap 0x1A 0 0 q s
          | (.wait, s) => stall s
          | (.ok c, s) =>
            if c.space ≠ (s.asker n).space then trap 0x1A 0 0 q s
            else
              match (if a % 64 = 0 then readQpEntry (s.me.lmView false) a else none) with
              | none => trap 0x1B 0 0 a s
              | some e =>
                match walkPages (s.engineAsker n) true false (e.laddr + e.len) e.laddr [] (e.len / 4096 + 2) s with
                | (.trap cause code info, s) => trap cause code 0 info s
                | (.wait, s) => stall s
                | (.ok ps, s) =>
                  match s.farSource (s.takeRun n).isSome ps with
                  | some (cause, va) => trap cause 0 0 va s
                  | none =>
                    let ring := tget [] q s.qps
                    match s.ringPage n q c with
                    | (.wait, s) => stall s
                    | (.page va page, s) =>
                      if c.size ≤ ring.length ∨ !(c.writes va page [] []).all (fun e => s.engineFree Config.hubDie e.2.1) then stall s
                      else
                        let start (s : State) : Out :=
                          let e := { e with core := n, acq := acq, rel := rel, scope := sc, space := c.space, port := c.port,
                                            remote := c.remote, vec := if acq then s.vecOf (dieOf n) else [],
                                            user := s.me.level == .t, run := ((s.me.task.map Task.run).getD 0), ctx := s.ctxOf n }
                          let s := s.ringPut n q c va page (tgets 0 a 64 (s.me.lmView false))
                          retire h { s with qps := tput [] q (ring ++ [e]) s.qps }
                        if acq then withRelease sc s start else start s
      if acq || rel then withScope scope s body else body 0 s

/-! ### Entries (13 R345 to R347) -/

/-- The first entry of a queue pair in a phase of its own, where every earlier entry has passed it: R345 orders the
starts of a ring's entries, and that their events follow in ring order too is the model's choice (notes/assumptions/93). -/
def nextIn (phase : Nat) (es : List QpEntry) : Option QpEntry :=
  (es.dropWhile (fun e => decide (phase < e.phase))).head?.filter (fun e => e.phase == phase)

/-- That entry replaced. -/
def stepIn (phase : Nat) (f : QpEntry) (es : List QpEntry) : List QpEntry :=
  es.takeWhile (fun e => decide (phase < e.phase)) ++ [f] ++ (es.dropWhile (fun e => decide (phase < e.phase))).drop 1

/-- QP_ENTRY_START (13 R345): in ring order, once the counter has reached the threshold. -/
def execQpEntryStart (qp : Nat) (s : State) : Out :=
  let es := tget [] qp s.qps
  match nextIn 0 es with
  | some e =>
    if (tget 0 e.trig s.trig).toNat < e.thresh then .next s
    else .next { s with qps := tput [] qp (stepIn 0 { e with phase := 1 } es) s.qps }
  | none => .next s

/-- An entry's reads wait for the cut before the take in which it was posted (08 R210). -/
def State.entryWaits (s : State) (e : QpEntry) (own pub : Bool) : Bool :=
  match (s.run? e.run).filter (fun r => r.takeLv.isSome && e.ctx.task) with
  | some r =>
    (own && s.cutUnapplied r.id (prevTake e.ctx.take)) || (pub && s.cutOpen r.id (prevTake e.ctx.take))
  | none => false

/-- One word of an entry's source (13 R346): zero where it is uncorrectable (09 R225), or lies on a published page of a device that
cannot be reached (19 R417); none while it must wait. A page that no longer translates, or that has become one of another device that
the task may not read, gives free bytes (notes/assumptions/63). R19 names no class for a queue pair's packets: the record of a read
that cannot reach its target has class 2 in DETAIL1, the model's choice (notes/assumptions/86). -/
def State.sourceWord (s : State) (e : QpEntry) (va : Nat) : Option (List Byte × State) :=
  let q : Asker := { s.engineAsker e.core with space := e.space, user := e.user, ctx := e.ctx }
  let take := (s.run? e.run).any (fun r => r.takeLv.isSome)
  match reachEngine q va true false (s.translate q va) with
  | (.page t, s) =>
    let pa := t.addr va
    if paPeer pa ≠ s.peerid then
      if !take || !leafPub t.leaf then some (drawBytes 8 s)
      else if s.entryWaits e false true then none
      else if s.reachable (paPeer pa) then some (s.remoteBytes pa 8, s.pulled e.core pa)
      else some (leBytes 0 8, s.errRecord 0x02 true (s.portFor e.core (paPeer pa)) e.ctx va (paPeer pa) 2)
    else if !s.covers (homeOf (paLocal pa)) e.vec || s.entryWaits e true (leafPub t.leaf) then none
    else
      let (v, s) := (s.touch (paLocal pa)).homeGet 1 e.ctx false va (paLocal pa) 8
      some (leBytes v 8, s)
  | (.trap .., s) => some (drawBytes 8 s)
  | (.wait, _) => none

/-- The peer number of a remote endpoint on the fabric: R341 leaves REMOTE to the port, and the model takes its low 12 bits
(notes/assumptions/62). -/
def QpEntry.peer (e : QpEntry) : Nat := fld e.remote.toNat 0 12

/-- Whether an entry's write cannot reach its target (19 R417). -/
def State.qpLost (s : State) (e : QpEntry) : Bool := e.port && !s.reachable e.peer

/-- An entry's bytes sent, on the fabric by the port of the core that posted it (19 R417), or lost to an unreachable target with one dropped-data record, BRANCH_LOST (01 R27, 08 R214, 19 R417). -/
def State.sendQp (s : State) (e : QpEntry) : State :=
  if s.qpLost e then
    s.errTask 0x05 true 0 e.ctx e.raddr e.peer 0 2
  else { s with hostOut := s.hostOut ++ [.qpWrite e.remote e.port (if e.port then s.wayTo e.core e.peer else none) e.raddr e.opc e.red e.evRemote e.rel e.data] }

/-- SRC_REUSE (13 R346, R347): a started entry reads its next source word, in ascending order; with the last one every source byte is
in the port's retransmit store, and the bytes are on their way. -/
def execSrcReuse (qp : Nat) (s : State) : Out :=
  let es := tget [] qp s.qps
  match nextIn 1 es with
  | some e =>
    match s.sourceWord e (e.laddr + e.pos) with
    | none => .next s
    | some (bs, s) =>
      let e := { e with pos := e.pos + 8, data := e.data ++ bs }
      if e.pos < e.len then .next { s with qps := tput [] qp (stepIn 1 e es) s.qps }
      else
        .next ({ s.sendQp e with qps := tput [] qp (stepIn 1 { e with phase := 2, lost := s.qpLost e } es) s.qps }.raise e.evReuse 1)
  | none => .next s

/-- LOCAL_DONE (13 R346): the remote port has acknowledged every byte; the retransmit store is freed. -/
def execLocalDone (qp : Nat) (s : State) : Out :=
  let es := tget [] qp s.qps
  match nextIn 2 es with
  | some e => .next ({ s with qps := tput [] qp (stepIn 2 { e with phase := 3, data := [] } es) s.qps }.raise e.evLocal 1)
  | none => .next s

/-- ALL_DONE (13 R346): the entry leaves the ring; a lost one, of which the remote has placed nothing, raises no counter. -/
def execAllDone (qp : Nat) (s : State) : Out :=
  match tget [] qp s.qps with
  | e :: es => if e.phase = 3 then .next ({ s with qps := tput [] qp es s.qps }.raise (if e.lost then 0xFFFF else e.evAll) 1)
    else .next s
  | [] => .next s

/-! ### This device as the target (13 R340, R348) -/

/-- What placing the words of an incoming write has held back: words on ROP pages and on published pages, with the first. -/
structure Placed where
  rop : Option (Nat × Nat)
  pub : Option (Nat × Nat)
  st  : State

/-- The words of an incoming write placed by the hub (13 R348): stored, or added at their homes, in their turn among the hub's
writes (07 R171); those on ROP and published pages are not written. One whose address does not translate or lies on
another device is dropped without a record, the model's choice (notes/assumptions/94). None where one of them must wait. -/
def placeWords (w : QpWrite) (add : Bool) (va : Nat) : List Word → Placed → Option Placed
  | [], p => some p
  | x :: xs, p =>
    let s := p.st
    let q : Asker := { die := Config.hubDie, cluster := none, space := w.space, user := false, core := w.ctx.core, eng := true,
                       ctx := w.ctx }
    match reachEngine q va add true (s.translate q va) with
    | (.wait, _) => none
    | (.trap .., s) => placeWords w add (va + 8) xs { p with st := s }
    | (.page t, s) =>
      let pa := paLocal (t.addr va)
      if leafRop t.leaf then placeWords w add (va + 8) xs { p with rop := oneMore va p.rop, st := s }
      else if leafPub t.leaf then placeWords w add (va + 8) xs { p with pub := oneMore va p.pub, st := s }
      else if paPeer (t.addr va) ≠ s.peerid then placeWords w add (va + 8) xs { p with st := s }
      else if !s.engineFree Config.hubDie pa then none
      else
        let s := (s.touch pa).markDirty t
        let (old, s) := if add then s.homeGet 0 w.ctx false va pa 8 else (0, s.uncorrWords 0 w.ctx va pa 8)
        placeWords w add (va + 8) xs
          { p with st := s.engineWrite Config.hubDie pa (leBytes (if add then (old + x.toNat) % 2 ^ 64 else x.toNat) 8) }

/-- A queue-pair write at its target (13 R348): the words are placed, the records written, then EVREMOTE is raised. While a word
must wait nothing of it happens. -/
def State.qpTarget (s : State) (w : QpWrite) (add : Bool) : State :=
  match placeWords w add w.addr w.data { rop := none, pub := none, st := s } with
  | none => s
  | some p =>
    let s := match p.rop with
      | some (va, k) => p.st.errRecord 0x09 false 2 w.ctx va k 0
      | none => p.st
    let s := match p.pub with
      | some (va, k) => s.errRecord 0x0A false 2 w.ctx va k 0
      | none => s
    s.raise w.evRemote 1

/-- WRITE (13 R348). -/
def execWrite (w : QpWrite) (s : State) : Out := .next (s.qpTarget w false)

/-- WRITE_REDUCE (13 R348): s64 words and BSI lanes add alike, modulo 2^64. -/
def execWriteReduce (w : QpWrite) (s : State) : Out := .next (s.qpTarget w true)

/-- Whether a table, from a level on, maps a local physical address on a published page (13 R340). -/
def publishedIn (s : State) (a : Nat) : Nat → Nat → Nat → Bool
  | 0, _, _ => false
  | f + 1, level, table =>
    (upFrom 0 512).any (fun i =>
      let e : Word := BitVec.ofNat 64 (s.memRd (table + 8 * i) 8)
      match s.entryKind e level with
      | .leaf => leafPub e && paPeer (leafPa e) == s.peerid && decide (paLocal (leafPa e) ≤ a) &&
          decide (a < paLocal (leafPa e) + 2 ^ pageLog level)
      | .table => publishedIn s a f (level + 1) (entryNext e)
      | _ => false)

/-- Whether some space maps a local physical address on a published page. -/
def State.published (s : State) (a : Nat) : Bool :=
  (upFrom 0 s.sptlim).any (fun k =>
    let e := s.memRd (s.sptbase.toNat + 8 * k) 8
    bitAt e 0 && !spaceReserved e && publishedIn s a 5 0 (fld e 12 33 * 4096))

/-- PULL_READ_REQUEST (13 R340, 18 R400): the line as it stood at the latest closed cut, or zero lanes with a record; while a
cut is being applied it waits. -/
def execPullReadRequest (lpa peer : Nat) (s : State) : Out :=
  let cx : Ctx := { s.noCtx with peer := peer }
  let line := lpa / 64 * 64
  let answer (s : State) (bs : List Byte) : Out := .next { s with hostOut := s.hostOut ++ [.pullAnswer peer bs] }
  if s.cuts.any (fun c => c.st == .applying || c.st == .applied) then .next s
  else if !s.assigned lpa then answer (s.errRecord 0x0E false 1 cx 0 lpa 0) (leBytes 0 64)
  else if !s.published lpa then answer (s.errRecord 0x0E false 0 cx 0 lpa 0) (leBytes 0 64)
  else
    let (v, s) := s.homeGet 1 cx false 0 line 64
    answer s (leBytes v 64)

end Sys2Proof.Machine
end

