-- ==== Sys2Proof/Machine/Tile.lean ====
section
/-! DEFINITION. Tile registers and their shape control, and the instructions of OP 0xC0 that act on one core
(11 R277 to R282, R308, R309). -/

namespace Sys2Proof.Machine

/-! ### Shape control words (11 R277 to R279) -/

def tcFmt (w : Word) : Nat := fld w.toNat 0 5
def tcScp (w : Word) : Bool := bitAt w.toNat 5
def tcRows (w : Word) : Nat := fld w.toNat 6 8 + 1
def tcCols (w : Word) : Nat := fld w.toNat 14 6 + 1
def tcCol0 (w : Word) : Nat := fld w.toNat 20 20
def tcRow0 (w : Word) : Nat := fld w.toNat 40 24

/-- Element bytes of a row. -/
def tcEb (w : Word) : Nat := tcCols w * fmtWidth (tcFmt w) / 8

/-- Scale bytes of a row. -/
def tcNs (w : Word) : Nat := if isMxFmt (tcFmt w) then (tcCols w + 31) / 32 else 0

/-- Bytes from one row to the next. -/
def tcRb (w : Word) : Nat := if tcScp w then tcEb w else tcEb w + tcNs w

/-- The footprint S. -/
def tcFoot (w : Word) : Nat := tcRows w * (tcEb w + tcNs w)

/-- A shape that TCFG accepts (11 R281). -/
def tcOk (w : Word) : Bool :=
  (decide (tcFmt w ≤ 12) || isIntFmt (tcFmt w)) && (!tcScp w || isMxFmt (tcFmt w)) &&
  (tcCols w * fmtWidth (tcFmt w) % 8 == 0) && decide (tcFoot w ≤ 4096)

/-- Bit position of element `j` of row `r`. -/
def tcElemBit (w : Word) (r j : Nat) : Nat := 8 * (r * tcRb w) + fmtWidth (tcFmt w) * j

/-- Byte position of scale byte `q` of row `r`. -/
def tcScaleByte (w : Word) (r q : Nat) : Nat :=
  if tcScp w then tcRows w * tcEb w + r * tcNs w + q else r * tcRb w + tcEb w + q

/-- Element `j` of row `r` of a tile with contents `v`. -/
def tileElem (w : Word) (v r j : Nat) : Nat := fld v (tcElemBit w r j) (fmtWidth (tcFmt w))

/-- Scale byte `q` of row `r`. -/
def tileScale (w : Word) (v r q : Nat) : Nat := fld v (8 * tcScaleByte w r q) 8

/-- The coordinate C0 of the tile element in row `i` and column `j` (11 R279). -/
def tileCoord (w : Word) (i j : Nat) : Nat := ((tcRow0 w + i) * 2 ^ 32 + tcCol0 w + j) % 2 ^ 64

/-- Shape control `i` of a core. -/
def Core.shape (c : Core) (i : Nat) : Word := tget 0 i c.tc

/-! ### TCFG, TLDL, TSTL (11 R281, R282) -/

/-- TCFG (11 R281). -/
def execTcfg (h : Hdr) (t : BitVec 3) (r : BitVec 4) (s : State) : Out :=
  issue (.tcfg h t r) s fun s =>
    withNeeds (needs [.s r.toNat] []) s fun s =>
      let w := BitVec.ofNat 64 (s.me.reg (.s r.toNat))
      if !tcOk w then trap 0x23 0 0 0 s
      else retire h (s.setMe { s.me with tc := tput 0 t.toNat w s.me.tc })

/-- TLDL and TSTL up to their access (11 R282): `k` gets the LM offset and the footprint. -/
def tileMem (i : Instr) (t : BitVec 3) (r : BitVec 4) (off : BitVec 19) (reads writes : List Reg) (write : Bool) (s : State)
    (k : Nat → Nat → State → Out) : Out :=
  issue i s fun s =>
    withNeeds (needs (.s r.toNat :: reads) writes) s fun s =>
      let ea := (BitVec.ofNat 64 (s.me.reg (.s r.toNat)) + off.signExtend 64).toNat
      let n := tcFoot (s.me.shape t.toNat)
      if ea % 8 ≠ 0 then trap 0x0E 0 0 ea s
      else if Config.lmBytes < ea + n then trap 0x0D 0 0 ea s
      else if s.me.lmBlocked ea n write then stall s
      else k ea n s

/-- TLDL (11 R282): the tile is pending until it is written. -/
def execTldl (h : Hdr) (t : BitVec 3) (r : BitVec 4) (off : BitVec 19) (s : State) : Out :=
  tileMem (.tldl h t r off) t r off [] [.t t.toNat] false s fun ea n s =>
    let old := s.me.reg (.t t.toNat)
    retire h (s.pendNew [(.t t.toNat, some (old / 2 ^ (8 * n) * 2 ^ (8 * n) + s.me.lmRd s.cur.x ea n))])

/-- The stores of `n` bytes of a number at an 8-byte aligned address, issued in cycle `t`, one for each word (07 R167). -/
def wordWrites (t ea v : Nat) : Nat → Nat → List LmWrite
  | 0, _ => []
  | f + 1, n =>
    if n = 0 then []
    else { cyc := t, addr := ea, bytes := leBytes v (min 8 n) } :: wordWrites t (ea + 8) (v / 2 ^ 64) f (n - 8)

/-- TSTL (11 R282). -/
def execTstl (h : Hdr) (t : BitVec 3) (r : BitVec 4) (off : BitVec 19) (s : State) : Out :=
  tileMem (.tstl h t r off) t r off [.t t.toNat] [] true s fun ea n s =>
    retire h (s.setSt { s.st with lmq := s.st.lmq ++ wordWrites s.now ea (s.me.reg (.t t.toNat)) 512 n })

/-! ### Tile counters (11 R308, R309) -/

/-- The counter set of a tile of a core. -/
def Core.tileCtr (c : Core) (t : Nat) : Word := tget 0 t c.tctr

/-- Events counted in a tile's set (04 R102). -/
def Core.countTile (c : Core) (t : Nat) (es : List Ev) : Core :=
  { c with tctr := tput 0 t (addCounts (c.tileCtr t) (countEv es)) c.tctr }

/-- TSTAT of a tile (11 R308): it waits for the queued writers of the tile. -/
def execTstat (h : Hdr) (t : BitVec 3) (r : BitVec 4) (s : State) : Out :=
  issue (.tstat h t r) s fun s =>
    withNeeds (needs [] [.s r.toNat]) s fun s =>
      if s.tileHeld s.cur.core t.toNat false then stall s
      else retire h (s.pendNew [(.s r.toNat, some (s.me.tileCtr t.toNat).toNat)])

/-- TCLR of a tile (11 R309): it waits for every earlier instruction that writes the tile. -/
def execTclr (h : Hdr) (t : BitVec 3) (m : BitVec 4) (s : State) : Out :=
  issue (.tclr h t m) s fun s =>
    if s.readBlocked (.t t.toNat) then stall s
    else
      let c := s.me
      retire h (s.setMe { c with tctr := tput 0 t.toNat (clearCounts (c.tileCtr t.toNat) m.toNat) c.tctr })

end Sys2Proof.Machine
end

