-- ==== Sys2Proof/Machine/Matrix.lean ====
section
/-! DEFINITION. The joint array and the accumulator store: shape checks, the three modes of GMMA, drains, copies and the sum
of a join (11 R290 to R305). -/

namespace Sys2Proof.Machine

/-! ### Classes and shape checks (11 R291 to R293) -/

/-- The class of an operand format: 0 F8, 1 H, 2 F4 (11 R291). -/
def fmtClass (f : Nat) : Option Nat :=
  if 8 ≤ f ∧ f ≤ 11 then some 0 else if f = 1 ∨ f = 2 then some 1 else if f = 12 then some 2 else none

/-- Positions that a slot supplies of a dense operand, and twice as many of a sparse one (11 R291). -/
def kcOf (cls : Nat) (sparse : Bool) : Nat := (if cls = 2 then 16 else 8) * (if sparse then 2 else 1)

/-- Sparse flag and band format of the stationary operand left by the latest WLD of the gang (11 R293). -/
def Gang.stationNow (g : Gang) : Option (Bool × Nat) :=
  let w := g.queue.reverse.findSome? (fun o => match o.instr with
    | .wld _ tw _ sp => some (sp, tcFmt (((o.arr.head?.map Arrival.tcs).getD []).getD tw.toNat 0))
    | _ => none)
  match w with
  | some p => some p
  | none => g.station.map (fun st => (st.sparse, tcFmt ((st.bands.head?.map Prod.fst).getD 0)))

/-- A mask tile of one byte for each row (11 R293). -/
def maskOk (w : Word) : Bool := tcFmt w == 20 && tcRows w == 64 && tcCols w == 1

/-- Whether a core's tiles fit an instruction (11 R293); `st` is the stationary operand's flag and format. -/
def shapesOk (st : Option (Bool × Nat)) (tc : Nat → Word) : Instr → Bool
  | .wld _ tw tm sp =>
    (match fmtClass (tcFmt (tc tw.toNat)) with
     | some c =>
       tcRows (tc tw.toNat) == 64 && tcCols (tc tw.toNat) == kcOf c sp &&
       (!sp || (tcFmt (tc tm.toNat) == 20 && tcRows (tc tm.toNat) == 64 && 8 * tcCols (tc tm.toNat) == kcOf c true))
     | none => false)
  | .gmmaF _ f =>
    (match st.bind (fun p => (fmtClass p.2).map (fun c => (p.1, c))) with
     | some (sp, c) =>
       fmtClass (tcFmt (tc f.ta.toNat)) == some c && decide (f.mm1.toNat + 1 ≤ tcRows (tc f.ta.toNat)) &&
       tcCols (tc f.ta.toNat) == kcOf c sp
     | none => false)
  | .gmmaB _ f =>
    (match st.bind (fun p => (fmtClass p.2).map (fun c => (p.1, c))) with
     | some (sp, c) =>
       !sp && decide (c ≤ 1) && fmtClass (tcFmt (tc f.ta.toNat)) == some c &&
       decide (f.mm1.toNat + 1 ≤ tcRows (tc f.ta.toNat)) && tcCols (tc f.ta.toNat) == 8 && (!f.msk || maskOk (tc f.tm.toNat))
     | none => false)
  | .gmmaO _ f =>
    let c := fmtClass (tcFmt (tc f.ta.toNat))
    (c == some 0 || c == some 1) && fmtClass (tcFmt (tc f.tb.toNat)) == c &&
    decide (f.mm1.toNat + 1 ≤ tcRows (tc f.ta.toNat)) && tcCols (tc f.ta.toNat) == 8 &&
    decide (f.mm1.toNat + 1 ≤ tcRows (tc f.tb.toNat)) && tcCols (tc f.tb.toNat) == 8 && (!f.msk || maskOk (tc f.tm.toNat))
  | .drain _ f =>
    tcFmt (tc f.td.toNat) == f.fmt.toNat && decide (f.mm1.toNat + 1 ≤ tcRows (tc f.td.toNat)) && tcCols (tc f.td.toNat) == 8
  | .accld _ f | .accst _ f =>
    tcFmt (tc f.td.toNat) == 0 && decide (f.mm1.toNat + 1 ≤ tcRows (tc f.td.toNat)) && tcCols (tc f.td.toNat) == 8
  | .csig _ t _ => decide (tcFmt (tc t.toNat) ≤ 4) && tcCols (tc t.toNat) == 8
  | _ => true

/-- The tiles whose class, and for CSIG whose row count, must be that of slot 0's (11 R293, 12 R318). A tile of no class
differs from one of any class, so that where slot 0's own has none every slot whose tile has one is in the mask, the model's choice
(notes/assumptions/90). -/
def roleKeys (tc : Nat → Word) : Instr → List Nat
  | .wld _ tw _ _ => [(fmtClass (tcFmt (tc tw.toNat))).getD 3]
  | .gmmaF _ f => [(fmtClass (tcFmt (tc f.ta.toNat))).getD 3]
  | .gmmaB _ f => [(fmtClass (tcFmt (tc f.ta.toNat))).getD 3]
  | .gmmaO _ f => [(fmtClass (tcFmt (tc f.ta.toNat))).getD 3, (fmtClass (tcFmt (tc f.tb.toNat))).getD 3]
  | .csig _ t _ => [tcRows (tc t.toNat)]
  | _ => []

/-! ### Operands of the eight slots -/

/-- A tile of each slot with its shape, as the arrivals of an instruction name it. -/
def State.bandsOf (s : State) (gn : Nat) (arr : List Arrival) (t : Nat) : List (Word × Nat) :=
  arr.zipIdx.map (fun p => (p.1.tcs.getD t 0, (s.core (8 * gn + p.2)).reg (.t t)))

/-- Slot `k / kc` of some bands. -/
def bandAt (bs : List (Word × Nat)) (i : Nat) : Word × Nat := bs.getD i (0, 0)

/-- The element value of a band, without its scale. -/
def bandElem (b : Word × Nat) (r j : Nat) : Ex :=
  let f := tcFmt b.1
  decodeF (if 8 ≤ f then elemFmt f else f) (tileElem b.1 b.2 r j)

/-- Element at position `k` of row `r`, where each slot supplies `kc` positions (11 R291). -/
def acrossElem (bs : List (Word × Nat)) (kc r k : Nat) : Ex := bandElem (bandAt bs (k / kc)) r (k % kc)

/-- Scale byte of the block of position `k` in row `r`: that of the lowest slot that supplies the block (11 R292); 0x7F, one,
where the operand has no scale. -/
def acrossScale (bs : List (Word × Nat)) (kc r k : Nat) : Nat :=
  let b := bandAt bs (k / 32 * 32 / kc)
  if isMxFmt (tcFmt b.1) then tileScale b.1 b.2 r (k / 32 * 32 % kc / 32) else 0x7F

/-- Whether position `j` of a row of mask bits is kept: the two lowest set bits of its group of four (11 R294). -/
def keptBit (bits j : Nat) : Bool := bitAt bits j && decide (popNat (bits / 2 ^ (j / 4 * 4)) (j % 4) < 2)

/-- Whether position (k, n) is kept under the mask tiles of the slots, each of `kc` positions (11 R294). -/
def maskKeeps (ms : List (Word × Nat)) (kc k n : Nat) : Bool :=
  let m := bandAt ms (k / kc)
  keptBit (fld m.2 (8 * (n * tcRb m.1)) (8 * tcCols m.1)) (k % kc)

/-- Bands as stored by WLD. -/
def storedBands (l : List (Word × List Byte)) : List (Word × Nat) := l.map (fun p => (p.1, leNat p.2))

/-! ### The accumulator store and its rounding -/

/-- Accumulator element (11 R301). -/
def Gang.accAt (g : Gang) (bank row col : Nat) : BitVec 32 := tget 0 (16384 * bank + 64 * row + col) g.acc

/-- A row of 64 values. -/
def Gang.accRow (g : Gang) (bank row : Nat) : List (BitVec 32) := tgets 0 (16384 * bank + 64 * row) 64 g.acc

/-- A row written. -/
def Gang.putRow (g : Gang) (bank row : Nat) (vs : List (BitVec 32)) : Gang :=
  { g with acc := tputs 0 (16384 * bank + 64 * row) vs g.acc }

/-- Rows written from a first row on. -/
def Gang.putRows (g : Gang) (bank row : Nat) : List (List (BitVec 32)) → Gang
  | [] => g
  | vs :: vss => (g.putRow bank row vs).putRows bank (row + 1) vss

/-- Rows set to +0. -/
def Gang.zeroRows (g : Gang) (bank row m : Nat) : Gang := g.putRows bank row (List.replicate m (List.replicate 64 0))

/-- Events counted in a bank's set, once for the gang (04 R102). -/
def Gang.countBank (g : Gang) (bank : Nat) (es : List Ev) : Gang :=
  { g with bctr := tput 0 bank (addCounts (tget 0 bank g.bctr) (countEv es)) g.bctr }

/-- What slot 0 brought to an instruction. -/
def slot0 (arr : List Arrival) : Arrival :=
  arr.headD { instr := .nop { gneg := false, gpred := 0, stall := 0, w := false }, tcs := [], sval := 0, kval := 0,
              kstep := 0, breach := false, since := 0 }

/-- Rounding of an element under the key of slot 0 (11 R279): `w` is the shape whose coordinates serve. -/
def gangRm (arr : List Arrival) (rm : BitVec 2) (w : Word) (i j : Nat) : Rm :=
  if rm = 2 then .sr (drawOf (slot0 arr).kval.toNat (slot0 arr).kstep.toNat (tileCoord w i j))
  else if rm = 1 then .rz else .rne

/-- The value of an FP32 word. -/
def exF32 (v : BitVec 32) : Ex := decodeF 0 v.toNat

/-- A window sum into FP32 with SAT (11 R297). -/
def sum32 (rm : Rm) (ts : List Term) : BitVec 32 × Ev :=
  let r := windowSum 0 false rm ts
  (BitVec.ofNat 32 r.1, r.2)

/-- The product of two scaled elements as a term (11 R298, R299). -/
def scaledTerm (x y : Nat) (a b : Ex) : Term := blockTerm x y [(a, b)]

/-! ### WLD and GMMA (11 R295 to R299) -/

/-- WLD (11 R295). -/
def State.runWld (s : State) (gn : Nat) (arr : List Arrival) (tw tm : Nat) (sp : Bool) : State :=
  let keep (t : Nat) : List (Word × List Byte) := (s.bandsOf gn arr t).map (fun b => (b.1, leBytes b.2 4096))
  let g := s.gang gn
  s.setGang gn { g with station := some { sparse := sp, bands := keep tw, masks := if sp then keep tm else [] } }

/-- M rows of output elements with their events: `f` gives row i and column n. -/
def rowsOf (m : Nat) (f : Nat → Nat → BitVec 32 × Ev) : List (List (BitVec 32 × Ev)) :=
  (upFrom 0 m).map (fun i => (upFrom 0 64).map (f i))

/-- Output rows at the accumulator store with their events (11 R300). -/
def Gang.takeRows (g : Gang) (bank row : Nat) (rs : List (List (BitVec 32 × Ev))) : Gang :=
  (g.putRows bank row (rs.map (fun r => r.map Prod.fst))).countBank bank (rs.flatMap (fun r => r.map Prod.snd))

/-- The accumulator input as a term. -/
def accTerm (on : Bool) (v : BitVec 32) : List Term := if on then [Term.of (exF32 v)] else []

/-- GMMA.F (11 R297). -/
def State.runGmmaF (s : State) (gn : Nat) (arr : List Arrival) (f : GForm) : State :=
  let g := s.gang gn
  match g.station with
  | none => s
  | some st =>
    let ws := storedBands st.bands
    let ms := storedBands st.masks
    let as := s.bandsOf gn arr f.ta.toNat
    let cls := (fmtClass (tcFmt (bandAt ws 0).1)).getD 0
    let kc := kcOf cls st.sparse
    let ct := (slot0 arr).tcs.getD f.ct.toNat 0
    let kept (k n : Nat) : Bool := !st.sparse || maskKeeps ms kc k n
    let pair (i n k : Nat) : Ex × Ex := (acrossElem as kc i k, acrossElem ws kc n k)
    let terms (i n : Nat) : List Term :=
      if cls = 1 then ((upFrom 0 (8 * kc)).filter (fun k => kept k n)).map (fun k => Term.prod (pair i n k).1 (pair i n k).2)
      else (upFrom 0 (8 * kc / 32)).map (fun b =>
        blockTerm (acrossScale as kc i (32 * b)) (acrossScale ws kc n (32 * b))
          (((upFrom (32 * b) 32).filter (fun k => kept k n)).map (pair i n)))
    let bank := b01 f.bank
    let rs := rowsOf (f.mm1.toNat + 1) (fun i n =>
      sum32 (gangRm arr f.rm ct i n) (accTerm f.acc (g.accAt bank (f.accr.toNat + i) n) ++ terms i n))
    s.setGang gn (g.takeRows bank f.accr.toNat rs)

/-- GMMA.B (11 R298). -/
def State.runGmmaB (s : State) (gn : Nat) (arr : List Arrival) (f : GForm) : State :=
  let g := s.gang gn
  match g.station with
  | none => s
  | some st =>
    let ws := storedBands st.bands
    let gs := s.bandsOf gn arr f.ta.toNat
    let ms := s.bandsOf gn arr f.tm.toNat
    let cls := (fmtClass (tcFmt (bandAt ws 0).1)).getD 0
    let ct := (slot0 arr).tcs.getD f.ct.toNat 0
    let term (i k n : Nat) : Term :=
      if cls = 1 then Term.prod (acrossElem ws 8 n k) (acrossElem gs 8 i n)
      else scaledTerm (acrossScale ws 8 n k) (acrossScale gs 8 i n) (acrossElem ws 8 n k) (acrossElem gs 8 i n)
    let bank := b01 f.bank
    let rs := rowsOf (f.mm1.toNat + 1) (fun i k =>
      sum32 (gangRm arr f.rm ct i k) (accTerm f.acc (g.accAt bank (f.accr.toNat + i) k) ++
        ((upFrom 0 64).filter (fun n => !f.msk || maskKeeps ms 8 k n)).map (term i k)))
    s.setGang gn (g.takeRows bank f.accr.toNat rs)

/-- GMMA.O (11 R299). -/
def State.runGmmaO (s : State) (gn : Nat) (arr : List Arrival) (f : GForm) : State :=
  let g := s.gang gn
  let xs := s.bandsOf gn arr f.ta.toNat
  let ds := s.bandsOf gn arr f.tb.toNat
  let ms := s.bandsOf gn arr f.tm.toNat
  let cls := (fmtClass (tcFmt (bandAt xs 0).1)).getD 0
  let ct := (slot0 arr).tcs.getD f.ct.toNat 0
  let term (k n i : Nat) : Term :=
    if cls = 1 then Term.prod (acrossElem xs 8 i k) (acrossElem ds 8 i n)
    else scaledTerm (acrossScale xs 8 i k) (acrossScale ds 8 i n) (acrossElem xs 8 i k) (acrossElem ds 8 i n)
  let rs := rowsOf 64 (fun k n =>
    sum32 (gangRm arr f.rm ct k n) (accTerm f.acc (tget 0 (64 * k + n) g.outer) ++
      if !f.msk || maskKeeps ms 8 k n then (upFrom 0 (f.mm1.toNat + 1)).map (term k n) else []))
  let flat := rs.flatMap (fun r => r)
  s.setGang gn ({ g with outer := tputs 0 0 (flat.map Prod.fst) [] }.countBank (b01 f.bank) (flat.map Prod.snd))

/-! ### Drains and copies (11 R302 to R304) -/

/-- An accumulator value scaled and clipped, exactly, with the event of 0 times infinity (11 R302). -/
def scaleClip (v : Word) (a : BitVec 32) : Ex × Ev :=
  let p := (exF32 a).mul (decodeF 0 (v.toNat % 2 ^ 32))
  let c := decodeF 0 (v.toNat / 2 ^ 32 % 2 ^ 31)
  let x :=
    if !c.isFin || p.1.isNan then p.1
    else if c.lt p.1 then c
    else if p.1.lt c.neg then c.neg
    else p.1
  (x, if p.2 then Ev.isNan else Ev.none)

/-- DRAIN's rows for the slots of one block, or one slot of a format without blocks: elements of columns `8 * s` on with their
events, and the scale byte where there is one. The one NaN event of a block of FP6 or FP4 elements (03 R84) is given to the block's
first column, where it counts once with a 0 × infinity event of that column, the model's choice (notes/assumptions/79). -/
def drainRow (g : Gang) (arr : List Arrival) (f : AForm) (i sl : Nat) : List (Nat × Ev) × Nat :=
  let fm := f.fmt.toNat
  let w (q : Nat) : Word := (arr.map (fun a => a.tcs.getD f.td.toNat 0)).getD q 0
  let v (q : Nat) : Word := (arr.map Arrival.sval).getD q 0
  let x (c : Nat) : Ex × Ev := scaleClip (v (c / 8)) (g.accAt (b01 f.bank) (f.accr.toNat + i) c)
  let rm (c : Nat) : Rm := gangRm arr f.rm (w (c / 8)) i (c % 8)
  if isMxFmt fm then
    let c0 := sl / 4 * 32
    let b : Int × Int := mxExp (elemFmt fm) ((upFrom c0 32).map (fun c => (x c).1))
    let bad := mxNan (elemFmt fm) ((upFrom c0 32).map (fun c => (x c).1))
    let el (c : Nat) : Nat × Ev :=
      if bad then (0, if c = c0 then Ev.isNan else Ev.none) else mxElement (elemFmt fm) f.sp (rm c) b.1 b.2 (x c).1
    ((upFrom (8 * sl) 8).map (fun c => ((el c).1, (el c).2.or (x c).2)), if bad then 0xFF else (b.2 + 127).toNat)
  else
    ((upFrom (8 * sl) 8).map (fun c => let e := toF fm f.sp (rm c) (x c).1; (e.1, e.2.or (x c).2)), 0)

/-- A row put into a tile of shape `w`. -/
def putTileRow (w : Word) (i : Nat) (es : List Nat) (scale : Nat) (v : Nat) : Nat :=
  let v := es.zipIdx.foldl (fun v p => setFld v (tcElemBit w i p.2) (fmtWidth (tcFmt w)) p.1) v
  if isMxFmt (tcFmt w) then setFld v (8 * tcScaleByte w i 0) 8 scale else v

/-- A tile of slot `sl` with rows written and events counted. -/
def State.putTile (s : State) (n t : Nat) (w : Word) (rs : List (List (Nat × Ev) × Nat)) (count : Bool) : State :=
  let c := s.core n
  let v := rs.zipIdx.foldl (fun v p => putTileRow w p.2 (p.1.1.map Prod.fst) p.1.2 v) (c.reg (.t t))
  let c := c.setTile t v
  s.setCore n (if count then c.countTile t (rs.flatMap (fun r => r.1.map Prod.snd)) else c)

/-- DRAIN (11 R302). -/
def State.runDrain (s : State) (gn : Nat) (arr : List Arrival) (f : AForm) : State :=
  let g := s.gang gn
  let m := f.mm1.toNat + 1
  let s := (arr.zipIdx).foldl (fun s p =>
    s.putTile (8 * gn + p.2) f.td.toNat (p.1.tcs.getD f.td.toNat 0) ((upFrom 0 m).map (fun i => drainRow g arr f i p.2)) true) s
  if f.clr then s.setGang gn (g.zeroRows (b01 f.bank) f.accr.toNat m) else s

/-- ODRAIN (11 R303). -/
def State.runOdrain (s : State) (gn : Nat) (arr : List Arrival) (f : AForm) : State :=
  let g := s.gang gn
  let bank := b01 f.bank
  let ct := (slot0 arr).tcs.getD f.ct.toNat 0
  let o (k n : Nat) : BitVec 32 := tget 0 (64 * k + n) g.outer
  let rs := rowsOf 64 (fun k n =>
    if f.add then sum32 (gangRm arr f.rm ct k n) [Term.of (exF32 (g.accAt bank (f.accr.toNat + k) n)), Term.of (exF32 (o k n))]
    else (o k n, Ev.none))
  s.setGang gn { g.takeRows bank f.accr.toNat rs with outer := [] }

/-- ACCLD (11 R304). -/
def State.runAccld (s : State) (gn : Nat) (arr : List Arrival) (f : AForm) : State :=
  let bs := s.bandsOf gn arr f.td.toNat
  let rs := (upFrom 0 (f.mm1.toNat + 1)).map (fun i => (upFrom 0 64).map (fun c =>
    let b := bandAt bs (c / 8)
    BitVec.ofNat 32 (tileElem b.1 b.2 i (c % 8))))
  s.setGang gn ((s.gang gn).putRows (b01 f.bank) f.accr.toNat rs)

/-- ACCST (11 R304). -/
def State.runAccst (s : State) (gn : Nat) (arr : List Arrival) (f : AForm) : State :=
  let g := s.gang gn
  let row (i sl : Nat) : List (Nat × Ev) :=
    (upFrom (8 * sl) 8).map (fun c => ((g.accAt (b01 f.bank) (f.accr.toNat + i) c).toNat, Ev.none))
  (arr.zipIdx).foldl (fun s p =>
    s.putTile (8 * gn + p.2) f.td.toNat (p.1.tcs.getD f.td.toNat 0)
      ((upFrom 0 (f.mm1.toNat + 1)).map (fun i => (row i p.2, 0))) false) s

/-- Rows of a bank as lists. -/
def Gang.rowList (g : Gang) (bank row m : Nat) : List (List (BitVec 32)) := (upFrom row m).map (g.accRow bank)

/-- ACCCP (11 R304). -/
def State.runAcccp (s : State) (gn : Nat) (f : AForm) : State :=
  let g := s.gang gn
  s.setGang gn (g.putRows (b01 f.bank2) f.accr2.toNat (g.rowList (b01 f.bank) f.accr.toNat (f.mm1.toNat + 1)))

/-- The sum that closes a join over the slots it holds (11 R305, R307). -/
def Gang.joinSum (g : Gang) (arr : List Arrival) (f : AForm) (held : Table (Option (List (BitVec 32)))) : Gang :=
  let bank := b01 f.bank
  let ct := (slot0 arr).tcs.getD f.ct.toNat 0
  let cs := held.filterMap Prod.snd
  g.takeRows bank f.accr.toNat (rowsOf (f.mm1.toNat + 1) (fun i c =>
    sum32 (gangRm arr f.rm ct i c) (Term.of (exF32 (g.accAt bank (f.accr.toNat + i) c)) ::
      cs.map (fun rows => Term.of (exF32 (rows.getD (64 * i + c) 0))))))

end Sys2Proof.Machine
end

