-- ==== Sys2Proof/Machine/Cont.lean ====
section
/-! DEFINITION. The continuity unit: its registers, the checks that its instructions make when their wired barrier completes,
and what they do at the head of the matrix queue (12 R311 to R321). -/

namespace Sys2Proof.Machine

namespace Cont

/-- Blocks NB, tiles per block NT, steps NSTEP (12 R311). -/
def nb (c : Cont) : Nat := fld c.geom.toNat 0 6 + 1
def nt (c : Cont) : Nat := fld c.geom.toNat 16 16 + 1
def nstep (c : Cont) : Nat := fld c.geom.toNat 32 16

/-- Threshold T and exponent E of a block. -/
def limit (c : Cont) (b : Nat) : Nat := fld (tget 0 b c.thr).toNat 0 32
def expo (c : Cont) (b : Nat) : Int := toS (fld (tget 0 b c.thr).toNat 32 8) 8

/-- Address of the entry of tile `i` of block `b` (12 R312). This sum, PTR and the sheet's address are taken modulo 2^64, the model's
choice (notes/assumptions/91). -/
def entryVa (c : Cont) (b i : Nat) : Nat := (c.ctbase.toNat + (b * c.nt + i) * 128) % 2 ^ 64

/-- PTR of an entry (12 R312). -/
def ptr (c : Cont) (b i : Nat) : Nat := (c.cstbase.toNat + (b * c.nt + i) * 32768) % 2 ^ 64

/-- Index of a tile's bit in the sheet at the current step (12 R313). -/
def bitIndex (c : Cont) (b i : Nat) : Nat := (c.cstep.toNat % 2 ^ 32 % c.nstep * c.nb + b) * c.nt + i

/-- Address of the byte of the sheet that holds the bit. -/
def sheetVa (c : Cont) (b i : Nat) : Nat := (c.csbase.toNat + c.bitIndex b i / 8) % 2 ^ 64

/-- A register as CSHEET reads it, reserved bits zero (12 R311). -/
def read (c : Cont) (n : Nat) : Word :=
  if n = 0 then c.ctbase
  else if n = 1 then c.csbase
  else if n = 2 then c.cstbase
  else if n = 3 then BitVec.ofNat 64 (fld c.geom.toNat 0 6 + 2 ^ 16 * fld c.geom.toNat 16 32)
  else if n = 4 then BitVec.ofNat 64 (c.cstep.toNat % 2 ^ 32)
  else if n = 5 then BitVec.ofNat 64 (c.cref.toNat % 2 ^ 16)
  else if n = 6 then BitVec.ofNat 64 c.pend.length
  else if 0x10 ≤ n ∧ n ≤ 0x17 then
    (match c.pend[n - 0x10]? with
     | some (b, i) => BitVec.ofNat 64 (1 + 2 ^ 8 * b + 2 ^ 16 * i)
     | none => 0)
  else if 0x20 ≤ n ∧ n ≤ 0x27 then
    BitVec.ofNat 64 (ofS (tget 0 (2 * (n - 0x20)) c.sig) 32 + 2 ^ 32 * ofS (tget 0 (2 * (n - 0x20) + 1) c.sig) 32)
  else if n = 0x28 then BitVec.ofNat 64 (b01 c.sigv + 2 * b01 c.nf + 2 ^ 8 * c.sigb)
  else if 0x40 ≤ n then BitVec.ofNat 64 ((tget 0 (n - 0x40) c.thr).toNat % 2 ^ 40)
  else 0

/-- A register as CCFG writes it (12 R321). -/
def write (c : Cont) (n : Nat) (v : Word) : Cont :=
  if n = 0 then { c with ctbase := v }
  else if n = 1 then { c with csbase := v }
  else if n = 2 then { c with cstbase := v }
  else if n = 3 then { c with geom := v }
  else if n = 4 then { c with cstep := v }
  else if n = 5 then { c with cref := v }
  else { c with thr := tput 0 (n - 0x40) v c.thr }

/-- A value that CCFG may write to a register (12 R321). -/
def writable (c : Cont) (n : Nat) (v : Word) : Bool :=
  let k := v.toNat
  (c.pend.isEmpty || decide (3 < n)) &&
  (if n = 0 then k % 128 == 0
   else if n = 1 then k % 8 == 0
   else if n = 2 then k % 4096 == 0
   else if n = 3 then fld k 6 10 == 0 && fld k 48 16 == 0 && fld k 32 16 != 0
   else if n = 4 then decide (k < 2 ^ 32)
   else if n = 5 then decide (k < 2 ^ 16)
   else decide (k < 2 ^ 40))

end Cont

/-! ### The checks (12 R314) -/

/-- How the checks of a continuity instruction end: the physical addresses it may access with their
translations, a trap of the gang, or a wait for a table walk. -/
inductive ContCheck where
  | ok (pages : List (Nat × TlbEntry))
  | fail (cause code info : Nat)
  | wait
  deriving DecidableEq, Repr

/-- The tile that a continuity instruction names in slot 0's register. -/
def contTile (arr : List Arrival) : Nat := (slot0 arr).sval.toNat % 2 ^ 16

/-- Step 2 of 12 R314: the condition stated for the instruction. -/
def Cont.holds (c : Cont) (arr : List Arrival) : Instr → Bool
  | .csig _ _ b => decide (b.toNat < c.nb)
  | .ctest _ _ _ b =>
    c.sigv && c.sigb == b.toNat && decide (b.toNat < c.nb) && decide (contTile arr < c.nt) && c.nstep != 0 &&
    (decide (c.pend.length < 8) || c.pend.contains (b.toNat, contTile arr))
  | .cstore _ _ _ b => c.pend.contains (b.toNat, contTile arr)
  | .ccfg _ _ n => c.writable n.toNat (slot0 arr).sval
  | _ => true

/-- The addresses of step 3 with whether they are read; all are written. -/
def Cont.addresses (c : Cont) (arr : List Arrival) : Instr → List (Nat × Bool)
  | .ctest _ _ _ b => [(c.entryVa b.toNat (contTile arr), true), (c.sheetVa b.toNat (contTile arr), true)]
  | .cstore _ _ _ b => (upFrom 0 8).map (fun sl => ((c.ptr b.toNat (contTile arr) + 4096 * sl) % 2 ^ 64, false))
  | _ => []

/-- The translations of step 3 in their order (12 R314, 18 R399). -/
def contPages (n : Nat) (take : Bool) : List (Nat × Bool) → List (Nat × TlbEntry) → State → ContCheck × State
  | [], pas, s => (.ok pas, s)
  | (va, rd) :: l, pas, s =>
    let q := { s.engineAsker n with user := true }
    match reach q va rd true (s.translate q va) with
    | (.wait, s) => (.wait, s)
    | (.trap cause code info, s) => (.fail cause code info, s)
    | (.page t, s) =>
      if paPeer (t.addr va) ≠ s.peerid ∨ (take ∧ leafPub t.leaf) then (.fail 0x14 0 va, s)
      else contPages n take l (pas ++ [(paLocal (t.addr va), t)]) s

/-- Steps 2 and 3 of 12 R314. -/
def State.contCheck (s : State) (gn : Nat) (arr : List Arrival) (i : Instr) : ContCheck × State :=
  let c := (s.gang gn).cont
  if !c.holds arr i then (.fail 0x24 0 0, s)
  else contPages (8 * gn) (s.takeRun (8 * gn)).isSome (c.addresses arr i) [] s

/-! ### The instructions (12 R315, R318 to R321) -/

/-- An element in units of 2^E, truncated; none where it is not finite (12 R318). -/
def sigUnits (e : Int) : Ex → Option Int
  | .fin n m x => let u : Int := roundUnits .rz m x e; some (if n then -u else u)
  | _ => none

/-- CSIG (12 R318). -/
def State.runCsig (s : State) (gn : Nat) (arr : List Arrival) (t b : Nat) : State :=
  let g := s.gang gn
  let bs := s.bandsOf gn arr t
  let r := tcRows (bandAt bs 0).1
  let e := g.cont.expo b
  let row (i : Nat) : List (Option Int) := (upFrom 0 64).map (fun j => sigUnits e (bandElem (bandAt bs (j / 8)) i (j % 8)))
  let rows := (upFrom 0 r).map row
  let sat (v : Int) : Int := max (-2 ^ 31) (min (2 ^ 31 - 1) v)
  let sum (k : Nat) : Int :=
    sat ((((rows.drop (k * r / 16)).take ((k + 1) * r / 16 - k * r / 16)).flatMap id).foldl (fun a x => a + x.getD 0) 0)
  let c := { g.cont with
    sig := tputs 0 0 ((upFrom 0 16).map sum) [], nf := (rows.flatMap id).any Option.isNone, sigb := b, sigv := true }
  s.setGang gn { g with cont := c }

/-- Words of memory read by the unit, an uncorrectable one as zero with its record (12 R315, 09 R225). -/
def State.contWords (s : State) (cx : Ctx) (va a : Nat) : Nat → List Nat × State
  | 0 => ([], s)
  | k + 1 =>
    let (v, s) := s.homeGet 1 cx false va a 8
    let (vs, s) := s.contWords cx (va + 8) (a + 8) k
    (v :: vs, s)

/-- A result of a continuity instruction for a register of each core, which is pending under the identifier (12 R319, R321). -/
def State.fillAll (s : State) (gn id : Nat) (r : Reg) (v : Nat) : State :=
  (upFrom (8 * gn) 8).foldl (fun s n => s.fillPend n id r v) s

/-- A pending result written on the eight cores of a gang in one cycle (12 R319). -/
def State.writeAll (s : State) (gn id : Nat) : State := (upFrom (8 * gn) 8).foldl (fun s n => s.writePend n id) s

/-- Whether a pending result can be written on all eight cores of a gang now. -/
def State.allCleared (s : State) (gn id : Nat) : Bool :=
  (upFrom (8 * gn) 8).all (fun n => (s.core n).pends.all (fun p => p.id != id || (s.core n).cleared p))

/-- D set for the pages written (18 R402). -/
def State.dirtied (s : State) (pages : List (Nat × TlbEntry)) : State :=
  pages.foldl (fun s p => s.markDirty p.2) s

/-- CTEST (12 R319), with the pages of the entry and of the sheet byte; D is set for a page that is written (18 R402). -/
def State.runCtest (s : State) (gn id : Nat) (arr : List Arrival) (pd b : Nat) (pages : List (Nat × TlbEntry)) : State :=
  let i := contTile arr
  let c := (s.gang gn).cont
  let cx := s.ctxOf (8 * gn)
  let ea := ((pages.head?).map Prod.fst).getD 0
  let sa := ((pages[1]?).map Prod.fst).getD 0
  let (ws, s) := s.contWords cx (c.entryVa b i) ea 9
  let old (k : Nat) : Int := toS (fld (ws.getD (k / 2) 0) (32 * (k % 2)) 32) 32
  let last := fld (ws.getD 8 0) 0 32
  let flags := fld (ws.getD 8 0) 32 8
  let d := (upFrom 0 16).foldl (fun a k => a + (tget 0 k c.sig - old k).natAbs) 0
  let age := (c.cstep.toNat + 2 ^ 32 - last) % 2 ^ 32
  let skip := bitAt flags 0 && !bitAt flags 1 && !c.nf && decide (age < c.cref.toNat % 2 ^ 16) && decide (d ≤ c.limit b)
  let bit := c.bitIndex b i % 8
  let (byte, s) := s.homeGet 1 cx false (c.sheetVa b i) sa 1
  let s := (s.dirtied (pages.drop 1)).engineWrite (dieOf (8 * gn)) sa (leBytes (setFld byte bit 1 (b01 skip)) 1)
  let s := if skip then s
    else
      let entry := ((upFrom 0 16).flatMap (fun k => leBytes (ofS (tget 0 k c.sig) 32) 4)) ++ leBytes c.cstep.toNat 4 ++
        leBytes (1 + 2 * b01 c.nf) 4 ++ leBytes (c.ptr b i) 8 ++ List.replicate 48 0
      let s := ((s.uncorrWords 1 cx (c.entryVa b i + 72) (ea + 72) 56).dirtied (pages.take 1)).engineWrite (dieOf (8 * gn)) ea entry
      let g := s.gang gn
      s.setGang gn { g with cont := { c with pend := if c.pend.contains (b, i) then c.pend else c.pend ++ [(b, i)] } }
  (s.fillAll gn id (.px pd) (if skip then 0 else allOnes)).writeAll gn id

/-- CSTORE (12 R320): the footprint of each slot's tile at its band. -/
def State.runCstore (s : State) (gn : Nat) (arr : List Arrival) (t b : Nat) (pages : List (Nat × TlbEntry)) : State :=
  let bs := s.bandsOf gn arr t
  let s := (bs.zip (pages.zip (upFrom 0 8))).foldl (fun s p =>
    let n := tcFoot p.1.1
    let va := (s.gang gn).cont.ptr b (contTile arr) + 4096 * p.2.2
    (s.uncorrWords 1 (s.ctxOf (8 * gn)) va p.2.1.1 n).engineWrite (dieOf (8 * gn)) p.2.1.1 (leBytes p.1.2 n)) (s.dirtied pages)
  let g := s.gang gn
  s.setGang gn { g with cont := { g.cont with pend := without (b, contTile arr) g.cont.pend } }

/-- CCFG (12 R321). -/
def State.runCcfg (s : State) (gn : Nat) (arr : List Arrival) (n : Nat) : State :=
  let g := s.gang gn
  s.setGang gn { g with cont := g.cont.write n (slot0 arr).sval }

/-- Whether the unit may make its accesses now: the homes cover the vector `v` of its acquire and have applied the earlier writes of
its die, and no core of the gang waits for a cut (12 R315, 07 R171, R172, R175, 08 R210). -/
def State.contReady (s : State) (gn : Nat) (v : Table Nat) (pages : List (Nat × TlbEntry)) : Bool :=
  pages.all (fun a => s.covers (homeOf a.1) v && s.engineFree (dieOf (8 * gn)) a.1) &&
  (pages.isEmpty || !(upFrom (8 * gn) 8).any (fun n => s.takeWait n true false))

/-- The release that ends a continuity instruction, and what its register carries to the gang's later accesses (12 R315,
R316). -/
def State.contRelease (s : State) (gn : Nat) : State :=
  (s.takeHorizon (dieOf (8 * gn))).cleanCluster (clusterOf (8 * gn))

end Sys2Proof.Machine
end

