-- ==== Sys2Proof/Machine/Gang.lean ====
section
/-! DEFINITION. Gang instructions: the wired barrier, the matrix queue and its events, joins, and the bank counters
(11 R283 to R289, R295 to R309; 12 R314 to R321). -/

namespace Sys2Proof.Machine

/-! ### The wired barrier (11 R284, R285) -/

/-- A gang instruction without GUARD, STALL and W, which are per core (11 R285). -/
def gangBody (i : Instr) : Instr :=
  let h : Hdr := { gneg := false, gpred := 0, stall := 0, w := false }
  match i with
  | .wld _ a b c => .wld h a b c
  | .gmmaF _ f => .gmmaF h f
  | .gmmaB _ f => .gmmaB h f
  | .gmmaO _ f => .gmmaO h f
  | .drain _ f => .drain h f
  | .drainAdd _ f => .drainAdd h f
  | .odrain _ f => .odrain h f
  | .join _ f => .join h f
  | .accld _ f => .accld h f
  | .accst _ f => .accst h f
  | .acccp _ f => .acccp h f
  | .tclrBank _ a b => .tclrBank h a b
  | .csig _ a b => .csig h a b
  | .ctest _ a b c => .ctest h a b c
  | .cstore _ a b c => .cstore h a b c
  | .csheet _ a b => .csheet h a b
  | .ccfg _ a b => .ccfg h a b
  | i => i

/-- A continuity instruction (12 R314). -/
def isCont : Instr → Bool
  | .csig .. => true
  | .ctest .. => true
  | .cstore .. => true
  | .csheet .. => true
  | .ccfg .. => true
  | _ => false

/-- The register that a continuity instruction leaves pending on every core (12 R319, R321). -/
def contReg : Instr → Option Reg
  | .ctest _ _ pd _ => some (.px pd.toNat)
  | .csheet _ r _ => some (.s r.toNat)
  | _ => none

/-- The eight arrivals, where all cores have arrived. -/
def Gang.allArrived (g : Gang) : Option (List Arrival) := (upFrom 0 8).mapM (fun k => tget none k g.arrivals)

/-- An 8-bit mask of the slots with a property. -/
def slotMask (p : Nat → Bool) : Nat := mkBits p 0 8

/-- A barrier that ends in a trap on all eight cores (11 R285): each X-stream takes it at its next try. -/
def State.gangFail (s : State) (gn cause code mask info : Nat) : State :=
  let s := s.setGang gn { s.gang gn with arrivals := [] }
  (upFrom (8 * gn) 8).foldl (fun s n =>
    let c := s.core n
    s.setCore n { c with x := { c.x with stage := .gangTrap cause code mask info } }) s

/-- A core's X-stream goes on after the barrier completed in cycle `t` (11 R284); at level S it stops before its next instruction and
TPCX names that (16 R362). -/
def State.gangRetire (s : State) (n t : Nat) (a : Arrival) : State :=
  let c := s.core n
  let x := c.x.advance 4096 t a.instr.hdr.stall.toNat (c.level == .s)
  let c := { c with x := x }
  s.setCore n (if c.level = .s then c.svPut 3 (BitVec.ofNat 64 (x.pc + 2 ^ 12 * b01 x.run)) else c)

/-- The instruction enters the matrix queue and all eight streams go on (11 R285). -/
def State.gangEnter (s : State) (gn : Nat) (arr : List Arrival) (pages : List (Nat × TlbEntry)) : State :=
  let i := (slot0 arr).instr
  let id := s.nextId
  let s := (s.fresh).2
  let g := s.gang gn
  let s := s.setGang gn { g with arrivals := [],
                                 queue := g.queue ++ [{ id := id, instr := gangBody i, arr := arr, sent := none, pages := pages,
                                                        vec := if isCont i then s.vecOf (dieOf (8 * gn)) else [],
                                                        run := (s.core (8 * gn)).task.map Task.run, ctx := s.ctxOf (8 * gn) }] }
  let t := (upFrom (8 * gn) 8).foldl (fun t n => max t (s.core n).cyc) 0
  let s := (arr.zipIdx).foldl (fun s p => s.gangRetire (8 * gn + p.2) t p.1) s
  match contReg i with
  | some r => (upFrom (8 * gn) 8).foldl (fun s n =>
      let c := s.core n
      s.setCore n { c with pends := c.pends ++ [{ id := id, x := true, outs := [(r, none)], masks := [] }] }) s
  | none => s

/-- The wired barrier completes where all eight cores have arrived, by the first applicable row of 11 R285; a continuity
instruction waits for an empty queue and makes its checks then (12 R314). -/
def State.tryBarrier (s : State) (gn : Nat) : State :=
  let g := s.gang gn
  match g.allArrived with
  | none => s
  | some arr =>
    let a0 := slot0 arr
    let key (k : Nat) : List Nat := match arr[k]? with
      | some a => roleKeys (fun t => a.tcs.getD t 0) a.instr
      | none => []
    let differ := slotMask (fun k => (arr[k]?).any (fun a => gangBody a.instr != gangBody a0.instr))
    let breach := slotMask (fun k => (arr[k]?).any (fun a => a.breach) || key k != key 0)
    if differ ≠ 0 then s.gangFail gn 0x21 0 differ 0
    else if isCont a0.instr then
      if !g.queue.isEmpty then s
      else if breach ≠ 0 then s.gangFail gn 0x23 0 breach 0
      else
        match s.contCheck gn arr a0.instr with
        | (.ok pages, s) => s.gangEnter gn arr pages
        | (.fail cause code info, s) => s.gangFail gn cause code 0xFF info
        | (.wait, s) => s
    else if breach ≠ 0 then s.gangFail gn 0x23 0 breach 0
    else if 16 ≤ g.queue.length then s
    else s.gangEnter gn arr []

/-- The task on core `n` lies below a GANG level (02 R44, 11 R283). -/
def State.belowGang (s : State) (n : Nat) : Bool := (s.runOf n).any (fun r => r.gangLv.isSome)

/-- What the current core brings to the barrier (11 R284). -/
def State.arrivalOf (s : State) (i : Instr) (sreg : Option Nat) : Arrival :=
  let c := s.me
  let tcs := (upFrom 0 8).map c.shape
  { instr := i, tcs := tcs, sval := (sreg.map (fun r => BitVec.ofNat 64 (c.reg (.s r)))).getD 0,
    kval := BitVec.ofNat 64 c.keyCtx.1, kstep := BitVec.ofNat 64 c.keyCtx.2,
    breach := !shapesOk (s.gang (gangOf s.cur.core)).stationNow (fun t => tcs.getD t 0) i, since := s.now }

/-- The release at device scope that the issuing stream makes for an engine with the acquire flag set (07 R172, R189): a
continuity instruction is one (12 R315). -/
def State.engineAcquire (s : State) : State := (s.preRelease 5).takeHorizon (dieOf s.cur.core)

/-- The arrival of the current core (11 R284): the X-stream waits for the barrier. -/
def State.gangArrive (s : State) (i : Instr) (sreg : Option Nat) : State :=
  let s := if isCont i then s.engineAcquire else s
  let gn := gangOf s.cur.core
  let g := s.gang gn
  let s' := s.setGang gn { g with arrivals := tput none (s.cur.core % 8) (some (s.arrivalOf i sreg)) g.arrivals }
  s'.setSt { s.st with stage := .gangArrived, ready := s.now + 1, waitFrom := some s.now }

/-- A gang instruction (11 R283 to R285): `reads` and `writes` are what it names on this core, `sreg` the s register it reads;
`one` says that only slot 0 reads it. -/
def gangOp (i : Instr) (reads writes : List Reg) (sreg : Option Nat) (one : Bool) (s : State) : Out :=
  let sreg := if one && s.cur.core % 8 != 0 then none else sreg
  issue i s fun s =>
    withNeeds (needs (reads ++ (sreg.map Reg.s).toList) writes) s fun s =>
      if !s.belowGang s.cur.core then trap 0x05 0 0 0 s
      else
        let gn := gangOf s.cur.core
        match s.st.stage with
        | .gangTrap cause code mask info => trap cause code mask info (s.setSt { s.st with stage := .start })
        | .gangArrived => .next ((s.setSt { s.st with ready := s.now + 1 }).tryBarrier gn)
        | _ => .next ((s.gangArrive i sreg).tryBarrier gn)

/-! ### The instructions -/

/-- Tile registers of a list. -/
def tileRegs (l : List Nat) : List Reg := l.map Reg.t

/-- WLD (11 R295). -/
def execWld (h : Hdr) (tw tm : BitVec 3) (sp : Bool) (s : State) : Out :=
  gangOp (.wld h tw tm sp) (tileRegs (gangTiles (.wld h tw tm sp)).1) [] none false s

/-- GMMA.F (11 R297). -/
def execGmmaF (h : Hdr) (f : GForm) (s : State) : Out :=
  gangOp (.gmmaF h f) (tileRegs (gangTiles (.gmmaF h f)).1) [] none false s

/-- GMMA.B (11 R298). -/
def execGmmaB (h : Hdr) (f : GForm) (s : State) : Out :=
  gangOp (.gmmaB h f) (tileRegs (gangTiles (.gmmaB h f)).1) [] none false s

/-- GMMA.O (11 R299). -/
def execGmmaO (h : Hdr) (f : GForm) (s : State) : Out :=
  gangOp (.gmmaO h f) (tileRegs (gangTiles (.gmmaO h f)).1) [] none false s

/-- DRAIN (11 R302): every slot reads its own scale and clip. -/
def execDrain (h : Hdr) (f : AForm) (s : State) : Out := gangOp (.drain h f) [] [.t f.td.toNat] (some f.sidx.toNat) false s

/-- DRAIN.ADD (11 R306): slot 0 names the target gang. -/
def execDrainAdd (h : Hdr) (f : AForm) (s : State) : Out := gangOp (.drainAdd h f) [] [] (some f.sidx.toNat) true s

/-- ODRAIN (11 R303). -/
def execOdrain (h : Hdr) (f : AForm) (s : State) : Out := gangOp (.odrain h f) [] [] none false s

/-- JOIN (11 R305). -/
def execJoin (h : Hdr) (f : AForm) (s : State) : Out := gangOp (.join h f) [] [] none false s

/-- ACCLD (11 R304). -/
def execAccld (h : Hdr) (f : AForm) (s : State) : Out := gangOp (.accld h f) [.t f.td.toNat] [] none false s

/-- ACCST (11 R304). -/
def execAccst (h : Hdr) (f : AForm) (s : State) : Out := gangOp (.accst h f) [] [.t f.td.toNat] none false s

/-- ACCCP (11 R304). -/
def execAcccp (h : Hdr) (f : AForm) (s : State) : Out := gangOp (.acccp h f) [] [] none false s

/-- TCLR of a bank (11 R309): it clears in its place in the matrix queue. -/
def execTclrBank (h : Hdr) (bk : Bool) (m : BitVec 4) (s : State) : Out := gangOp (.tclrBank h bk m) [] [] none false s

/-- TSTAT of a bank (11 R308): no gang instruction, but it waits for every one that the core has arrived. -/
def execTstatBank (h : Hdr) (bk : Bool) (r : BitVec 4) (s : State) : Out :=
  issue (.tstatBank h bk r) s fun s =>
    withNeeds (needs [] [.s r.toNat]) s fun s =>
      if !s.belowGang s.cur.core then trap 0x05 0 0 0 s
      else if !(s.queued s.cur.core).isEmpty then stall s
      else retire h (s.pendNew [(.s r.toNat, some (tget 0 (b01 bk) (s.gang (gangOf s.cur.core)).bctr).toNat)])

/-- CSIG (12 R318). -/
def execCsig (h : Hdr) (t : BitVec 3) (b : BitVec 6) (s : State) : Out := gangOp (.csig h t b) [.t t.toNat] [] none false s

/-- CTEST (12 R319). -/
def execCtest (h : Hdr) (r pd : BitVec 4) (b : BitVec 6) (s : State) : Out :=
  gangOp (.ctest h r pd b) [] [.px pd.toNat] (some r.toNat) true s

/-- CSTORE (12 R320). -/
def execCstore (h : Hdr) (t : BitVec 3) (r : BitVec 4) (b : BitVec 6) (s : State) : Out :=
  gangOp (.cstore h t r b) [.t t.toNat] [] (some r.toNat) true s

/-- CSHEET (12 R321). -/
def execCsheet (h : Hdr) (r : BitVec 4) (n : BitVec 7) (s : State) : Out := gangOp (.csheet h r n) [] [.s r.toNat] none false s

/-- CCFG (12 R321). -/
def execCcfg (h : Hdr) (r : BitVec 4) (n : BitVec 7) (s : State) : Out := gangOp (.ccfg h r n) [] [] (some r.toNat) true s

/-! ### The matrix queue (11 R287) -/

/-- The head of a gang's queue is done: the next one may start, and a barrier that waits for a place is looked at again. -/
def State.gangPop (s : State) (gn : Nat) : State :=
  let g := s.gang gn
  (s.setGang gn { g with queue := g.queue.tail }).tryBarrier gn

/-- The contribution of a DRAIN.ADD, with the launch that entered it (11 R306). -/
def State.contribution (s : State) (gn : Nat) (o : GangOp) (f : AForm) : Contribution :=
  { src := gn, dst := (slot0 o.arr).sval.toNat % 2 ^ 12, opId := o.id,
    run := o.run.getD 0, mm1 := f.mm1.toNat, slot := f.ns.toNat,
    rows := ((s.gang gn).rowList (b01 f.bank) f.accr.toNat (f.mm1.toNat + 1)).flatMap id, ctx := o.ctx }

/-- A DRAIN.ADD at the head sends its contribution once (11 R306). -/
def State.sendContribution (s : State) (gn : Nat) (o : GangOp) (f : AForm) : State :=
  if o.sent.isSome then s
  else
    let g := s.gang gn
    let m := s.contribution gn o f
    let g := { g with queue := { o with sent := some (s.core (8 * gn)).cyc } :: g.queue.tail }
    { s.setGang gn (if f.clr then g.zeroRows (b01 f.bank) f.accr.toNat (f.mm1.toNat + 1) else g) with
      agenda := s.agenda ++ [.joinContribution m] }

/-- GANG_INSTRUCTION_COMPLETE (11 R287): the head of the queue does its work and completes; DRAIN.ADD and JOIN complete by
their own events. -/
def execGangInstructionComplete (gn : Nat) (s : State) : Out :=
  .next (match (s.gang gn).queue with
    | [] => s
    | o :: _ =>
      let a := o.arr
      match o.instr with
      | .wld _ tw tm sp => (s.runWld gn a tw.toNat tm.toNat sp).gangPop gn
      | .gmmaF _ f => (s.runGmmaF gn a f).gangPop gn
      | .gmmaB _ f => (s.runGmmaB gn a f).gangPop gn
      | .gmmaO _ f => (s.runGmmaO gn a f).gangPop gn
      | .drain _ f => (s.runDrain gn a f).gangPop gn
      | .drainAdd _ f => s.sendContribution gn o f
      | .odrain _ f => (s.runOdrain gn a f).gangPop gn
      | .join .. => s
      | .accld _ f => (s.runAccld gn a f).gangPop gn
      | .accst _ f => (s.runAccst gn a f).gangPop gn
      | .acccp _ f => (s.runAcccp gn f).gangPop gn
      | .tclrBank _ bk m =>
        let g := s.gang gn
        (s.setGang gn { g with bctr := tput 0 (b01 bk) (clearCounts (tget 0 (b01 bk) g.bctr) m.toNat) g.bctr }).gangPop gn
      | .csig _ t b => ((s.runCsig gn a t.toNat b.toNat).contRelease gn).gangPop gn
      | .ctest _ _ pd b =>
        if !s.contReady gn o.vec o.pages || !s.allCleared gn o.id then s
        else ((s.runCtest gn o.id a pd.toNat b.toNat o.pages).contRelease gn).gangPop gn
      | .cstore _ t _ b =>
        if !s.contReady gn o.vec o.pages then s
        else ((s.runCstore gn a t.toNat b.toNat o.pages).contRelease gn).gangPop gn
      | .csheet _ r n => ((s.fillAll gn o.id (.s r.toNat) ((s.gang gn).cont.read n.toNat).toNat).contRelease gn).gangPop gn
      | .ccfg _ _ n => ((s.runCcfg gn a n.toNat).contRelease gn).gangPop gn
      | _ => s.gangPop gn)

/-! ### Joins (11 R305 to R307) -/

/-- A JOIN_DROP record (16 R374, R428) of the gang that drops. -/
def State.joinDrop (s : State) (gn code : Nat) (cx : Ctx) (slot target mm1 : Nat) : State :=
  s.errClass 0x06 true code cx 0 (slot + 2 ^ 16 * target) mm1 3 (fun n t => gangOf n == gn && (s.core n).task == some t)

/-- JOIN_OPEN (11 R305): a JOIN at the head of the queue opens, for contributions of the launch that entered it. -/
def execJoinOpen (gn : Nat) (s : State) : Out :=
  let g := s.gang gn
  .next (match g.queue, g.join with
    | o :: _, none =>
      (match o.instr with
       | .join _ f =>
         let j : OpenJoin := { opId := o.id, form := f, held := [], opened := (s.core (8 * gn)).cyc, run := o.run }
         s.setGang gn { g with join := some j }
       | _ => s)
    | _, _ => s)

/-- The join of a gang closes over what it holds, and its JOIN completes (11 R305, R307). -/
def State.closeJoin (s : State) (gn : Nat) (j : OpenJoin) : State :=
  let g := s.gang gn
  let arr := (g.queue.head?.map GangOp.arr).getD []
  (s.setGang gn { g.joinSum arr j.form j.held with join := none }).gangPop gn

/-- Whether a contribution can be accepted at no join of its target: the target is the sender's own gang, or runs no task of the
sender's launch (11 R306). -/
def State.noTarget (s : State) (c : Contribution) : Bool :=
  c.dst == c.src || !(upFrom (8 * c.dst) 8).any (fun n => (s.core n).task.any (fun t => t.run == c.run))

/-- The acknowledgement of a contribution on its way to the sender. -/
def State.ackJoin (s : State) (c : Contribution) : State :=
  { s with agenda := s.agenda ++ [.contributionAck c.src c.opId] }

/-- JOIN_CONTRIBUTION (11 R305, R306): held at the sender where no join is open. -/
def execJoinContribution (c : Contribution) (s : State) : Out :=
  .next (if s.noTarget c then (s.joinDrop c.dst 3 c.ctx c.slot c.dst c.mm1).ackJoin c
    else
      match (s.gang c.dst).join with
      | none => s
      | some j =>
        let drop (k : Nat) : State := (s.joinDrop c.dst k c.ctx c.slot c.dst c.mm1).ackJoin c
        if j.run ≠ some c.run then drop 3
        else if j.form.ns.toNat ≤ c.slot then drop 0
        else if (tget none c.slot j.held).isSome then drop 1
        else if c.mm1 ≠ j.form.mm1.toNat then drop 2
        else
          let j := { j with held := tput none c.slot (some c.rows) j.held }
          let s := s.ackJoin c
          if j.held.length = j.form.ns.toNat then s.closeJoin c.dst j
          else s.setGang c.dst { s.gang c.dst with join := some j })

/-- CONTRIBUTION_ACK (11 R306): the sender's DRAIN.ADD completes. -/
def execContributionAck (gang opId : Nat) (s : State) : Out :=
  .next (match (s.gang gang).queue with
    | o :: _ => if o.id = opId then s.gangPop gang else s
    | [] => s)

/-- A debugger holds a sequencer of a gang halted (11 R286, R307). -/
def State.gangHalted (s : State) (gn : Nat) : Bool := (upFrom (8 * gn) 8).any (fun n => (s.core n).a.halted || (s.core n).x.halted)

/-- The counts of a gang's wired barrier stop: a debugger holds a sequencer of it halted, or a core of it is being saved (11 R286): its task
waits at SAFEPT for the save of its launch, the model's choice of when that begins (notes/assumptions/89). -/
def State.gangPaused (s : State) (gn : Nat) : Bool :=
  s.gangHalted gn || (upFrom (8 * gn) 8).any (fun n =>
    (s.core n).task.any (fun t => t.safe.isSome) && (s.runOf n).any Run.preempted)

/-- The target gang of a DRAIN.ADD in a matrix queue (11 R306). -/
def GangOp.target (o : GangOp) : Option Nat :=
  match o.instr with
  | .drainAdd .. => some ((slot0 o.arr).sval.toNat % 2 ^ 12)
  | _ => none

/-- The count of an open join stops: a debugger holds a sequencer of the gang, or of a gang that has a contribution for it in its
matrix queue (11 R307). -/
def State.joinPaused (s : State) (gn : Nat) : Bool :=
  s.gangHalted gn || s.gangs.any (fun g => g.2.queue.any (fun o => o.target == some gn) && s.gangHalted g.1)

/-- The count of a DRAIN.ADD at the head of a gang's queue stops: a debugger holds a sequencer of the gang or of its target (11 R307). -/
def State.drainPaused (s : State) (gn : Nat) : Bool :=
  s.gangHalted gn || ((s.gang gn).queue.head?.bind GangOp.target).any s.gangHalted

/-- GANG_TIMEOUT (11 R286): the core withdraws its arrival and traps. -/
def execGangTimeout (core : Nat) (s : State) : Out :=
  let gn := gangOf core
  let g := s.gang gn
  let c := s.core core
  let due := (tget none (core % 8) g.arrivals).any (fun a => decide (a.since + Config.gangLimit ≤ c.cyc))
  .next (if c.x.stage == .gangArrived && due && c.runnable true && !s.gangPaused gn then
      ((s.setGang gn { g with arrivals := tput none (core % 8) none g.arrivals }).setCore core
        { c with x := { c.x with stage := .start } }).trapOn core true 0x22 0 0 0
    else s)

/-- JOIN_TIMEOUT (11 R307): the join closes with the slots it holds; each missing slot is recorded. -/
def execJoinTimeout (gn : Nat) (s : State) : Out :=
  .next (match (s.gang gn).join with
    | some j =>
      if (s.core (8 * gn)).cyc < j.opened + Config.stallLimit ∨ s.joinPaused gn then s
      else
        let missing := (upFrom 0 j.form.ns.toNat).filter (fun q => (tget none q j.held).isNone)
        let cx := ((s.gang gn).queue.head?.map GangOp.ctx).getD s.noCtx
        (missing.foldl (fun s q => s.joinDrop gn 4 cx q gn j.form.mm1.toNat) s).closeJoin gn j
    | none => s)

/-- DRAIN_ADD_TIMEOUT (11 R307): the contribution is discarded and the DRAIN.ADD completes. -/
def execDrainAddTimeout (gn : Nat) (s : State) : Out :=
  .next (match (s.gang gn).queue with
    | o :: _ =>
      (match o.instr, o.sent with
       | .drainAdd _ f, some t =>
         let dst := (slot0 o.arr).sval.toNat % 2 ^ 12
         if (s.core (8 * gn)).cyc < t + Config.stallLimit ∨ s.drainPaused gn then s
         else
           let mine (m : Instr) : Bool := match m with
             | .joinContribution c => c.src == gn && c.opId == o.id
             | _ => false
           let s := { s with agenda := s.agenda.filter (fun m => !mine m) }
           (s.joinDrop gn 5 o.ctx f.ns.toNat dst f.mm1.toNat).gangPop gn
       | _, _ => s)
    | [] => s)

end Sys2Proof.Machine
end

