-- ==== Sys2Proof/Machine/Exchange.lean ====
section
/-! DEFINITION. Exchange sends and the exchange barrier, and the barriers with their phases
(13_exchange_barriers_collectives.md R322 to R337). -/

namespace Sys2Proof.Machine

/-! ### Call sheets (13 R322 to R331) -/

/-- Links between the clusters of two cores of one die: columns first, then rows (13 R325, 01 R12). -/
def hops (a b : Nat) : Nat :=
  let d (x y : Nat) : Nat := if x ≤ y then y - x else x - y
  d (a / 32 % 8) (b / 32 % 8) + d (a / 256 % 4) (b / 256 % 4)

/-- The core that holds group index `i` of a residency group (13 R322, R323). -/
def Run.coreAt (r : Run) (group i : Nat) : Option Nat :=
  (r.places.find? (fun p => p.current == group && p.started)).bind (fun p => p.cores[i]?)

/-- The slot counter of a core (13 R328): router cycles since the latest release of XBAR. -/
def State.slotCount (s : State) (n : Nat) : Nat :=
  match (s.core n).xbarAt with
  | some t => min (s.dcyc - t) (2 ^ 32 - 1)
  | none => 2 ^ 32 - 1

/-- Whether the call sheet grants slot `k` to the task on core `n` for target core `t` (13 R330). -/
def State.granted (s : State) (n k t : Nat) : Bool :=
  match s.runOf n, (s.core n).task with
  | some r, some q => (r.sheet.map Sheet.entries).any (fun es =>
      es.any (fun e => e.1 == k && e.2.1 == q.gidx && r.coreAt q.group e.2.2 == some t))
  | _, _ => false

/-- TINFO of SLOT_MISSED and SLOT_NOT_GRANTED (16 R367). -/
def slotInfo (k t : Nat) : Nat := k + 2 ^ 32 * t

/-- An exchange send that waits for its slot, with the target and the values read at issue (13 R330): once the counter is there it
is on its way to its ejection cycle (13 R331). -/
def xsendWait (h : Hdr) (k t : Nat) (lm : Option Nat) (idx : BitVec 5) (data : List Word) (s : State) : Out :=
  let n := s.cur.core
  if s.slotCount n < k then stallAt (.slotWait t data) s
  else
    let base := (s.me.xbarAt).getD 0
    let target := (s.core t).task.filter (fun q => s.me.task.any (fun m => m.run == q.run && m.group == q.group))
    let m : XMsg := { dst := t, run := ((target.map Task.run).getD 0), wid := (target.map Task.wid).getD 0, lm := lm, index := idx,
                      data := data, lands := base + k + hops n t + 1, ctx := s.ctxOf n }
    retire h { s with agenda := s.agenda ++ [.xsendLanding m] }

/-- An exchange send of slot `k` to core `t` at its issue (13 R330): refused where it is not granted or comes too late. -/
def xsendTo (h : Hdr) (k t : Nat) (lm : Option Nat) (idx : BitVec 5) (data : List Word) (s : State) : Out :=
  if !s.granted s.cur.core k t then trap 0x1D 0 0 (slotInfo k t) s
  else if k < s.slotCount s.cur.core then trap 0x1C 0 0 (slotInfo k t) s
  else xsendWait h k t lm idx data s

/-- XSEND, register form (13 R329, R330). -/
def execXsend (h : Hdr) (d : Desc) (src : BitVec 6) (slot : BitVec 10) (s : State) : Out :=
  issue (.xsend h d src slot) s fun s =>
    match s.st.stage, remoteReg false d with
    | .slotWait t data, _ => xsendWait h slot.toNat t none (remoteFile d).2 data s
    | _, none => trap 0x01 0 0 0 s
    | _, some tgt =>
      withNeeds (needs [tgt, .g src.toNat] []) s fun s =>
        xsendTo h slot.toNat (s.me.reg tgt % 2 ^ 15) none (remoteFile d).2 [BitVec.ofNat 64 (s.me.reg (.g src.toNat))] s

/-- XSEND, LM form (13 R329, R330): eight g registers. -/
def execXsendLm (h : Hdr) (d : Desc) (src : BitVec 6) (slot : BitVec 10) (off : BitVec 16) (s : State) : Out :=
  issue (.xsendLm h d src slot off) s fun s =>
    let srcs := (upFrom src.toNat 8).map Reg.g
    match s.st.stage with
    | .slotWait t data => xsendWait h slot.toNat t (some off.toNat) 0 data s
    | _ =>
      withNeeds ((srcNeeds false d).and (needs srcs [])) s fun s =>
        xsendTo h slot.toNat ((s.take d).1.toNat % 2 ^ 15) (some off.toNat) 0
          (srcs.map (fun r => BitVec.ofNat 64 (s.me.reg r))) s

/-- XSEND_LANDING (13 R331): in its ejection cycle; a late one is discarded with a record. -/
def execXsendLanding (m : XMsg) (s : State) : Out :=
  if s.dcyc < m.lands then .next s
  else if !s.awaits m.dst m.run m.wid then
    .next (match m.lm with
      | some off => s.sendLate 1 m.dst 0 0 off m.ctx
      | none => s.sendLate 1 m.dst 0 m.index.toNat 0 m.ctx)
  else
    let c := (s.core m.dst).arrival
    .next (s.setCore m.dst (match m.lm with
      | none => c.setReg (.g (32 + m.index.toNat)) 1 ((m.data.headD 0).toNat)
      | some off =>
        let c := { c with lm := lmPut c.lm off (m.data.flatMap (fun w => leBytes w.toNat 8)) }
        (upFrom 0 8).foldl (fun c j => c.setLmFull (off + 8 * j) true) c))

/-! ### The exchange barrier (13 R327) -/

/-- The exchange barrier of a residency group. -/
def State.xgroup (s : State) (run group : Nat) : XGroup :=
  (s.xgroups.find? (fun x => x.run == run && x.group == group)).getD { run := run, group := group, arrived := [], released := none, vec := [] }

def State.setXgroup (s : State) (x : XGroup) : State :=
  { s with xgroups := s.xgroups.filter (fun y => !(y.run == x.run && y.group == x.group)) ++ [x] }

/-- The physical level that the residency level binds to. -/
def Run.resBind (r : Run) : Nat := ((resLevel r.levels).bind (fun h => r.levels[h]?)).elim 0 TreeLevel.bind

/-- Scope of a group's exchange barrier (13 R327): that of h's binding, and die scope at least where its cores span several clusters,
so that every access before it comes before every access after it, as R327 closes (notes/assumptions/76). -/
def Run.xbarScope (r : Run) (group : Nat) : Nat :=
  let cores := ((r.places.find? (fun p => p.current == group)).map Place.cores).getD []
  if cores.all (fun n => clusterOf n == clusterOf (cores.headD 0)) then r.resBind else max 4 r.resBind

/-- Horizons that a stream's next acquire takes over (07 R174, R178). -/
def Core.told (c : Core) (v : Table Nat) : Core := { c with a := { c.a with seen := vmax c.a.seen v } }

/-- XBAR (13 R327): a release at arrival, an acquire at completion; the arrival is made once (16 R362). -/
def execXbar (h : Hdr) (s : State) : Out :=
  issue (.xbar h) s fun s =>
    match s.runOf s.cur.core, s.me.task with
    | some r, some t =>
      if r.sheet.isNone then trap 0x1D 0 0 0 s
      else
        let n := s.cur.core
        if s.st.stage = .xbarArrived then
          (if (s.xgroup r.id t.group).arrived.contains n then stallAt .xbarArrived s else withReacquire (r.xbarScope t.group) s (retire h))
        else
          withRelease (r.xbarScope t.group) s fun s =>
            let x := s.xgroup r.id t.group
            stallAt .xbarArrived (s.setXgroup { x with arrived := without n x.arrived ++ [n], vec := vmax x.vec (s.vecOf (dieOf n)) })
    | _, _ => trap 0x1D 0 0 0 s

/-- A landing of an exchange send of a group is still to come. -/
def State.landingDue (s : State) (run : Nat) : Bool :=
  s.agenda.any (fun m => match m with
    | .xsendLanding x => x.run == run
    | _ => false)

/-- XBAR_RELEASE (13 R327, R328): every task of the group has arrived or ended, and the previous phase has reached cycle E. -/
def execXbarRelease (run group : Nat) (s : State) : Out :=
  match s.run? run with
  | none => .next s
  | some r =>
    let x := s.xgroup run group
    let live := (s.tasksOf r).filter (fun e => e.2.group == group)
    let e := (r.sheet.map Sheet.phaseEnd).getD 0
    let past := match x.released with
      | some t => decide (t + e ≤ s.dcyc)
      | none => true
    if x.arrived = [] || !live.all (fun e => x.arrived.contains e.1) || !past || s.landingDue run || r.sheet.isNone then .next s
    else
      let s := live.foldl (fun s e => s.setCore e.1 { (s.core e.1).told x.vec with xbarAt := some s.dcyc }) s
      .next (s.setXgroup { x with arrived := [], released := some s.dcyc, vec := [] })

/-! ### Barrier identifiers (13 R332, R333) -/

/-- Identifier `b` of a core. -/
def Core.bar (c : Core) (b : Nat) : BarEntry := tget BarEntry.unbound b c.bars

def Core.setBar (c : Core) (b : Nat) (e : BarEntry) : Core := { c with bars := tput BarEntry.unbound b e c.bars }

/-- The part of a work identifier that the members of a level barrier share (13 R333). -/
def barKey (ls : List TreeLevel) (l : Nat) (w : Word) : Nat := w.toNat / 2 ^ loOf ls (l + 1)

/-- BARINIT, level form (13 R333). -/
def execBarinit (h : Hdr) (bid : BitVec 11) (scope : BitVec 5) (s : State) : Out :=
  issue (.barinit h bid scope) s fun s =>
    let l := scope.toNat % 16
    match s.runOf s.cur.core, s.me.task with
    | some r, some t =>
      if decide (16 ≤ scope.toNat) || !(r.levels[l]?).any (fun e => e.bar && e.bind != 0) then trap 0x05 0 0 scope.toNat s
      else if (s.me.bar bid.toNat).arrived then trap 0x1E 0 0 bid.toNat s
      else
        retire h (s.setMe (s.me.setBar bid.toNat
          { BarEntry.unbound with bound := true, level := l, key := barKey r.levels l t.wid }))
    | _, _ => trap 0x05 0 0 scope.toNat s

/-- Cores of a unit of level ANC, and the first core of the unit that holds core `n` (13 R333). -/
def ancSize (anc : Nat) : Nat := if anc = 2 then 8 else if anc = 3 then 32 else 1024
def ancFirst (anc n : Nat) : Nat := n / ancSize anc * ancSize anc

/-- The scope of an identifier's barrier (13 R333). -/
def BarEntry.scope (e : BarEntry) (ls : List TreeLevel) : Nat :=
  if e.dom then e.level else ((ls[e.level + 1]?).map TreeLevel.bind).getD 8

/-- The cores of the members of a level barrier that the task on core `n` is bound to: a residency group's place holds its tasks in
ascending order, and the members under one parent are a block of them (13 R333). -/
def Run.barCores (r : Run) (n group : Nat) (e : BarEntry) : List Nat :=
  let low := (upFrom 0 (e.level + 1)).filter (fun k => !(r.levels[k]?).any (fun l => l.bind == 0))
  let size := (low.map (extOf r.levels)).foldl (· * ·) 1
  let cores := ((r.places.find? (fun p => p.current == group)).map Place.cores).getD []
  (cores.drop (cores.idxOf n / size * size)).take size

/-- The scope at which BARARR releases and BARWAIT acquires: that of the barrier, and die scope at least where the members' cores span
several clusters, as where levels L and L + 1 bind to cluster, so that what stands before the arrivals comes before what stands after
the waits, as R337 asks (notes/assumptions/76). -/
def State.barScope (s : State) (n : Nat) (e : BarEntry) : Nat :=
  match s.runOf n, (s.core n).task with
  | some r, some t =>
    if e.dom || (r.barCores n t.group e).all (fun k => clusterOf k == clusterOf n) then e.scope r.levels else max 4 (e.scope r.levels)
  | _, _ => e.scope []

/-- The level whose barrier has the scope and the members of a domain mask (13 R336): as many tasks as the level has under one
parent member, one to a core of the mask, all with the issuer's coordinates above the level. -/
def State.asLevel (s : State) (r : Run) (w : Word) (anc first mask : Nat) : Option Nat :=
  let cores := ((upFrom 0 (ancSize anc)).filter (bitAt mask)).map (first + ·)
  (upFrom 0 r.levels.length).find? (fun l =>
    let e : BarEntry := { BarEntry.unbound with level := l }
    let below := (upFrom 0 (l + 1)).filter (fun k => !(r.levels[k]?).any (fun v => v.bind == 0))
    (r.levels[l]?).any (fun v => v.bind != 0) && e.scope r.levels == anc &&
    cores.length == (below.map (extOf r.levels)).foldl (· * ·) 1 &&
    cores.all (fun n => (s.core n).task.any (fun t => t.run == r.id && barKey r.levels l t.wid == barKey r.levels l w)))

/-- The highest level with the members and the scope of level `l` (13 R336): going up while the next level has one member. -/
def topLevel (ls : List TreeLevel) (l : Nat) : Nat → Nat
  | 0 => l
  | f + 1 =>
    let sc (k : Nat) : Nat := ((ls[k + 1]?).map TreeLevel.bind).getD 8
    if l + 1 < ls.length ∧ extOf ls (l + 1) = 1 ∧ sc (l + 1) = sc l then topLevel ls (l + 1) f else l

/-- A binding as its instance is named (13 R336): by its members and its scope, whichever form bound it, on the core of the task
with work identifier `w`. -/
def BarEntry.canon (e : BarEntry) (ls : List TreeLevel) (w : Word) : BarEntry :=
  let named (l : Nat) : BarEntry :=
    let k := topLevel ls l 16
    { e with dom := false, level := k, key := barKey ls k w, mask := 0 }
  if e.dom then (match e.asLevel with
    | some l => named l
    | none => e)
  else named e.level

/-- BARINIT, domain form (13 R333). -/
def execBarinitDom (h : Hdr) (bid : BitVec 11) (gm : BitVec 6) (anc : BitVec 3) (s : State) : Out :=
  issue (.barinitDom h bid gm anc) s fun s =>
    withNeeds (needs [.g gm.toNat] []) s fun s =>
      let n := s.cur.core
      let off := s.me.reg (.g gm.toNat) % 2 ^ 16
      let first := ancFirst anc.toNat n
      if off % 8 ≠ 0 then trap 0x0E 0 0 off s
      else if 65536 < off + 128 then trap 0x0D 0 0 off s
      else if s.me.lmBlocked off 128 false then stall s
      else
        let mask := s.me.lmRd false off 128
        let bad := (s.me.bar bid.toNat).arrived || !bitAt mask (n - first) || decide (2 ^ ancSize anc.toNat ≤ mask) ||
          (upFrom 0 (ancSize anc.toNat)).any (fun j => bitAt mask j && (s.fellow n (first + j)).isNone)
        if bad then trap 0x1E 0 0 bid.toNat s
        else
          let twin := (s.runOf n).bind (fun r => s.asLevel r ((s.me.task.map Task.wid).getD 0) anc.toNat first mask)
          retire h (s.setMe (s.me.setBar bid.toNat
            { BarEntry.unbound with bound := true, dom := true, level := anc.toNat, key := first, mask := BitVec.ofNat 1024 mask,
                                    asLevel := twin }))

/-! ### Phases (13 R336) -/

/-- Whether an instance is that of an identifier of a launch. -/
def BarInst.is (b : BarInst) (run bid : Nat) (e : BarEntry) : Bool :=
  b.run == run && b.bid == bid && b.dom == e.dom && b.level == e.level && b.key == e.key && b.mask == e.mask

/-- Two records of one instance. -/
def BarInst.same (a b : BarInst) : Bool :=
  a.run == b.run && a.bid == b.bid && a.dom == b.dom && a.level == b.level && a.key == b.key && a.mask == b.mask

def State.setInst (s : State) (b : BarInst) : State :=
  { s with barInsts := s.barInsts.filter (fun a => !a.same b) ++ [b] }

/-- Whether a task is a member of a level barrier's instance (13 R333). -/
def Run.memberOf (r : Run) (b : BarInst) (w : Word) : Bool := barKey r.levels b.level w == b.key

/-- The domain indices of the devices that hold members of an instance (13 R336, 02 R50). -/
def Run.barDevices (r : Run) (b : BarInst) : List Nat :=
  if b.dom || decide (r.d ≤ 1) then [r.dIdx]
  else
    let dev := levelsWhere r.levels (fun l => decide (5 ≤ l.bind))
    let low := dev.filter (fun k => decide (k ≤ b.level))
    let p := (low.map (extOf r.levels)).foldl (· * ·) 1
    let w := b.key * 2 ^ loOf r.levels (b.level + 1)
    let high := linearOf r.levels (coordOf r.levels w) (dev.filter (fun k => decide (b.level < k)))
    (upFrom 0 (min p r.d)).map (fun i => (i + p * high) % r.d)

/-- The members of this device that have neither arrived nor ended (13 R336). -/
def State.missing (s : State) (r : Run) (b : BarInst) : Bool :=
  let here (n : Nat) : Bool := b.cores.any (fun a => a.1 == n)
  if b.dom then
    (upFrom 0 (ancSize b.level)).any (fun j =>
      let n := b.key + j
      b.mask.getLsbD j && !here n && !b.ended.contains n && (s.tasksOf r).any (fun e => e.1 == n))
  else (s.tasksOf r).any (fun e => r.memberOf b e.2.wid && !here e.1)

/-- Whether the members of this device have been started: some run, or have ended (02 R47, R60). -/
def State.begun (s : State) (r : Run) (b : BarInst) : Bool :=
  b.dom || (s.tasksOf r).any (fun e => r.memberOf b e.2.wid) || r.endedTasks.any (r.memberOf b)

/-- The OPC operation on two values (13 R336). -/
def barOp (opc : Nat) (a b : Word) : Word :=
  match opc with
  | 1 => a ||| b
  | 2 => a + b
  | 3 => if a.toInt < b.toInt then b else a
  | 4 => if b.toInt < a.toInt then b else a
  | _ => 0

/-- Its identity (13 R336). -/
def barUnit (opc : Nat) : Word :=
  match opc with
  | 3 => BitVec.ofNat 64 (2 ^ 63)
  | 4 => BitVec.ofNat 64 (2 ^ 63 - 1)
  | _ => 0

/-- What several arrivals give together (13 R336): OPC, whether they differ in it, and the value; OPC 8 stands for no arrival. -/
def barMerge (xs : List (Nat × Bool × Word)) : Nat × Bool × Word :=
  match xs.filter (fun x => x.1 != 8) with
  | [] => (8, false, 0)
  | x :: ys =>
    let bad := (x :: ys).any (fun y => y.2.1 || y.1 != x.1)
    (x.1, bad, (x :: ys).foldl (fun a y => barOp x.1 a y.2.2) (barUnit x.1))

/-- Word of a saved barrier entry (17 R388). -/
def BarEntry.saveWord (e : BarEntry) : Nat :=
  b01 e.bound + 2 * b01 e.dom + 4 * b01 e.arrived + 8 * b01 e.done + 2 ^ 4 * (e.level % 16) + 2 ^ 8 * (e.opc % 8)

/-- Local physical address of a core's slot in a context area (17 R387). -/
def State.contextSlot (s : State) (area n : Nat) : Nat :=
  dieOf n * Config.stackBytes + (fld s.ctx.toNat 29 7 + area) * 2 ^ 29 + n % 1024 * 2 ^ 19

/-- A completed phase at one member: its identifier, or its saved entry (13 R335, 17 R386); `hz` is what the releases of the
arrivals ordered, which the member's acquire takes over (13 R337). -/
def State.completeAt (s : State) (r : Run) (n bid opc : Nat) (bad : Bool) (v : Word) (hz : Table Nat) : State :=
  let c := (s.core n).told hz
  if c.task.any (fun t => t.run == r.id) then
    let e := c.bar bid
    s.setCore n (c.setBar bid { e with done := true, mismatch := bad, value := v, opc := opc })
  else
    match r.saved with
    | some (area, ts) =>
      if ts.any (fun e => e.1 == n) then
        let a := s.contextSlot area n + 0x20000 + 16 * bid
        let w := s.memRd a 8
        let keep (e : Nat × Task) : Nat × Task :=
          if e.1 = n then (e.1, { e.2 with kept := if bad then tput 0 (32 + bid) 1 e.2.kept else e.2.kept,
                                           seenBy := vmax e.2.seenBy hz })
          else e
        let s := s.setRun { r with saved := some (area, ts.map keep) }
        s.engPut a (leBytes (setFld w 3 1 1) 8 ++ leBytes (if bad then 0 else v.toNat) 8)
      else s
    | none => s

/-- A phase completed with its outcome at every member of this device that has arrived; what device 0 of the domain has already
received for the next phase stays. -/
def State.finishPhase (s : State) (r : Run) (b : BarInst) (opc : Nat) (bad : Bool) (v : Word) : State :=
  let s := if b.remote = [] then { s with barInsts := s.barInsts.filter (fun a => !a.same b) }
    else s.setInst { b with cores := [], ended := [], sentUp := false, vec := [] }
  b.cores.foldl (fun s a => s.completeAt ((s.run? r.id).getD r) a.1 b.bid opc bad v b.vec) s

/-- A message about an instance. -/
def State.barMsg (s : State) (r : Run) (b : BarInst) (kind opc : Nat) (bad : Bool) (v : Word) : Instr :=
  let y := s.stories.find? (fun y => y.id == r.sb)
  .barrierArrivalMessage { sb := (y.map Story.va).getD 0, nth := (y.map Story.nth).getD 0, idx := r.idx, bid := b.bid,
                           level := b.level, parent := b.key, dev := r.dIdx, kind := kind, opc := opc, mismatch := bad,
                           value := v }

/-- The peers of the devices that hold members of an instance. -/
def State.barPeers (s : State) (r : Run) (b : BarInst) : List Nat := (r.barDevices b).map (fun i => (s.domainPeers r).getD i 0)

/-- An instance gone on after an arrival or an end (13 R336): complete on one device, or represented once at device 0 of the
domain. -/
def State.tryPhase (s : State) (r : Run) (b : BarInst) : State :=
  let s := s.setInst b
  if b.sentUp || s.missing r b || !s.begun r b then s
  else
    let (opc, bad, v) := barMerge (b.cores.map (fun a => (a.2.1, false, a.2.2)))
    if (r.barDevices b).length ≤ 1 then s.finishPhase r b opc bad v
    else (s.setInst { b with sentUp := true }).post (s.rootPeer r) (s.barMsg r b 0 opc bad v)

/-- A new phase of an instance. -/
def newInst (run bid : Nat) (e : BarEntry) : BarInst :=
  { run := run, bid := bid, dom := e.dom, level := e.level, key := e.key, mask := e.mask, cores := [], ended := [],
    sentUp := false, remote := [], vec := [] }

/-- The core of an ended task counts as arrived at every barrier of its launch (02 R47). -/
def State.endAtBarriers (s : State) (r : Run) (n : Nat) : State :=
  (s.barInsts.filter (fun b => b.run == r.id)).foldl (fun s b =>
    match s.barInsts.find? (fun a => a.same b) with
    | some a => s.tryPhase r { a with ended := without n a.ended ++ [n] }
    | none => s) s

/-- BARARR (13 R334, R336): a release, then the arrival. -/
def execBararr (h : Hdr) (bid : BitVec 11) (opc : BitVec 3) (v : BitVec 6) (s : State) : Out :=
  issue (.bararr h bid opc v) s fun s =>
    withNeeds (needs (if opc = 0 then [] else [.g v.toNat]) []) s fun s =>
      let n := s.cur.core
      let e := s.me.bar bid.toNat
      match s.runOf n with
      | none => trap 0x1E 0 0 bid.toNat s
      | some r =>
        if !e.bound || e.arrived then trap 0x1E 0 0 bid.toNat s
        else
          withRelease (s.barScope n e) s fun s =>
            let x := if opc = 0 then 0 else BitVec.ofNat 64 (s.me.reg (.g v.toNat))
            let s := s.setMe (s.me.setBar bid.toNat
              { e with arrived := true, done := false, mismatch := false, opc := opc.toNat, value := x })
            let e := e.canon r.levels ((s.me.task.map Task.wid).getD 0)
            let b := (s.barInsts.find? (fun b => b.is r.id bid.toNat e)).getD (newInst r.id bid.toNat e)
            retire h (s.tryPhase r { b with cores := b.cores ++ [(n, opc.toNat, x)], vec := vmax b.vec (s.vecOf (dieOf n)) })

/-- BARWAIT (13 R335). -/
def execBarwait (h : Hdr) (bid : BitVec 11) (d : BitVec 6) (res : Bool) (s : State) : Out :=
  issue (.barwait h bid d res) s fun s =>
    withNeeds (needs [] (if res then [.g d.toNat] else [])) s fun s =>
      let b := bid.toNat
      let e := s.me.bar b
      if !e.arrived then trap 0x1E 0 0 b s
      else if !e.done then (if s.feExpired then trap 0x1F 0 0 b s else stallAt (.barWait b) s)
      else if e.mismatch then trap 0x20 0 0 b s
      else
        withAcquire (s.barScope s.cur.core e) s fun s =>
          let s := s.setMe (s.me.setBar b { e with arrived := false, done := false, opc := 0, value := 0 })
          retire h (if res then s.pendNew [(.g d.toNat, some e.value.toNat)] else s)

/-- BAR_STALL (13 R335): the BARWAIT of a core's A-stream traps after 2^24 cycles. -/
def execBarStall (core : Nat) (s : State) : Out :=
  let c := s.core core
  let t := { s with cur := { core := core, x := false } }
  match c.a.stage with
  | .barWait b => if t.feExpired && c.runnable false && !(c.bar b).done then trap 0x1F 0 0 b t else .next s
  | _ => .next s

/-- The launch that a barrier message names. -/
def State.runOfMsg (s : State) (sb : Word) (nth idx : Nat) : Option Run :=
  (s.stories.find? (fun y => y.va == sb && y.nth == nth)).bind (fun y =>
    s.runs.find? (fun r => r.sb == y.id && r.idx == idx && !r.retired && !r.aborted))

/-- BARRIER_ARRIVAL_MESSAGE (13 R336): at device 0 of the domain an arrival is kept, named to the other devices the first time,
and with all the completed phase goes down; at a member device the phase completes, or the barrier becomes known. -/
def execBarrierArrivalMessage (m : BarMsg) (s : State) : Out :=
  match s.runOfMsg m.sb m.nth m.idx with
  | none => .next s
  | some r =>
    let e : BarEntry := { BarEntry.unbound with level := m.level, key := m.parent }
    let b := (s.barInsts.find? (fun b => b.is r.id m.bid e)).getD (newInst r.id m.bid e)
    match m.kind with
    | 0 =>
      let first := b.remote.isEmpty
      let b := { b with remote := b.remote.filter (fun x => x.1 != m.dev) ++ [(m.dev, m.opc, m.mismatch, m.value)] }
      let s := s.setInst b
      if (r.barDevices b).all (fun i => b.remote.any (fun x => x.1 == i)) then
        let (opc, bad, v) := barMerge (b.remote.map (fun x => x.2))
        let s := s.setInst { b with remote := [] }
        .next ((s.barPeers r b).foldl (fun s p => s.post p (s.barMsg r b 1 opc bad v)) s)
      else if first then .next ((s.barPeers r b).foldl (fun s p => s.post p (s.barMsg r b 2 8 false 0)) s)
      else .next s
    | 1 => .next (s.finishPhase r b m.opc m.mismatch m.value)
    | _ => .next (s.tryPhase r b)

end Sys2Proof.Machine
end

