-- ==== Sys2Proof/Machine/Launch.lean ====
section
/-! DEFINITION. The launch unit: storyboards submitted, the check of a slate, agreement of the devices of a domain, aborts, and
the instructions LAUNCH and WLOC (02_work_tree.md R29 to R58, 13 R322 to R325, 17 R375 to R379). -/

namespace Sys2Proof.Machine

/-! ### Reading records of a launch (02 R34, 18 R393) -/

/-- The launch unit as it asks for a translation: no task, the hub's die index (notes/assumptions/7). -/
def State.unitAsker (s : State) (space : Nat) : Asker :=
  { die := Config.hubDie, cluster := none, space := space, user := false, core := 0, eng := true, ctx := s.noCtx }

/-- What a read of a span of virtual memory gives. -/
inductive Span where
  | bytes (bs : List Byte)
  | fault
  | wait
  deriving DecidableEq, Repr

/-- Bytes of local memory as an engine reads them: a damaged word reads as zero, with a record (09 R225). -/
def State.rawBytes (s : State) (code d1 va a n : Nat) : List Byte × State :=
  let bad := (upFrom (a / 8) ((a + n + 7) / 8 - a / 8)).filter (fun w => tget false w s.bad)
  let one (i : Nat) : Byte := if bad.contains ((a + i) / 8) then 0 else tget 0 (a + i) s.mem
  ((upFrom 0 n).map one,
   bad.foldl (fun s w => s.uncorr code s.noCtx (if va = 0 then 0 else va + 8 * w - a) (8 * w) d1) s)

/-- A span read page by page, in at most `f` pieces: memory of another device does not translate for the launch unit. -/
def readSpan (q : Asker) : Nat → Nat → Nat → List Byte → State → Span × State
  | 0, _, _, acc, s => (.bytes acc, s)
  | f + 1, va, n, acc, s =>
    if n = 0 then (.bytes acc, s)
    else
      let k := min n (4096 - va % 4096)
      match reachEngine q va true false (s.translate q va) with
      | (.wait, s) => (.wait, s)
      | (.trap .., s) => (.fault, s)
      | (.page t, s) =>
        let pa := t.addr va
        if paPeer pa ≠ s.peerid then (.fault, s)
        else if !s.covers (homeOf (paLocal pa)) (s.vecOf q.die) then (.wait, s)
        else
          let (bs, s) := s.rawBytes 0 0 va (paLocal pa) k
          readSpan q f (va + k) (n - k) (acc ++ bs) s

/-- A span of a space read by the launch unit. -/
def State.span (s : State) (space va n : Nat) : Span × State := readSpan (s.unitAsker space) (n / 4096 + 2) va n [] s

/-- A little-endian field of a record. -/
def fieldOf (bs : List Byte) (off n : Nat) : Nat := leNat ((bs.drop off).take n)

/-! ### Domains (02 R37, R42; 19 R416) -/

/-- The cut-group number whose entry lists a domain of `d` devices with this device at index `idx`. -/
def State.domainGroup (s : State) (d idx : Nat) : Option Nat :=
  ((upFrom 0 s.cgtn).map (fun g => fld (s.memRd (s.cgtbase.toNat + 16 * g) 8) 0 16)).find? (fun grp =>
    match s.groupEntry grp with
    | some (n, a) => n == d && fld (s.memRd (a + 2 * idx) 2) 0 12 == s.peerid
    | none => false)

/-- The number that names a storyboard's domain: that of the entry, or one from 2^16 for the submission `id`. -/
def State.domainKey (s : State) (id d idx : Nat) : Nat := (s.domainGroup d idx).getD (2 ^ 16 + id)

/-- Peer numbers of the domain of the submission `id`, by index. -/
def State.storyPeers (s : State) (id d idx : Nat) : List Nat :=
  if d ≤ 1 then [s.peerid] else (upFrom 0 d).map (s.domainPeer (s.domainKey id d idx) idx)

/-- A LAUNCH_FAULT record about the device of index `dev` and peer number `peer` (16 R428). -/
def State.launchFault (s : State) (slate : Word) (addr code idx level dev peer sb : Nat) : State :=
  s.errRecord 0x13 false code { s.noCtx with launch := slate, peer := peer } addr (idx % 256 + 2 ^ 8 * (level % 16) + 2 ^ 16 * dev) sb

/-! ### Submission (02 R52 to R58, 17 R376) -/

/-- Storyboards queued in a class (17 R375). -/
def State.queuedIn (s : State) (cls : Nat) : Nat := (s.stories.filter (fun y => y.queued && y.cls == cls)).length

/-- XOR of 8-byte words, the last padded with zero bytes (02 R42). -/
def xorWords (bs : List Byte) : Nat → Nat
  | 0 => 0
  | f + 1 => if bs = [] then 0 else Nat.xor (leNat (bs.take 8)) (xorWords (bs.drop 8) f)

/-- Whether edges and launches make a storyboard: predecessors below successors below the count, one sink (02 R53). -/
def graphOk (n : Nat) (edges : List (Nat × Nat)) : Bool :=
  edges.all (fun e => decide (e.1 < e.2) && decide (e.2 < n)) &&
  ((upFrom 0 n).filter (fun i => !edges.any (fun e => e.1 == i))).length == 1

/-- The result of a check of launch `idx` as a message to device 0 of the domain (02 R42). -/
def agreeMsg (y : Story) (idx code level : Nat) : Agree :=
  { sb := y.va, nth := y.nth, idx := idx, dev := y.dIdx, code := code, level := level, slate := y.slates.getD idx 0,
    check := y.check }

/-- A storyboard that breaks R53 or does not translate further on: it runs no launch, its completion record says why; in a
domain of several devices each of its launches is reported as faulted, and device 0 records it (02 R42). -/
def State.rejectStory (s : State) (y : Story) (n code : Nat) : State :=
  let first : LaunchState := if y.d ≤ 1 then .faulted code 0 else .accepted 0
  let y := { y with launches := first :: List.replicate (n - 1) .skipped, queued := false }
  let s := { s with stories := s.stories ++ [y] }
  let s := if y.d ≤ 1 then s.launchFault 0 y.done code 0 0 y.dIdx s.peerid y.va.toNat
    else (upFrom 0 n).foldl
      (fun s i => s.post ((s.storyPeers y.id y.d y.dIdx).headD s.peerid) (.pass (agreeMsg y i code 0))) s
  s.advanceStory y.id

/-- A failure of a storyboard that gets no completion record, recorded by device 0 of the domain (02 R56). -/
def State.storyLost (s : State) (sb nth d idx code addr : Nat) : State :=
  let (id, s) := s.fresh
  let p := (s.storyPeers id d idx).headD s.peerid
  if p = s.peerid then s.launchFault 0 addr code 0 0 idx s.peerid sb
  else s.post p (.pass { sb := BitVec.ofNat 64 sb, nth := nth, idx := 0, dev := idx, code := 0x200 + code, level := 0,
                         slate := BitVec.ofNat 64 addr, check := BitVec.ofNat 64 s.peerid })

/-- A storyboard submitted on this device (02 R52 to R58): none while it must wait. `floor` is the class of the issuing launch.
NDROP counts the records of dropped data from here on, the model's choice of when the storyboard runs (notes/assumptions/78). -/
def State.submit (s : State) (sb space d idx floor : Nat) : Option State :=
  let q := s.unitAsker space
  let nth := tget 0 sb s.submits + 1
  let counted (s : State) : State := { s with submits := tput 0 sb nth s.submits }
  match s.span space sb 16 with
  | (.wait, _) => none
  | (.fault, s) => some ((counted s).storyLost sb nth d idx 0x0E sb)
  | (.bytes hd, s) =>
    let n := fieldOf hd 2 2
    let ne := fieldOf hd 4 2
    let prio := fieldOf hd 6 1
    let done := fieldOf hd 8 8
    let cls := max (prio % 4) floor
    if 64 ≤ s.queuedIn cls then none
    else
      match reachEngine q done false true (s.translate q done) with
      | (.wait, _) => none
      | (r, s) =>
        let s := counted s
        let page := match r with
          | .page t => if done % 64 ≠ 0 ∨ leafRop t.leaf ∨ paPeer (t.addr done) ≠ s.peerid then none else some t
          | _ => none
        match page with
        | none =>
          let s := s.storyLost sb nth d idx 0x0F done
          some (if bitAt prio 7 then s.interrupt 0 else s)
        | some t =>
          let s := s.markDirty t
          let y : Story :=
            { id := s.nextId, va := BitVec.ofNat 64 sb, nth := nth, space := space, d := d, dIdx := idx, cls := cls,
              intr := bitAt prio 7, done := done, donePa := paLocal (t.addr done), doneFe := leafFe t.leaf, slates := [],
              edges := [], check := 0, launches := [], queued := true, t0 := none, t1 := 0, drop0 := s.drops, cutw := 0,
              finished := false }
          let s := (s.fresh).2
          if fieldOf hd 0 2 ≠ 1 ∨ n = 0 ∨ 256 < n ∨ 4096 < ne ∨ fld prio 2 5 ≠ 0 ∨ fieldOf hd 7 1 ≠ 0 then
            some (s.rejectStory y (if 256 < n then 1 else max 1 n) 0x0F)
          else
            match s.span space (sb + 16) (8 * n + 4 * ne) with
            | (.wait, _) => none
            | (.fault, s) => some (s.rejectStory y n 0x0E)
            | (.bytes body, s) =>
              let edges := (upFrom 0 ne).map (fun j => (fieldOf body (8 * n + 4 * j) 2, fieldOf body (8 * n + 4 * j + 2) 2))
              let y := { y with
                slates := (upFrom 0 n).map (fun i => BitVec.ofNat 64 (fieldOf body (8 * i) 8)), edges := edges,
                check := BitVec.ofNat 64 (xorWords (hd.take 8 ++ body) (body.length / 8 + 2)) }
              if !graphOk n edges then some (s.rejectStory y n 0x0F)
              else some { s with stories := s.stories ++ [{ y with launches := List.replicate n .waiting }] }

/-- LAUNCH (02 R57): a release at device scope, then the storyboard is submitted with the domain of the issuing launch; a task of a
later take waits for the cut before it (08 R210). -/
def execLaunch (h : Hdr) (a : Desc) (s : State) : Out :=
  issue (.launch h a) s fun s =>
    withNeeds (srcNeeds s.cur.x a) s fun s =>
      let va := (s.take a).1.toNat
      if va % 64 ≠ 0 then trap 0x01 0 0 0 s
      else
        withRelease 5 s fun s =>
          withPage va true false s fun t s =>
            match s.runOf s.cur.core with
            | none => retire h s
            | some r =>
              if s.takeWait s.cur.core (paPeer (t.addr va) == s.peerid) (leafPub t.leaf) then stall s
              else
              match (s.mergeVec Config.hubDie (s.vecOf (dieOf s.cur.core))).submit va r.space r.d r.dIdx r.cls with
              | none => stall s
              | some t => retire h t

/-! ### Geometry of a tree (02 R29, R30, R50, R51; 13 R322) -/

/-- Product of the extents of some levels. -/
def prodExt (ls : List TreeLevel) (ks : List Nat) : Nat := (ks.map (extOf ls)).foldl (· * ·) 1

/-- Levels bound to lane: the lowest ones. -/
def laneCount (ls : List TreeLevel) : Nat := (levelsWhere ls (fun l => l.bind == 0)).length

/-- The levels above a residency group begin here (02 R51). -/
def baseOf (ls : List TreeLevel) : Nat := (resLevel ls).elim (laneCount ls) (· + 1)

/-- Levels of a residency group, lanes left out; with a binding. -/
def groupLevels (ls : List TreeLevel) : List Nat := (upFrom 0 (baseOf ls)).filter (fun k => decide (laneCount ls ≤ k))
def boundTo (ls : List TreeLevel) (b : Nat) : List Nat := levelsWhere ls (fun l => l.bind == b)

/-- Tasks of a whole residency group (13 R324), and tasks below the device-bound levels. -/
def groupTasks (ls : List TreeLevel) : Nat := prodExt ls (groupLevels ls)
def deviceTasks (ls : List TreeLevel) : Nat := prodExt ls (levelsWhere ls (fun l => l.bind != 0 && decide (l.bind < 5)))

/-- Whether a residency group reaches above one device (02 R51). -/
def wideGroup (ls : List TreeLevel) : Bool := (groupLevels ls).any (fun k => (ls[k]?).any (fun l => decide (5 ≤ l.bind)))

/-- Group indices of the tasks of group `g` that run on device `idx` of `d` (02 R50, 13 R322). -/
def localTasks (ls : List TreeLevel) (d idx g : Nat) : List Nat :=
  let p := groupTasks ls
  let l5 := deviceTasks ls
  (upFrom 0 p).filter (fun j => (j + p * g) / l5 % d == idx)

/-- Groups of the whole tree (02 R51). -/
def allGroups (ls : List TreeLevel) : Nat :=
  prodExt ls ((upFrom 0 ls.length).filter (fun k => decide (baseOf ls ≤ k)))

/-- Groups of a wide tree that have a task on a device. -/
def wideGroups (ls : List TreeLevel) (d idx : Nat) : List Nat :=
  (upFrom 0 (allGroups ls)).filter (fun g => !(localTasks ls d idx g).isEmpty)

/-- Groups that a device deals (02 R50, R51). -/
def groupCount (ls : List TreeLevel) (d idx : Nat) : Nat :=
  if wideGroup ls then (wideGroups ls d idx).length
  else
    let gl := deviceTasks ls / groupTasks ls
    gl * ((allGroups ls / gl + d - 1 - idx) / d)

/-- The number in the whole tree of a device's `k`-th group. -/
def groupNo (ls : List TreeLevel) (d idx k : Nat) : Nat :=
  if wideGroup ls then (wideGroups ls d idx).getD k 0
  else
    let gl := deviceTasks ls / groupTasks ls
    k % gl + gl * (idx + d * (k / gl))

/-- The work identifier of the task of a linear index over all levels, lane fields zero (02 R29, R30). -/
def packWid : List TreeLevel → Nat → Nat → Nat
  | [], _, _ => 0
  | l :: ls, lo, t =>
    if l.bind = 0 then packWid ls (lo + l.width) t
    else t % l.extent * 2 ^ lo + packWid ls (lo + l.width) (t / l.extent)

/-- Linear index of a work identifier over all levels but lanes. -/
def linearWid (ls : List TreeLevel) (w : Nat) : Nat := linearOf ls (coordOf ls w) (levelsWhere ls (fun l => l.bind != 0))

/-- Unit index at physical level `b` of group index `j` inside its parent unit (02 R39, 13 R323). -/
def unitIndex (ls : List TreeLevel) (b j : Nat) : Nat :=
  linearOf ls (coordOf ls (packWid ls 0 j)) ((boundTo ls b).filter (fun k => decide (k < baseOf ls)))

/-! ### Availability (02 R37, 17 R378) -/

/-- Excluded cores among `n` from `lo`. -/
def State.exclIn (s : State) (lo n : Nat) : Nat := (s.excl.filter (fun e => decide (lo ≤ e.1) && decide (e.1 < lo + n))).length

/-- Whether a gang is available; a GANG level needs all its cores. -/
def State.gangAvail (s : State) (whole : Bool) (g : Nat) : Bool := decide (s.exclIn (8 * g) 8 < (if whole then 1 else 8))

/-- Available gangs of a cluster, and available clusters of a die. -/
def State.gangsIn (s : State) (whole : Bool) (cl : Nat) : Nat := ((upFrom (4 * cl) 4).filter (s.gangAvail whole)).length
def State.clustersIn (s : State) (whole : Bool) (d : Nat) : Nat :=
  ((upFrom (32 * d) 32).filter (fun cl => decide (0 < s.gangsIn whole cl))).length

/-- avail(b) of a placement domain of `d` devices (02 R37). -/
def State.avail (s : State) (whole : Bool) (d b : Nat) : Nat :=
  let top (l : List Nat) : Nat := l.foldl max 0
  match b with
  | 1 => top (s.dies.flatMap (fun e => (upFrom (128 * e) 128).map (fun g =>
      if s.gangAvail whole g then 8 - s.exclIn (8 * g) 8 else 0)))
  | 2 => top (s.dies.flatMap (fun e => (upFrom (32 * e) 32).map (s.gangsIn whole)))
  | 3 => top (s.dies.map (s.clustersIn whole))
  | 4 => (s.dies.filter (fun e => decide (0 < s.clustersIn whole e))).length
  | _ => d

/-! ### The check of a slate (02 R31 to R38) -/

/-- An entry of the level table (02 R31). A lane level is co-resident whatever its CO bit holds (R32): the rules that ask this of
it leave lane levels out, and those that ask for the CO bit read the bit (R38, R49). -/
def levelOf (e : Nat) : TreeLevel :=
  { name := BitVec.ofNat 64 e, extent := fld e 64 32, width := fld e 96 6, bind := fld e 102 4,
    co := bitAt e 106, ord := bitAt e 107, lane := bitAt e 108, bar := bitAt e 109, gang := bitAt e 110,
    take := bitAt e 111, esz := fld e 112 2 }

/-- Whether the flags of level `k` break R32, the CO rules left out, or a reserved bit is set. -/
def flagsBad (ls : List TreeLevel) (es : List Nat) (k : Nat) (l : TreeLevel) : Bool :=
  let below := ls.take k
  let core := (below.filter (fun m => m.bind == 1)).map TreeLevel.extent
  (l.lane != (l.bind == 0)) || (!l.lane && l.esz != 0) || (l.lane && below.any (fun m => m.lane && m.esz != l.esz)) ||
  (l.gang && (l.bind != 1 || core.foldl (· * ·) l.extent != 8 || (ls[k + 1]?).any (fun m => decide (m.bind < 2)))) ||
  (l.take && below.any TreeLevel.take) || fld (es.getD k 0) 114 14 != 0

/-- The first fault of the level table from level `k` on (02 R38), with `lo` bits below. -/
def levelFault (ls : List TreeLevel) (es : List Nat) (k lo : Nat) : Nat → Option (Nat × Nat)
  | 0 => none
  | f + 1 =>
    match ls[k]? with
    | none => none
    | some l =>
      let below := ls.take k
      if l.extent = 0 then some (0x03, k)
      else if 32 < l.width ∨ 2 ^ l.width < l.extent then some (0x04, k)
      else if 64 < lo + l.width then some (0x04, k)
      else if 8 < l.bind then some (0x05, k)
      else if below.getLast?.any (fun m => decide (l.bind < m.bind)) then some (0x06, k)
      else if flagsBad ls es k l then some (0x07, k)
      else if (l.bar || l.gang || l.take) && !l.co then some (0x08, k)
      else if l.co && l.bind != 0 && below.any (fun m => m.bind != 0 && !m.co) then some (0x08, k)
      else levelFault ls es (k + 1) (lo + l.width) f

/-- The lane check, then the capacity checks (02 R38). -/
def State.capacityFault (s : State) (ls : List TreeLevel) (d : Nat) : Option (Nat × Nat) :=
  let lanes := levelsWhere ls (fun l => l.bind == 0)
  let size := 8 * 2 ^ (((lanes.head?.bind (fun k => ls[k]?)).map TreeLevel.esz).getD 0)
  let whole := ls.any TreeLevel.gang
  if lanes ≠ [] ∧ Config.vlen / size < prodExt ls lanes then some (0x09, 0)
  else
    let bad (k : Nat) : Bool := (ls[k]?).any (fun l => l.co && l.bind != 0 &&
      decide (s.avail whole d l.bind < prodExt ls ((boundTo ls l.bind).filter (fun j => decide (j ≤ k)))))
    ((upFrom 0 ls.length).find? bad).map (fun k => (0x0A, k))

/-- The cut-group check (08 R192, 19 R416); a lane level above the TAKE level is co-resident (02 R32). -/
def State.cutGroupOk (s : State) (ls : List TreeLevel) (t cgrp d idx : Nat) : Bool :=
  bitAt cgrp 16 && (ls.drop (t + 1)).all (fun l => l.co || l.bind == 0) &&
  (match s.groupEntry (fld cgrp 0 16) with
   | some (n, a) => n == d && fld (s.memRd (a + 2 * idx) 2) 0 12 == s.peerid
   | none => false)

/-! ### Call sheets (13 R322 to R325) -/

/-- Core of a group index inside its top unit, and its die inside the group (13 R323). -/
def sheetPos (ls : List TreeLevel) (j : Nat) : Nat :=
  unitIndex ls 1 j + 8 * unitIndex ls 2 j + 32 * unitIndex ls 3 j + 1024 * unitIndex ls 4 j

/-- The link claims of a route from cluster `a` to cluster `b` of a die, from cycle `c` on: columns first, then rows; a claim is
the cluster left and the direction (13 R325). -/
def linkClaims (die c : Nat) (col row col' row' : Nat) : Nat → List (List Nat)
  | 0 => []
  | f + 1 =>
    let here (dir : Nat) : List Nat := [2, die, col + 8 * row, dir, c]
    if col < col' then here 0 :: linkClaims die (c + 1) (col + 1) row col' row' f
    else if col' < col then here 1 :: linkClaims die (c + 1) (col - 1) row col' row' f
    else if row < row' then here 2 :: linkClaims die (c + 1) col (row + 1) col' row' f
    else if row' < row then here 3 :: linkClaims die (c + 1) col (row - 1) col' row' f
    else []

/-- Links of an entry between two positions (13 R325). -/
def sheetHops (a b : Nat) : Nat := hops (a % 1024) (b % 1024)

/-- Every claim of an entry: injection port, links, ejection port, each with its cycle (13 R325). -/
def entryClaims (ls : List TreeLevel) (e : Nat × Nat × Nat) : List (List Nat) :=
  let a := sheetPos ls e.2.1
  let b := sheetPos ls e.2.2
  [0, a, e.1] :: [1, b, e.1 + sheetHops a b + 1] ::
    linkClaims (a / 1024) (e.1 + 1) (a / 32 % 8) (a / 256 % 4) (b / 32 % 8) (b / 256 % 4) 16

/-- Cores of the top unit of a sheet's group, and whether one of the partition can hold it (13 R323, R324). -/
def topSize (h : Nat) : Nat := if h = 1 then 8 else if h = 2 then 32 else 1024
def State.sheetFits (s : State) (ls : List TreeLevel) (h : Nat) : Bool :=
  let size := topSize h
  let pos := ((upFrom 0 (groupTasks ls)).map (sheetPos ls)).filter (fun p => decide (p < 1024))
  s.dies.any (fun d => (upFrom 0 (1024 / size)).any (fun u =>
    pos.all (fun p => !tget false (1024 * d + size * u + p) s.excl)))

/-- A call sheet checked (13 R324): none where it breaks a condition. -/
def State.sheetOf (s : State) (ls : List TreeLevel) (bs : List Byte) : Option Sheet :=
  let period := fieldOf bs 2 2
  let n := fieldOf bs 4 2
  let word (i : Nat) : Nat := fieldOf bs (16 + 8 * i) 8
  let entry (i : Nat) : Nat × Nat × Nat := (fld (word i) 0 10, fld (word i) 16 12, fld (word i) 32 12)
  let es := (upFrom 0 n).map entry
  let tasks := groupTasks ls
  let h := ((resLevel ls).bind (fun k => ls[k]?)).elim 9 TreeLevel.bind
  if fieldOf bs 0 2 ≠ 1 ∨ period = 0 ∨ 1024 < period ∨ n = 0 ∨ 4096 < n ∨ fieldOf bs 6 10 ≠ 0 ∨ 4 < h then none
  else if (upFrom 0 n).any (fun i => fld (word i) 10 6 != 0 || fld (word i) 28 4 != 0 || fld (word i) 44 20 != 0) then none
  else if es.any (fun e => decide (period ≤ e.1) || decide (tasks ≤ e.2.1) || decide (tasks ≤ e.2.2)) then none
  else if !s.sheetFits ls h then none
  else if es.any (fun e => sheetPos ls e.2.1 / 1024 != sheetPos ls e.2.2 / 1024) then none
  else
    let claims := es.flatMap (entryClaims ls)
    if claims.eraseDups.length ≠ claims.length then none
    else
      let ends := es.map (fun e => e.1 + sheetHops (sheetPos ls e.2.1) (sheetPos ls e.2.2) + 1)
      some { period := period, entries := es, phaseEnd := 1 + ends.foldl max 0 }

/-! ### Acceptance (02 R38 to R42, 17 R379) -/

/-- What a check gives: the launch to run, a fault with its level, or a wait for memory. -/
inductive Verdict where
  | pass (r : Run)
  | fault (code level : Nat)
  | wait
  deriving DecidableEq, Repr

/-- The last part of a check: the call sheet. -/
def checkSheet (r : Run) (csht : Nat) (flag : Bool) (s : State) : Verdict × State :=
  if !flag then (.pass r, s)
  else
    match s.span r.space csht 16 with
    | (.wait, s) => (.wait, s)
    | (.fault, s) => (.fault 0x0E 0, s)
    | (.bytes hd, s) =>
      let n := fieldOf hd 4 2
      match s.span r.space (csht + 16) (if n ≤ 4096 then 8 * n else 0) with
      | (.wait, s) => (.wait, s)
      | (.fault, s) => (.fault 0x0E 0, s)
      | (.bytes body, s) =>
        match s.sheetOf r.levels (hd ++ body) with
        | none => (.fault 0x0D 0, s)
        | some sh => (.pass { r with sheet := some sh }, s)

/-- The job card, the constant image and the cut group, then the call sheet (02 R35, R38). -/
def checkRecords (r : Run) (job cimg csht cgrp : Nat) (flag : Bool) (s : State) : Verdict × State :=
  match s.span r.space job 16 with
  | (.wait, s) => (.wait, s)
  | (.fault, s) => (.fault 0x0E 0, s)
  | (.bytes card, s) =>
    match s.span r.space (job + 16) (24 * fieldOf card 2 1) with
    | (.wait, s) => (.wait, s)
    | (.fault, s) => (.fault 0x0E 0, s)
    | (.bytes _, s) =>
      match s.span r.space cimg 2048 with
      | (.wait, s) => (.wait, s)
      | (.fault, s) => (.fault 0x0E 0, s)
      | (.bytes image, s) =>
        let entry := fieldOf card 0 2
        if Config.svSlot ≤ entry ∨ fieldOf card 3 13 ≠ 0 then (.fault 0x0B 0, s)
        else if r.takeLv.any (fun t => !s.cutGroupOk r.levels t cgrp r.d r.dIdx) then (.fault 0x0C 0, s)
        else
          checkSheet { r with entry := entry, args := BitVec.ofNat 64 (job + 16),
                              image := (upFrom 0 240).map (fun i => BitVec.ofNat 64 (fieldOf image (8 * i) 8)) } csht flag s

/-- The check of a slate, in the order of 02 R38. -/
def checkSlate (y : Story) (idx : Nat) (s : State) : Verdict × State :=
  let sl := (y.slates.getD idx 0).toNat
  match s.span y.space sl 384 with
  | (.wait, s) => (.wait, s)
  | (.fault, s) => (.fault 0x0E 0, s)
  | (.bytes b, s) =>
    let n := fieldOf b 2 1
    let spi := fieldOf b 4 2
    let flags := fieldOf b 6 2
    let job := fieldOf b 0x10 8
    let cimg := fieldOf b 0x18 8
    let csht := fieldOf b 0x20 8
    let cgrp := fieldOf b 0x28 4
    let es := (upFrom 0 16).map (fun k => fieldOf b (0x80 + 16 * k) 16)
    let ls := (es.take n).map levelOf
    if fieldOf b 0 2 ≠ 1 ∨ fld (fieldOf b 3 1) 2 6 ≠ 0 ∨ spi = 0 ∨ 4096 < spi ∨ 1 < flags ∨ fieldOf b 0xC 4 ≠ 0 ∨
        fld cgrp 17 15 ≠ 0 ∨ fieldOf b 0x2C 84 ≠ 0 ∨ sl % 64 ≠ 0 ∨ job % 64 ≠ 0 ∨ cimg % 64 ≠ 0 ∨ csht % 64 ≠ 0 ∨
        (csht = 0 ↔ flags = 1) then (.fault 0x01 0, s)
    else if n = 0 ∨ 16 < n ∨ (es.drop n).any (· != 0) then (.fault 0x02 0, s)
    else
      match levelFault ls es 0 0 n, s.capacityFault ls y.d with
      | some (c, k), _ => (.fault c k, s)
      | none, some (c, k) => (.fault c k, s)
      | none, none =>
        let r : Run :=
          { id := 0, sb := y.id, idx := idx, slate := y.slates.getD idx 0, space := y.space, d := y.d, dIdx := y.dIdx,
            cls := y.cls, levels := ls, spi := spi, seed := fieldOf b 8 4, cgrp := fld cgrp 0 16,
            dgrp := if bitAt cgrp 16 then fld cgrp 0 16 else s.domainKey y.id y.d y.dIdx,
            takeLv := (levelsWhere ls TreeLevel.take).head?, gangLv := (levelsWhere ls TreeLevel.gang).head?, entry := 0,
            args := 0, image := [], sheet := none, go := false, groups := groupCount ls y.d y.dIdx, dealt := 0, places := [],
            started := 0, endedTasks := [], preempted := false, saved := none, aborted := false, retired := false,
            lastCut := false, turn := 0, startAt := 0, reported := false, allEnded := false, excl := s.excl, pins := [] }
        checkRecords r job cimg csht cgrp (flags == 1) s

/-- The storyboard with an identifier. -/
def State.story? (s : State) (id : Nat) : Option Story := s.stories.find? (fun y => y.id == id)

/-- A launch that may be accepted now (02 R54, 17 R379): it waits, its predecessors have retired, and its storyboard is at the
head of its class queue or has left it. -/
def State.acceptable (s : State) (y : Story) (idx : Nat) : Bool :=
  decide (idx < y.launches.length) && y.launches.getD idx .skipped == .waiting &&
  y.edges.all (fun e => e.2 != idx || y.launches.getD e.1 .waiting == .retired) &&
  (!y.queued || (s.stories.find? (fun z => z.queued && z.cls == y.cls)).any (fun z => z.id == y.id))

/-! ### Agreement (02 R42) -/

/-- The storyboard that a message names. -/
def State.storyOf (s : State) (sb : Word) (nth : Nat) : Option Story := s.stories.find? (fun y => y.va == sb && y.nth == nth)

/-- Peers of the domain of a launch: its own list, or that of its storyboard. -/
def State.launchPeers (s : State) (y : Story) (idx : Nat) : List Nat :=
  match s.runOfMsg y.va y.nth idx with
  | some r => s.domainPeers r
  | none => s.storyPeers y.id y.d y.dIdx

/-- What device 0 decides once every device has reported: the lowest-indexed fault, a difference, or none. -/
def verdictOf (reps : List Agree) : Option Agree :=
  let least (l : List Agree) : Option Agree := l.foldl (fun a m => match a with
    | some b => if m.dev < b.dev then some m else some b
    | none => some m) none
  match least (reps.filter (fun m => m.code != 0)), reps.find? (fun m => m.dev == 0) with
  | some m, _ => some m
  | none, some z => (least (reps.filter (fun m => m.slate != z.slate || m.check != z.check))).map
      (fun m => { m with code := 0x0F, level := 0 })
  | none, none => none

/-- Codes of the model's own: a share that has ended, and a storyboard lost before it had a completion record. -/
def endedCode : Nat := 0x100
def lostCode : Nat := 0x200

/-- PASS (02 R42): device 0 collects the results and sends GO or FAULT; the same way it learns that every share has ended (R54),
and of a storyboard that gets no completion record (R56). -/
def execPass (m : Agree) (s : State) : Out :=
  if lostCode ≤ m.code then .next (s.launchFault 0 m.slate.toNat (m.code - lostCode) 0 0 m.dev
    m.check.toNat m.sb.toNat)
  else
    let same (a : Agree) : Bool := a.sb == m.sb && a.nth == m.nth && a.idx == m.idx && (a.code == endedCode) == (m.code == endedCode)
    let agreed := s.agreed.filter (fun a => !(same a && a.dev == m.dev)) ++ [m]
    let reps := agreed.filter same
    let kept : State := { s with agreed := agreed }
    match s.storyOf m.sb m.nth with
    | none => .next kept
    | some y =>
      if reps.length < y.d then .next kept
      else
        let s := { s with agreed := agreed.filter (fun a => !same a) }
        let ps := s.launchPeers y m.idx
        let msg : Instr := if m.code = endedCode then .go m
          else match verdictOf reps with
            | some f => .fault f
            | none => .go m
        .next (ps.foldl (fun s p => s.post p msg) s)

/-- GO (02 R42): the launch may place its groups; or every share of it has ended, and where it was aborted here meanwhile no ABORT of
a cut comes any more (08 R209). -/
def execGo (m : Agree) (s : State) : Out :=
  match s.runNamed { sb := m.sb, nth := m.nth, idx := m.idx } with
  | none => .next s
  | some r =>
    .next (if m.code ≠ endedCode then s.noting fun s => s.setRun { r with go := !r.aborted || r.go }
      else if r.aborted then { s with cuts := s.cuts.filter (fun c => c.run != r.id) }
      else s.setRun { r with allEnded := true })

/-- FAULT (02 R41, R42): the share ends as faulted; device 0 records it. -/
def execFault (m : Agree) (s : State) : Out :=
  match s.storyOf m.sb m.nth with
  | none => .next s
  | some y =>
    if (y.launches.getD m.idx .skipped).final then .next s
    else
      let s := match s.runOfMsg m.sb m.nth m.idx with
        | some r => s.setRun { r with aborted := true, dealt := r.groups, started := r.groups }
        | none => s
      let s := if y.dIdx = 0 then
          s.launchFault m.slate y.done m.code m.idx m.level m.dev ((s.launchPeers y m.idx).getD m.dev s.peerid) y.va.toNat
        else s
      .next ((s.setLaunch y.id m.idx (.faulted m.code m.level)).advanceStory y.id)

/-! ### Aborts (02 R430, 17 R377) -/

/-- ABORT_REPORT (02 R430): device 0 of the domain sends ABORT to every device. -/
def execAbortReport (m : AbortMsg) (s : State) : Out :=
  match s.storyOf m.sb m.nth with
  | none => .next s
  | some y => .next ((s.launchPeers y m.idx).foldl (fun s p => s.post p (.abort m)) s)

/-- One launch of a storyboard aborted on this device. -/
def State.abortHere (s : State) (y : Story) (idx : Nat) : State :=
  match s.runOfMsg y.va y.nth idx with
  | some r => s.endShare r
  | none => if (y.launches.getD idx .skipped).final then s else (s.setLaunch y.id idx .aborted).advanceStory y.id

/-- ABORT (02 R430): the device ends its share. -/
def execAbort (m : AbortMsg) (s : State) : Out :=
  match s.storyOf m.sb m.nth with
  | none => .next s
  | some y => .next (s.abortHere y m.idx)

/-- The other devices of a launch's domain told of an abort that arises here (02 R430): by device 0 itself, or through it. -/
def State.tellAbort (s : State) (y : Story) (idx : Nat) : State :=
  let m : AbortMsg := { sb := y.va, nth := y.nth, idx := idx }
  if y.d ≤ 1 then s
  else if y.dIdx = 0 then ((s.launchPeers y idx).drop 1).foldl (fun s p => s.post p (.abort m)) s
  else s.post ((s.launchPeers y idx).headD s.peerid) (.abortReport m)

/-- Every launch of the named storyboards aborted (17 R377): here at once, on the other devices by messages. -/
def State.abortStories (s : State) (p : Story → Bool) : State :=
  (s.stories.filter (fun y => p y && !y.finished)).foldl (fun s y =>
    (upFrom 0 y.launches.length).foldl (fun s i =>
      match s.story? y.id with
      | none => s
      | some z =>
        if (z.launches.getD i .skipped).final then s
        else (s.tellAbort z i).abortHere { z with queued := false } i)
      { s with stories := s.stories.map (fun z => if z.id = y.id then { z with queued := false } else z) }) s

/-! ### WLOC (02 R49) -/

/-- The core that a die binding table gives for a task of the caller's own residency group. -/
def Run.placeOf (r : Run) (t : Task) (w : Nat) : Option Nat :=
  let j := linearWid r.levels w % groupTasks r.levels
  let js := localTasks r.levels r.d r.dIdx (groupNo r.levels r.d r.dIdx t.group)
  (r.places.find? (fun p => p.current == t.group && p.started)).bind (fun p => p.cores[js.idxOf j]?)

/-- WLOC (02 R49). -/
def execWloc (h : Hdr) (d a : Desc) (scope : BitVec 5) (s : State) : Out :=
  issue (.wloc h d a scope) s fun s =>
    withNeeds ((dstNeeds s.cur.x d).and (srcNeeds s.cur.x a)) s fun s =>
      let l := scope.toNat % 16
      let w := (s.take a).1.toNat
      match s.runOf s.cur.core, s.me.task with
      | some r, some t =>
        let ls := r.levels
        let own := t.wid.toNat
        let all := upFrom 0 ls.length
        if decide (16 ≤ scope.toNat) || !(ls[l]?).any TreeLevel.co || decide (2 ^ loOf ls ls.length ≤ w) ||
            all.any (fun k => decide (extOf ls k ≤ coordOf ls w k)) ||
            all.any (fun k => decide (l < k) && coordOf ls w k != coordOf ls own k) ||
            deviceIndex ls w % r.d != r.dIdx then trap 0x05 0 0 scope.toNat s
        else
          match r.placeOf t w with
          | some n => retire h (s.pendNew ((regOf s.cur.x d).toList.map (fun g => (g, some n))))
          | none => trap 0x05 0 0 scope.toNat s
      | _, _ => trap 0x05 0 0 scope.toNat s

end Sys2Proof.Machine
end

