-- ==== Sys2Proof/Machine/Place.lean ====
section
/-! DEFINITION. The binder and the die launch units: dealing, the start of a group, safe points and pre-emption requests, the
end of a task, retirement of a launch (02_work_tree.md R36 to R61; 06 R155, R161, R162; 17 R379 to R384). -/

namespace Sys2Proof.Machine

/-! ### Idle units (02 R37, R51) -/

/-- Places of launches that hold their units: those of a saved launch hold none. -/
def State.heldPlaces (s : State) : List Place := (s.runs.filter (fun r => r.saved.isNone)).flatMap Run.places

/-- Cores that run a task or are part of a place. -/
def State.busyCores (s : State) : List Nat :=
  ((s.cores.filter (fun e => e.2.task.isSome)).map Prod.fst ++ s.heldPlaces.flatMap Place.cores).eraseDups

/-- Whether no group of a launch can be placed on a core: it was excluded when the launch was accepted (17 R378), or is not idle. -/
def Run.barred (r : Run) (busy : List Nat) (n : Nat) : Bool := tget false n r.excl || busy.contains n

/-- The largest `m` with at least `e` distinct units each, where unit `i` holds `caps[i]` members at most. -/
def packUnitsFrom (e : Nat) (caps : List Nat) : Nat → Nat
  | 0 => 0
  | m + 1 => if e * (m + 1) ≤ (caps.map (fun f => min f (m + 1))).sum then m + 1 else packUnitsFrom e caps m

def packUnits (e : Nat) (caps : List Nat) : Nat := packUnitsFrom e caps (caps.sum / max 1 e)

/-- Members bound to level `b` under one member bound to the next higher level that the group has (02 R39). -/
def membersAt (ls : List TreeLevel) (b : Nat) : Nat := prodExt ls ((boundTo ls b).filter (fun k => decide (k < baseOf ls)))

/-- Whether members lie in one unit of physical level `b` each: the tree binds to it, or its GANG level forms a gang's eight slots
(02 R31, R32, R39). -/
def hasLevel (ls : List TreeLevel) (b : Nat) : Bool := !(boundTo ls b).isEmpty || (b == 2 && ls.any TreeLevel.gang)

/-- The physical levels whose units the members lie in, core among them: the highest at or below `b`. -/
def bindBelow (ls : List TreeLevel) : Nat → Nat
  | 0 => 1
  | b + 1 => if b + 1 = 1 ∨ hasLevel ls (b + 1) then b + 1 else bindBelow ls b

/-- Units of level `b - 1` in one of level `b`: 8 cores, 4 gangs, 32 clusters. -/
def fanOut (b : Nat) : Nat := if b = 2 then 8 else if b = 3 then 4 else 32

/-- A tree with a gang-bound level and no core-bound one: each of its tasks runs on a core of a gang of its own (02 R30). -/
def loneGangs (ls : List TreeLevel) : Bool := !(boundTo ls 2).isEmpty && (boundTo ls 1).isEmpty

/-- How many disjoint members the units inside unit `u` of level `b` hold, unit by unit of the highest bound level (02 R51). -/
def capsIn (ls : List TreeLevel) (barred : Nat → Bool) : Nat → Nat → List Nat
  | 0, u => [if barred u then 0 else 1]
  | 1, u => [if barred u then 0 else 1]
  | b + 1, u =>
    let below := (upFrom (fanOut (b + 1) * u) (fanOut (b + 1))).flatMap (capsIn ls barred b)
    let m := packUnits (membersAt ls (bindBelow ls b)) below
    if hasLevel ls (b + 1) then [if b + 1 = 2 ∧ loneGangs ls then min 1 m else m] else below

/-- Physical level of the residency level; core where there is none. -/
def Run.bindH (r : Run) : Nat := ((resLevel r.levels).bind (fun k => r.levels[k]?)).elim 1 TreeLevel.bind

/-- The device indices under which a group has tasks here, as a number of members above the die level (02 R50). -/
def Run.spread (r : Run) (k : Nat) : Nat :=
  let g := groupNo r.levels r.d r.dIdx k
  ((localTasks r.levels r.d r.dIdx g).map (fun j => (j + groupTasks r.levels * g) / deviceTasks r.levels)).eraseDups.length

/-- The unit of level `b` that holds a core; from level 5 on there is one, the device. -/
def unitOf (b n : Nat) : Nat := if b = 1 then n else if b = 2 then n / 8 else if b = 3 then n / 32 else if b = 4 then n / 1024 else 0

/-- The physical level of which a place is one unit: that of the level above the residency level, where it is the next higher one
(02 R51); a gang for a launch without core-bound levels, whose tasks lie in distinct gangs (R30). -/
def Run.unitLevel (r : Run) : Option Nat :=
  ((r.levels[baseOf r.levels]?).filter (fun l => l.bind == r.bindH + 1)).map TreeLevel.bind

/-- Whether a core lies in a unit that is a place of the launch already, or in a gang that has a task of it alone (02 R30, R51). -/
def Run.inPlace (r : Run) (n : Nat) : Bool :=
  r.unitLevel.any (fun b => r.places.any (fun p => unitOf b (p.cores.headD 0) == unitOf b n)) ||
  (loneGangs r.levels && r.places.any (fun p => p.cores.any (fun m => gangOf m == gangOf n)))

/-- Whether the device is the place: the residency level is the root, or the level above it binds to device (02 R51). -/
def Run.oneOnly (r : Run) : Bool := decide (r.levels.length ≤ baseOf r.levels) || r.unitLevel.any (fun b => decide (4 < b))

/-- The top units in which a group with a call sheet has its positions free, as 0 and 1 (13 R323). -/
def State.topsFree (s : State) (r : Run) (barred : Nat → Bool) : List Nat :=
  let size := topSize r.bindH
  let pos := ((upFrom 0 (groupTasks r.levels)).map (sheetPos r.levels)).filter (fun p => decide (p < 1024))
  s.dies.flatMap (fun d => (upFrom 0 (1024 / size)).map (fun u => if pos.all (fun p => !barred (1024 * d + size * u + p)) then 1 else 0))

/-- Units of a level on the device, below the die level. -/
def State.unitsAt (s : State) (b : Nat) : List Nat :=
  if b = 2 then s.dies.flatMap (fun d => upFrom (128 * d) 128)
  else if b = 3 then s.dies.flatMap (fun d => upFrom (32 * d) 32)
  else s.dies

/-- Disjoint places that the idle units hold for groups of a launch (02 R51, 13 R323). They are counted for groups of the launch,
whatever unit R39 leaves for the next of them (notes/assumptions/82). -/
def State.freePlaces (s : State) (r : Run) (barred : Nat → Bool) : Nat :=
  let ls := r.levels
  let out (n : Nat) : Bool := barred n || r.inPlace n
  let m := if r.sheet.isSome then packUnits (if r.bindH = 4 then membersAt ls 4 else 1) (s.topsFree r out)
    else
      match r.unitLevel.filter (fun b => decide (b ≤ 4)) with
      | some b => ((s.unitsAt b).filter (fun u => (capsIn ls out b u).any (fun c => decide (0 < c)))).length
      | none => packUnits (membersAt ls (bindBelow ls 4) * r.spread r.dealt) (s.dies.flatMap (capsIn ls out 4))
  if r.oneOnly then min 1 m else m

/-! ### The choice of units (02 R39, 13 R323) -/

/-- Group indices of the tasks that the `k`-th group of a launch has on this device. -/
def Run.tasksIn (r : Run) (k : Nat) : List Nat := localTasks r.levels r.d r.dIdx (groupNo r.levels r.d r.dIdx k)

/-- The level whose members lie in one unit of physical level `b` each though they hold several groups: the highest one bound to
`b`, which holds the members of the lower ones; none where one group takes several units of `b` (02 R39). -/
def Run.pinLevel (r : Run) (b : Nat) : Option Nat :=
  (boundTo r.levels b).getLast?.filter (fun k => decide (baseOf r.levels ≤ k) && membersAt r.levels b == 1)

/-- The member that group `k` lies under, of the level that pins physical level `b`. -/
def Run.memberNo (r : Run) (b k : Nat) : Nat :=
  let below := (upFrom 0 ((r.pinLevel b).getD 0)).filter (fun j => (r.levels[j]?).any (fun l => l.bind != 0))
  ((r.tasksIn k).headD 0 + groupTasks r.levels * groupNo r.levels r.d r.dIdx k) / prodExt r.levels below

/-- Whether the next group may not lie on a core: a member that it belongs to lies in another unit (02 R39). -/
def Run.pinned (r : Run) (n : Nat) : Bool :=
  r.pins.any (fun e => e.2.1 == r.memberNo e.1 r.dealt && unitOf e.1 n != e.2.2)

/-- The units that the members of the group `k` lie in, once it is dealt to a core (02 R39). -/
def Run.pinsOf (r : Run) (k n : Nat) : List (Nat × Nat × Nat) :=
  ([1, 2, 3, 4].filter (fun b => (r.pinLevel b).isSome)).map (fun b => (b, r.memberNo b k, unitOf b n))

/-- Whether the next group of a launch can be placed now: each member that it belongs to stays in its unit (02 R39). -/
def State.placeable (s : State) (r : Run) (busy : List Nat) : Bool :=
  decide (0 < s.freePlaces r (fun n => r.barred busy n || r.pinned n))

/-- Whether a group of the launch, which can be placed now, could lie on one of the given cores. -/
def State.couldUse (s : State) (r : Run) (busy cores : List Nat) : Bool :=
  let out (n : Nat) : Bool := r.barred busy n || r.pinned n || r.inPlace n
  let size := topSize r.bindH
  let pos := (upFrom 0 (groupTasks r.levels)).map (fun j => sheetPos r.levels j % 1024)
  s.placeable r busy && cores.any (fun n =>
    if r.sheet.isSome then pos.contains (n % size) && pos.all (fun p => !out (n / size * size + p))
    else !out n && [2, 3, 4].all (fun b => !hasLevel r.levels b || (capsIn r.levels out b (unitOf b n)).any (fun c => decide (0 < c))))

/-- Adjacent repetitions dropped. -/
def runsOf : List (Nat × Nat) → List (Nat × Nat)
  | a :: b :: t => if a = b then runsOf (b :: t) else a :: runsOf (b :: t)
  | l => l

/-- No value twice. -/
def distinct (l : List Nat) : Bool := (l.zip l.tail).all (fun p => decide (p.1 < p.2)) || l.eraseDups.length == l.length

/-- Whether cores, in the order of the group's tasks on this device, meet R39 and R323 for group `k`. -/
def Run.fitsOn (r : Run) (k : Nat) (cores : List Nat) : Bool :=
  let ls := r.levels
  let g := groupNo ls r.d r.dIdx k
  let js := localTasks ls r.d r.dIdx g
  let p := groupTasks ls
  let below (b : Nat) : Nat := prodExt ls (levelsWhere ls (fun l => l.bind != 0 && decide (l.bind < b)))
  let level (b : Nat) : Bool :=
    if b ≠ 1 ∧ !hasLevel ls b then true
    else
      let ps := runsOf ((js.zip cores).map (fun e => ((e.1 + p * g) / below b, unitOf b e.2)))
      distinct (ps.map Prod.fst) && distinct (ps.map Prod.snd)
  let base := cores.headD 0 / topSize r.bindH * topSize r.bindH
  let spot (e : Nat × Nat) : Bool :=
    if r.sheet.isNone then r.gangLv.isNone || e.2 % 8 == unitIndex ls 1 e.1
    else if r.bindH = 4 then e.2 % 1024 == sheetPos ls e.1 % 1024
    else e.2 == base + sheetPos ls e.1
  js.length == cores.length && [1, 2, 3, 4].all level && (js.zip cores).all spot

/-! ### Dealing (02 R51, R59, R60; 17 R379) -/

/-- Whether a launch holds groups that it may deal. -/
def State.undealt (s : State) (r : Run) : Bool :=
  r.go && !r.aborted && !r.retired && decide (r.dealt < r.groups) && bitAt s.lctl.toNat r.cls &&
  (r.takeLv.isNone || ((s.groupRun r.cgrp).any (fun q => q.id == r.id) && !s.groupAborting r.cgrp))

/-- No launch of a numerically lower class holds an undealt group (17 R379, R389). -/
def State.topClass (s : State) (cls : Nat) : Bool := s.runs.all (fun r => !(decide (r.cls < cls) && s.undealt r))

/-- A saved launch that resumes (17 R389): its units are all free, and no launch of a numerically lower class has an undealt group
that could use them. -/
def State.resumable (s : State) (r : Run) : Bool :=
  let busy := s.busyCores
  r.saved.isSome && !r.aborted && r.places.all (fun p => p.cores.all (fun n => !busy.contains n)) &&
  s.runs.all (fun q => !(decide (q.cls < r.cls) && s.undealt q && !q.preempted && q.saved.isNone &&
    s.couldUse q busy (r.places.flatMap Place.cores)))

/-- A launch that the launch unit may deal to (17 R379). -/
def State.dealable (s : State) (r : Run) : Bool :=
  s.undealt r && !r.preempted && r.saved.isNone && s.topClass r.cls && s.load.isNone

/-- The launch whose turn it is: of those of one class that can be placed now, the one dealt least recently (02 R60). -/
def State.turnOf (s : State) (r : Run) (busy : List Nat) : Bool :=
  s.runs.all (fun q => q.id == r.id || q.cls != r.cls || !s.dealable q || !s.placeable q busy ||
    decide (r.turn < q.turn) || (r.turn == q.turn && decide (r.id < q.id)))

/-- The launch unit has work that comes before an acceptance (17 R379): a saved launch that resumes, or a group that it can deal. -/
def State.unitBusy (s : State) : Bool :=
  s.runs.any (fun r => s.resumable r || (s.dealable r && s.placeable r s.busyCores))

/-- LAUNCH_ACCEPT (02 R38, R42): the check of a launch; alone in its domain it may run at once or faults at once, else its result
goes to device 0. It comes after what the launch unit can resume or deal (17 R379). -/
def execLaunchAccept (sb idx : Nat) (s : State) : Out :=
  match s.story? sb with
  | none => .next s
  | some y =>
    if !s.acceptable y idx || s.unitBusy then .next s
    else
      let take (s : State) : State := { s with stories := s.stories.map (fun z => if z.id = sb then { z with queued := false } else z) }
      match checkSlate y idx s with
      | (.wait, _) => .next s
      | (.fault code level, s) =>
        let s := take s
        if y.d ≤ 1 then
          .next (((s.launchFault (y.slates.getD idx 0) y.done code idx level 0 s.peerid y.va.toNat).setLaunch sb idx
            (.faulted code level)).advanceStory sb)
        else
          .next ((s.setLaunch sb idx (.accepted 0)).post ((s.storyPeers y.id y.d y.dIdx).headD s.peerid)
            (.pass (agreeMsg y idx code level)))
      | (.pass r, s) =>
        let r := { r with id := s.nextId, go := decide (y.d ≤ 1) }
        let s := take (s.fresh).2
        let s := (s.noting fun s => { s with runs := s.runs ++ [r] }).setLaunch sb idx (.accepted r.id)
        if y.d ≤ 1 then .next s else .next (s.post (s.rootPeer r) (.pass (agreeMsg y idx 0 0)))

/-- Some level above the residency groups carries ORD (02 R51). -/
def Run.ordered (r : Run) : Bool := (r.levels.drop (baseOf r.levels)).any TreeLevel.ord

/-- The size of a chunk (02 R51); it ends before a group that has more tasks here than the place has cores, as one across devices
may (notes/assumptions/82). -/
def Run.chunk (r : Run) (free : Nat) : Nat :=
  let rest := r.groups - r.dealt
  let n := if r.ordered then 1 else max 1 ((rest + 2 * free - 1) / (2 * free))
  if wideGroup r.levels then
    max 1 ((upFrom r.dealt n).takeWhile (fun k => decide ((r.tasksIn k).length ≤ (r.tasksIn r.dealt).length))).length
  else n

/-- The cores of a place that its current group takes: all, or the first ones where a group across devices has fewer tasks here. -/
def Run.coresFor (r : Run) (p : Place) : List Nat := p.cores.take (r.tasksIn p.current).length

/-- DEAL (02 R51): a place on the given cores receives a chunk; `free` counts the disjoint places of the idle units. -/
def execDeal (run : Nat) (cores : List Nat) (free : Nat) (s : State) : Out :=
  match s.run? run with
  | none => .next s
  | some r =>
    let busy := s.busyCores
    let open' (n : Nat) : Bool := s.ownCore n && !isHub n && !r.barred busy n && !r.inPlace n && !r.pinned n
    if !s.dealable r || !cores.all open' || !r.fitsOn r.dealt cores || free != s.freePlaces r (r.barred busy) ||
        !s.turnOf r busy || s.runs.any s.resumable then .next s
    else
      let n := r.chunk free
      let p : Place := { cores := cores, current := r.dealt, last := r.dealt + n - 1, started := false, live := [] }
      let t := (s.fresh).2
      .next (t.setRun { r with dealt := r.dealt + n, places := r.places ++ [p], turn := s.nextId,
                               pins := r.pinsOf (r.dealt + n - 1) (cores.headD 0) })

/-! ### The start of a group (02 R36, 05 R119, 17 R380) -/

/-- The identity words of a task (05 R119). -/
def identWords (s : State) (r : Run) (n : Nat) (wid : Word) : List Nat :=
  let lv (o : Option Nat) : Nat := o.getD 0x1F
  [n, gangOf n, clusterOf n, n / 1024, s.peerid, wid.toNat, r.args.toNat, r.seed, r.slate.toNat, r.d + 2 ^ 16 * r.dIdx,
   r.levels.length + 2 ^ 8 * lv r.takeLv + 2 ^ 16 * lv r.gangLv + 2 ^ 32 * r.cgrp, Config.vlen, 0, 0, 0, 0]

/-- The supervisor registers of a task at its start (16 R360). -/
def State.svDefaults (s : State) : Table Word :=
  tput 0 0xA s.spillxdef (tput 0 9 s.spilladef (tput 0 1 s.tvecdef (tput 0 0 s.cctldef [])))

/-- A core as the die launch unit leaves it before START (02 R36, 17 R380). -/
def State.groomed (s : State) (r : Run) (k n gidx : Nat) : Core :=
  let c := s.core n
  let g := groupNo r.levels r.d r.dIdx k
  let wid := BitVec.ofNat 64 (packWid r.levels 0 (gidx + groupTasks r.levels * g))
  let words := r.image.map BitVec.toNat ++ identWords s r n wid
  { Core.idle with
    cyc := c.cyc, aFrom := c.aFrom, allFrom := c.allFrom, code := c.code,
    lm := tputs 0 0 (words.flatMap (fun w => leBytes w 8)) [],
    key := tput 0 0x10 (BitVec.ofNat 64 r.seed) [],
    sv := s.svDefaults,
    task := some { run := r.id, wid := wid, group := k, gidx := gidx, take := if r.takeLv.isSome then 1 else 0, seq := 0, errc := 0, cyc0 := c.cyc,
                   watch := none, watchHeld := none, preempt := false, ending := false, errTraps := [], safe := none,
                   kept := [], seenBy := [] } }

/-- The die launch unit's writes to one core; the group starts with what its predecessors released (02 R54). -/
def State.groom (s : State) (r : Run) (k n gidx : Nat) : State :=
  let s := (s.cleanCluster (clusterOf n)).setCore n (s.groomed r k n gidx)
  let s := if r.gangLv.isSome then s.setGang (gangOf n) Gang.idle else s
  { s with agenda := s.agenda ++ [.start { core := n, run := r.id, group := k, gidx := gidx, resume := false, xrun := false }] }

/-- A launch's place changed. -/
def State.mapPlace (s : State) (run group : Nat) (f : Place → Place) : State :=
  { s with runs := s.runs.map (fun r =>
      if r.id = run then { r with places := r.places.map (fun p => if p.current = group then f p else p) } else r) }

/-- Whether a group of a launch must not start yet: with ORD an earlier group has not started (02 R31, R51). -/
def Run.outOfOrder (r : Run) (group : Nat) : Bool :=
  r.ordered && r.places.any (fun q => decide (q.current < group) && !(q.started && q.live.length == (r.coresFor q).length))

/-- A code store to one of some cores is on its way: what the die launch unit sends to a core arrives in order (17 R380). -/
def State.codeComing (s : State) (cores : List Nat) : Bool :=
  s.agenda.any (fun m => match m with
    | .codeStore n _ _ => cores.contains n
    | _ => false)

/-- GROUP_START (17 R380): state and identity words are written, START is sent to every core of the group. It waits while the matrix
queue of a gang that it takes cores of still holds instructions of tasks that have ended, which go on there (02 R36, 06 R154), the
model's choice (notes/assumptions/45). -/
def execGroupStart (run group : Nat) (s : State) : Out :=
  match s.run? run with
  | none => .next s
  | some r =>
    match r.places.find? (fun p => p.current == group) with
    | none => .next s
    | some p =>
      if p.started || r.preempted || r.saved.isSome || r.aborted || s.load.isSome ||
          p.cores.any (fun n => (s.core n).task.isSome || !(s.gang (gangOf n)).queue.isEmpty) || r.outOfOrder group ||
          s.codeComing p.cores then .next s
      else
        let t := (p.cores.zip (r.tasksIn group)).foldl (fun t e => t.groom r group e.1 e.2) s
        let t := { t with xgroups := t.xgroups.filter (fun x => !(x.run == run && x.group == group)) }
        let t := t.mapPlace run group (fun p => { p with started := true, live := [] })
        match t.run? run with
        | some q => .next ((t.fresh).2.setRun
            { q with started := q.started + 1, startAt := if q.startAt = 0 then t.nextId else q.startAt })
        | none => .next t

/-- A core whose streams begin (17 R380): the A-stream at a slot. -/
def Core.begin (c : Core) (entry : Nat) : Core :=
  let c := c.arrival
  { c with a := { c.a with pc := entry, run := true }, task := c.task.map (fun t => { t with cyc0 := c.cyc, watch := some c.cyc }) }

/-- START (17 R380, R389): the first instructions of a group issue once START has reached every core of it (02 R60). -/
def execStart (m : StartMsg) (s : State) : Out :=
  let c := s.core m.core
  if !c.task.any (fun t => t.run == m.run && t.group == m.group && t.gidx == m.gidx) then .next s
  else if m.resume then
    let c := c.arrival
    .next (s.setCore m.core { c with a := { c.a with run := true }, x := { c.x with run := m.xrun },
                                     task := c.task.map (fun t => { t with watch := some c.cyc }) })
  else
    match s.run? m.run with
    | none => .next s
    | some r =>
      match r.places.find? (fun p => p.current == m.group) with
      | none => .next s
      | some p =>
        let live := without m.core p.live ++ [m.core]
        let s := s.mapPlace m.run m.group (fun p => { p with live := live })
        if live.length < (r.coresFor p).length then .next s
        else
          let s := (r.coresFor p).foldl (fun s n => s.setCore n ((s.core n).begin r.entry)) s
          let first (y : Story) : Story := { y with t0 := some (y.t0.getD s.dcyc) }
          .next { s with stories := s.stories.map (fun y => if y.id = r.sb then first y else y) }

/-! ### Safe points (06 R161, R162; 17 R384) -/

/-- Whether the X-stream is idle or stalled on a pop of an empty AQ or BQA (06 R162); one that a debugger holds is not: the request
waits until it has been resumed (17 R391). -/
def Core.xQuiet (c : Core) : Bool :=
  !c.x.halted && (!c.x.run || (match c.x.stage with
    | .popWait k => (c.fifo k).entries.isEmpty
    | _ => false))

/-- SAFEPT (06 R161, R162): with a request pending the A-stream waits here to be saved, once the X-stream is quiet and every
gang instruction it has arrived for has completed (11 R289); the masks are read at each try, the model's choice
(notes/assumptions/81). At level S the request goes on waiting for the first SAFEPT after RFT (16 R369), and the watchdog, which
stands, restarts from 0. -/
def execSafept (h : Hdr) (cslot : BitVec 8) (lmx : BitVec 10) (s : State) : Out :=
  issue (.safept h cslot lmx) s fun s =>
    withNeeds { needs [] [] with lm := [(8 * cslot.toNat, 16, false)] } s fun s =>
      let m1 := s.constSlot cslot.toNat
      let m2 := s.constSlot (cslot.toNat + 1)
      let n := s.cur.core
      if fld m2.toNat 58 6 ≠ 0 then trap 0x01 0 0 0 s
      else if s.me.level = .s then retire h (s.mapTask n (fun t => { t with watchHeld := some 0 }))
      else if !s.me.task.any Task.preempt then
        retire h (s.mapTask n (fun t => { t with watch := some s.now }))
      else
        let ready := s.me.xQuiet && (s.queued n).isEmpty && (tget none (n % 8) (s.gang (gangOf n)).arrivals).isNone
        stall (s.mapTask n (fun t => { t with watch := none, safe := if ready then some (m1, m2, lmx.toNat) else none }))

/-- Whether the watchdog of a core has passed SPI with a request pending (06 R162). -/
def State.overdue (s : State) (n : Nat) : Bool :=
  let c := s.core n
  match s.runOf n, c.task with
  | some r, some t => t.preempt && t.safe.isNone && c.level == .t && t.watch.any (fun w => decide (w + r.spi < c.issueAt false))
  | _, _ => false

/-- SAFEPOINT_OVERDUE (06 R162): the A-stream traps at its next instruction; the watchdog counts afresh after RFT (17 R384). -/
def execSafepointOverdue (core : Nat) (s : State) : Out :=
  if s.overdue core && (s.core core).mayIssue false then
    let s := s.mapTask core (fun t => { t with watch := some ((s.core core).issueAt false) })
    .next ((s.setCore core ((s.core core).at' ((s.core core).issueAt false))).trapOn core false 0x0C 0 0 0)
  else .next s

/-! ### The end of a task (02 R47, 06 R155) -/

/-- A message that a core sent is still on its way (06 R155). -/
def State.sending (s : State) (n : Nat) : Bool :=
  s.agenda.any (fun m => match m with
    | .sendArrival x => x.ctx.core == n
    | .xsendLanding x => x.ctx.core == n
    | _ => false) ||
  s.cores.any (fun e => e.2.held.any (fun m => m.ctx.core == n))

/-- TEND (06 R155): the task waits to end. A Welwick core runs none: its stores are released at device scope and it issues nothing
more (19 R421, the model's choice, notes/assumptions/26). -/
def execTend (h : Hdr) (s : State) : Out :=
  issue (.tend h) s fun s =>
    if isHub s.cur.core then
      if s.sending s.cur.core then stall s
      else withRelease 5 s fun s => .next (s.setSt { s.st with run := false, waitFrom := none, stage := .start })
    else stall (s.mapTask s.cur.core (fun t => { t with ending := true }))

/-- Whether a task's waits at TEND are over: X-stream idle, copies, near-memory commands and sends done (06 R155), its continuity
instructions completed (12 R316), and the results that it still waits for written (05 R109, notes/assumptions/47). -/
def State.mayEnd (s : State) (n : Nat) : Bool :=
  let c := s.core n
  c.task.any Task.ending && !c.a.halted && !c.x.run && c.copies.all (fun e => e.2.isNone) && !s.nmcs.any (fun q => q.core == n) &&
  !s.sending n && !(s.queued n).any isCont && c.pends.isEmpty

/-- A place after one of its tasks has ended: with none left it goes on to the next group of its chunk, or is given up. -/
def State.stepPlaces (s : State) (run : Nat) : State :=
  let live (p : Place) : Bool := p.cores.any (fun n => (s.core n).task.any (fun t => t.run == run))
  let go (p : Place) : Option Place :=
    if !p.started || live p then some p
    else if p.current < p.last then some { p with current := p.current + 1, started := false, live := [] }
    else none
  { s with runs := s.runs.map (fun r => if r.id = run ∧ r.saved.isNone then { r with places := r.places.filterMap go } else r) }

/-- The results of a core that are still to land written (05 R107). -/
def Core.landAll (c : Core) : Core := c.settle ((c.a.landings ++ c.x.landings).foldl (fun m l => max m l.lands) 0)

/-- A task of core `n` that has ended counts as arrived at the open cuts of its launch with its release (02 R47, 08 R209): where it
had arrived it keeps a number that no later task of the core has. -/
def State.endAtCuts (s : State) (run n : Nat) : State :=
  let v := s.vecOf (dieOf n)
  { s with cuts := s.cuts.map (fun (c : CutInst) =>
      if c.run = run then
        { c with tasks := c.tasks.map (fun k => if k = n then 2 ^ 15 + n else k), vec := if c.st = .opened then vmax c.vec v else c.vec }
      else c) }

/-- A launch that was asked to save itself and has nothing left to save is asked no more: its units are free, its undealt groups stay
queued (17 R383). -/
def State.unasked (s : State) (run : Nat) : State :=
  match s.run? run with
  | some r =>
    if r.preempted && r.places.isEmpty && (s.coresOf run).isEmpty then s.noting (fun s => s.setRun { r with preempted := false })
    else s
  | none => s

/-- TASK_END (02 R47): the task's stores are released at device scope, it counts as arrived at its barriers and cuts, its core
is free. -/
def execTaskEnd (core : Nat) (s : State) : Out :=
  if !s.mayEnd core then .next s
  else
    match s.runOf core, (s.core core).task with
    | some r, some t =>
      let s := s.setCore core (s.core core).landAll
      let s := ((s.writeBack core false).writeBack core true).takeHorizon (dieOf core)
      let s := s.setRun { r with endedTasks := r.endedTasks ++ [t.wid] }
      let s := (s.freeCore core)
      let s := match s.run? r.id with
        | some q => s.endAtBarriers q core
        | none => s
      let s := if r.takeLv.isSome then (s.ensureCut r (s.nextCut r.id)).endAtCuts r.id core else s
      .next ((s.stepPlaces r.id).unasked r.id)
    | _, _ => .next s

/-! ### Retirement (02 R54, R55) -/

/-- Every task of this device's share has ended, and its last cut is closed (02 R54, 08 R193). -/
def State.shareEnded (s : State) (r : Run) : Bool :=
  r.go && !r.retired && !r.aborted && r.started == r.groups && r.dealt == r.groups && r.saved.isNone && r.places.isEmpty &&
  (s.tasksOf r).isEmpty && (r.takeLv.isNone || r.lastCut || r.groups == 0) && !s.writing r

/-- LAUNCH_RETIRE (02 R54): in a domain of several devices the share first reports that it has ended; with all ended its writes
are released at the scope of the domain and its successors may be accepted. -/
def execLaunchRetire (run : Nat) (s : State) : Out :=
  match s.run? run with
  | none => .next s
  | some r =>
    match s.story? r.sb with
    | none => .next s
    | some y =>
      if !s.shareEnded r then .next s
      else if 1 < r.d ∧ !r.allEnded then
        (if r.reported then .next s
         else .next ((s.setRun { r with reported := true }).post (s.rootPeer r) (.pass (agreeMsg y r.idx endedCode 0))))
      else
        let s := s.dies.foldl State.takeHorizon s
        let all := s.dies.foldl (fun v d => vmax v (s.vecOf d)) []
        let s := (Config.hubDie :: s.dies).foldl (fun s d => s.mergeVec d all) s
        let s := s.noting fun s => s.setRun { r with retired := true, preempted := false }
        let sink := !y.edges.any (fun e => e.1 == r.idx)
        let s := { s with
          stories := s.stories.map (fun (z : Story) => if z.id = y.id ∧ sink then { z with t1 := s.dcyc } else z),
          barInsts := s.barInsts.filter (fun b => b.run != run), xgroups := s.xgroups.filter (fun x => x.run != run),
          cuts := s.cuts.filter (fun c => c.run != run) }
        .next ((s.setLaunch y.id r.idx .retired).advanceStory y.id)

/-! ### Pre-emption (17 R383, R384) -/

/-- Context areas in use or promised (17 R383, R387). -/
def State.areasUsed (s : State) : Nat := (s.runs.filter (fun r => r.preempted || r.saved.isSome)).length

/-- Resident launches that a group of launch `r` could be placed in the stead of (17 R383). -/
def State.victims (s : State) (r : Run) : List Run :=
  let busy := s.busyCores
  s.runs.filter (fun v => decide (r.cls < v.cls) && !v.preempted && v.saved.isNone && !v.aborted && !v.retired &&
    !(s.coresOf v.id).isEmpty &&
    s.placeable r (busy.filter (fun n => !v.places.any (fun p => p.cores.contains n))))

/-- The launches that cannot place their next group (17 R383). -/
def State.asking (s : State) : List Run := s.runs.filter (fun r => s.dealable r && !s.placeable r s.busyCores)

/-- Whether launch `v` is the one to pre-empt for `r`: of the highest class, of equal classes the latest started (17 R383). -/
def State.isVictim (s : State) (r v : Run) : Bool :=
  let vs := s.victims r
  vs.any (fun w => w.id == v.id) &&
  vs.all (fun w => decide (w.cls < v.cls) || (w.cls == v.cls && decide (w.startAt ≤ v.startAt)))

/-- PREEMPTION_REQUEST (17 R383): a group of class `cls` cannot be placed; its victim is asked to save itself. -/
def execPreemptionRequest (run cls : Nat) (s : State) : Out :=
  match s.run? run with
  | some v =>
    if !bitAt s.lctl.toNat 4 || !s.asking.any (fun r => r.cls == cls && s.isVictim r v) || fld s.ctx.toNat 0 3 ≤ s.areasUsed ||
        s.runs.any (fun q => q.preempted) || s.runs.any s.resumable then .next s
    else
      .next (s.noting (fun s =>
        let s := s.setRun { v with preempted := true }
        (s.coresOf run).foldl (fun s n =>
          let c := s.core n
          let count := c.level == .t && !c.a.halted && !c.x.halted
          s.mapTask n (fun t => { t with preempt := true, watch := if count then some c.cyc else none,
                                         watchHeld := if count then none else some 0 })) s))
  | none => .next s

end Sys2Proof.Machine
end

