-- ==== Sys2Proof/Machine/Save.lean ====
section
/-! DEFINITION. Context areas: a launch saved at its safe points and resumed; code loading (17 R381 to R389). -/

namespace Sys2Proof.Machine

/-! ### Ranges of memory -/

/-- A table with the keys from `a` on, `n` of them, replaced by the entries of another, which are keys from 0 on. -/
def putRange (a n : Nat) (new t : Table Byte) : Table Byte :=
  t.filter (fun e => decide (e.1 < a)) ++ (new.filter (fun e => decide (e.1 < n))).map (fun e => (a + e.1, e.2)) ++
    t.filter (fun e => decide (a + n ≤ e.1))

/-- The entries of a table from key `a` on, `n` keys, as keys from 0 on. -/
def getRange (a n : Nat) (t : Table Byte) : Table Byte :=
  (t.filter (fun e => decide (a ≤ e.1) && decide (e.1 < a + n))).map (fun e => (e.1 - a, e.2))

/-- A region of memory written whole by the launch unit. -/
def State.putRegion (s : State) (a n : Nat) (t : Table Byte) : State :=
  let s := s.touch a
  { s with mem := putRange a n t s.mem, bad := s.bad.filter (fun e => decide (8 * e.1 + 8 ≤ a) || decide (a + n ≤ 8 * e.1)) }

/-- A table of bytes from pieces at their offsets. -/
def piecesAt (l : List (Nat × List Byte)) : Table Byte := l.foldl (fun t p => tputs 0 p.1 p.2 t) []

/-- Words as bytes. -/
def wordBytes (l : List Nat) : List Byte := l.flatMap (fun w => leBytes w 8)

/-! ### The slot of a core (17 R388) -/

/-- A loop record as a word of the slot, and back. -/
def LoopRec.word (l : LoopRec) : Nat := l.start % 2 ^ 12 + 2 ^ 12 * (l.last % 2 ^ 12) + 2 ^ 32 * (l.rem % 2 ^ 32)
def loopsOf (ws : List Nat) : List LoopRec :=
  (ws.filter (fun w => fld w 32 32 != 0)).map (fun w => { start := fld w 0 12, last := fld w 12 12, rem := fld w 32 32 })

/-- Live masks of a task at its safe point. -/
def Task.masks (t : Task) : Nat × Nat × Nat := (t.safe.map (fun m => (m.1.toNat, m.2.1.toNat, m.2.2))).getD (0, 0, 0)

/-- Presence bits as numbers (17 R388). -/
def Core.presWord (c : Core) : Nat :=
  mkBits (fun i => tget false (32 + i) c.presG) 0 32 + 2 ^ 32 * mkBits (fun i => tget false i c.presV) 0 32

/-- Whether a g or a v register is saved (17 R385, R388). -/
def Core.savesG (c : Core) (m1 i : Nat) : Bool := bitAt m1 i || (decide (32 ≤ i) && tget false i c.presG)
def Core.savesV (c : Core) (m2 i : Nat) : Bool := bitAt m2 i || tget false i c.presV

/-- The first 8 KiB of a slot; its continuity registers are written in slot 0 only. -/
def State.slotHead (s : State) (n : Nat) (t : Task) (pc : Nat) (loops : List LoopRec) : Table Byte :=
  let c := s.core n
  let (m1, m2, lmx) := t.masks
  let g := s.gang (gangOf n)
  let first := n % 8 = 0
  let gw (i : Nat) : Nat := if c.savesG m1 i then (tget 0 i c.g).toNat else 0
  let sw (i : Nat) : Nat := if bitAt m2 (32 + i) then (tget 0 i c.s).toNat else 0
  let pw (i : Nat) : Nat := c.reg (.px i)
  let bits (f : Fifo) : Nat := mkBits (fun i => (f.entries[i]?).any (fun e => bitAt e.2.toNat 0)) 0 32
  let words (f : Fifo) : List Nat := f.entries.map (fun e => e.2.toNat)
  let rets (st : Stream) : List Nat := st.rets.reverse.map RetEntry.word
  piecesAt [
    (0x00, wordBytes [pc + 2 ^ 12 * (c.x.pc % 4096) + 2 ^ 24 * b01 c.x.run, m1, m2, lmx, c.presWord,
      c.aq.entries.length + 2 ^ 8 * c.xq.entries.length + 2 ^ 16 * c.bqa.entries.length + 2 ^ 24 * c.bqx.entries.length +
        2 ^ 32 * c.inbox.length + 2 ^ 40 * c.mail.length,
      2 ^ 32 * (c.reg (.key 0x10) % 2 ^ 32) + c.reg (.key 0x11) % 2 ^ 32, c.reg (.key 0x12) % 2 ^ 32]),
    (0x40, wordBytes (loops.map LoopRec.word)),
    (0x60, wordBytes (c.x.loops.map LoopRec.word)),
    (0x80, wordBytes [c.a.rets.length + 2 ^ 8 * c.x.rets.length + 2 ^ 16 * (c.a.spilled % 2 ^ 16) +
        2 ^ 32 * (c.x.spilled % 2 ^ 16) + 2 ^ 48 * (c.a.floor % 8) + 2 ^ 56 * (c.x.floor % 8),
      t.take % 2 ^ 32 + 2 ^ 32 * (t.seq % 2 ^ 32), (c.cyc - t.cyc0) % 2 ^ 64, t.errc % 2 ^ 16, c.predWord]),
    (0x100, wordBytes (rets c.a)),
    (0x180, wordBytes (rets c.x)),
    (0x200, wordBytes ((upFrom 0 64).map gw)),
    (0x400, wordBytes ((upFrom 0 16).map sw)),
    (0x480, wordBytes ((upFrom 0 8).map (fun i => (tget 0 i c.tc).toNat))),
    (0x4C0, wordBytes (c.vflags.toNat :: (upFrom 0 8).map (fun i => (tget 0 i c.tctr).toNat))),
    (0x508, wordBytes (if first then [(tget 0 0 g.bctr).toNat, (tget 0 1 g.bctr).toNat] else [])),
    (0x540, (upFrom 0 16).flatMap (fun i => leBytes (pw i) 16)),
    (0x640, wordBytes (words c.aq)),
    (0x6C0, wordBytes (words c.xq)),
    (0x740, leBytes (bits c.bqa) 4 ++ leBytes (bits c.bqx) 4),
    (0x800, wordBytes (c.inbox.map BitVec.toNat)),
    (0x900, c.mail.flatMap (fun e => wordBytes (List.replicate (8 - e.length) 0 ++ e.map BitVec.toNat))),
    (0xD00, if first then wordBytes ((upFrom 0 128).map (fun i => (g.cont.read i).toNat)) else []),
    (0x1100, leBytes (mkBits (fun w => tget false w c.lmFull) 0 8192) 1024)]

/-- The LM ranges that a slot holds, as address and length: the constant window with the live extent, and the spilled return
entries of both streams (17 R388). -/
def Core.lmRanges (c : Core) (lmx ka kx : Nat) : List (Nat × Nat) :=
  let clip (a n : Nat) : Nat × Nat := (a, min n (65536 - a))
  ([clip 0 (0x800 + 64 * lmx), clip (fld (c.svGet 9).toNat 0 16) (8 * ka), clip (fld (c.svGet 0xA).toNat 0 16) (8 * kx)]).filter
    (fun e => decide (0 < e.2))

/-- Bytes of a saved barrier entry (17 R388). -/
def BarEntry.saved (e : BarEntry) : List Byte := leBytes e.saveWord 8 ++ leBytes e.value.toNat 8

/-- A core's context written to its slot (17 R384, R385, R388): regions not written are left as they were. -/
def State.saveCore (s : State) (area : Nat) (amask n : Nat) (t : Task) (pc : Nat) (loops : List LoopRec) : State :=
  let c := s.core n
  let a := s.contextSlot area n
  let (_, m2, lmx) := t.masks
  let g := s.gang (gangOf n)
  let sl := n % 8
  let head := s.slotHead n t pc loops
  let s := if sl = 0 then s.putRegion a 0x2000 head
    else (s.putRegion a 0xD00 head).putRegion (a + 0x1100) 0xF00 (getRange 0x1100 0xF00 head)
  let s := (upFrom 0 32).foldl (fun s i =>
    if c.savesV m2 i then s.putRegion (a + 0x2000 + 128 * i) 128 (piecesAt [(0, leBytes (tget 0 i c.v).toNat 128)]) else s) s
  let s := (upFrom 0 8).foldl (fun s i =>
    if bitAt m2 (48 + i) then s.putRegion (a + 0x3000 + 4096 * i) 4096 (getRange (4096 * i) 4096 c.t) else s) s
  let band (b : Nat) : Table Byte := piecesAt ((upFrom 0 256).map (fun r =>
    (32 * r, (upFrom 0 8).flatMap (fun j => leBytes (g.accAt b r (8 * sl + j)).toNat 4))))
  let s := [0, 1].foldl (fun s b => if bitAt amask b then s.putRegion (a + 0xB000 + 8192 * b) 8192 (band b) else s) s
  let s := s.putRegion (a + 0xF000) 0x1000 []
  let s := (c.lmRanges lmx c.a.spilled c.x.spilled).foldl (fun s e => s.putRegion (a + 0x10000 + e.1) e.2 (getRange e.1 e.2 c.lm)) s
  let s := s.putRegion (a + 0x20000) 0x8000 (piecesAt (c.bars.map (fun e => (16 * e.1, e.2.saved))))
  let s := s.putRegion (a + 0x28000) 0x40000
    (piecesAt ((c.bars.filter (fun e => e.2.dom)).map (fun e => (128 * e.1, leBytes e.2.mask.toNat 128))))
  s.putRegion (a + 0x68000) 0x18000 []

/-! ### CONTEXT_SAVE (17 R384 to R386) -/

/-- Whether a core that waits at its safe point has nothing under way (17 R384 step 3). -/
def State.quietCore (s : State) (n : Nat) : Bool :=
  let c := s.core n
  let into (m : Instr) : Bool := match m with
    | .sendArrival x => x.dst == n
    | .xsendLanding x => x.dst == n
    | .joinContribution x => x.dst == gangOf n
    | .contributionAck src _ => ((s.gang src).queue.head?.bind GangOp.target) == some (gangOf n)
    | _ => false
  c.task.any (fun t => t.safe.isSome) && c.level == .t && !c.a.halted && c.xQuiet && c.pends.isEmpty && c.copies.all (fun e => e.2.isNone) &&
  c.held.isEmpty && c.heldMail.isEmpty && !s.sending n && !s.agenda.any into && (s.gang (gangOf n)).queue.isEmpty &&
  (s.gang (gangOf n)).join.isNone

/-- Whether every exchange phase of a launch has reached its end (17 R384). -/
def State.phasesOver (s : State) (r : Run) : Bool :=
  let e := (r.sheet.map Sheet.phaseEnd).getD 0
  s.xgroups.all (fun x => x.run != r.id || x.released.all (fun t => decide (t + e ≤ s.dcyc)))

/-- The lowest context area that no launch is saved in. -/
def State.freeArea (s : State) : Option Nat :=
  let used := s.runs.filterMap (fun r => r.saved.map Prod.fst)
  (upFrom 0 (fld s.ctx.toNat 0 3)).find? (fun a => !used.contains a)

/-- What a saved task keeps beside its slot. -/
def Core.keeps (c : Core) : Table Word :=
  let t := [0, 1, 9, 0xA].foldl (fun t k => tput 0 k (c.svGet k) t) []
  let t := tput 0 16 (BitVec.ofNat 64 (match c.mail with
    | e :: _ => 8 - e.length
    | [] => 0)) t
  c.bars.foldl (fun t e =>
    let t := if e.2.mismatch then tput 0 (32 + e.1) 1 t else t
    match e.2.asLevel with
    | some l => tput 0 (0x1000 + e.1) (BitVec.ofNat 64 (l + 1)) t
    | none => t) t

/-- One core saved and freed: results land, LM stores are applied, dirty lines are written back and what its loads have seen is
merged, and SAFEPT completes (17 R384, R388). -/
def State.saveOne (s : State) (area amask n : Nat) : State :=
  let s := s.setCore n ((((s.core n).settle ((s.core n).cyc + 2 ^ 16)).lmFlush false).lmFlush true)
  let c := s.core n
  let s := ((s.writeBack n false).writeBack n true).takeHorizon (dieOf n)
  let s := (s.mergeVec (dieOf n) c.a.seen).mergeVec (dieOf n) c.x.seen
  match c.task with
  | some t =>
    let st := c.a.advance 4096 c.cyc 0 false
    s.saveCore area amask n t st.pc st.loops
  | none => s

/-- CONTEXT_SAVE (17 R384): every task waits at its safe point and traffic has landed; contexts are written, the units freed. -/
def execContextSave (run : Nat) (s : State) : Out :=
  match s.run? run with
  | none => .next s
  | some r =>
    let cores := s.coresOf run
    match s.freeArea with
    | none => .next s
    | some area =>
      if !r.preempted || r.aborted || !cores.all s.quietCore || !s.phasesOver r then .next s
      else
        .next (s.noting (fun s =>
          let mask (n : Nat) : Nat := (upFrom (8 * gangOf n) 8).foldl (fun m k =>
            Nat.lor m (fld ((s.core k).task.elim 0 (fun t => t.masks.2.1)) 56 2)) 0
          let t := cores.foldl (fun t n => t.saveOne area (mask n) n) s
          let tasks := cores.filterMap (fun n => (s.core n).task.map (fun q => (n, { q with kept := (s.core n).keeps })))
          let t := cores.foldl (fun t n => t.freeCore n) t
          let t := if r.gangLv.isSome then cores.foldl (fun t n => t.setGang (gangOf n) Gang.idle) t else t
          t.setRun { r with saved := some (area, tasks), preempted := false }))

/-! ### RESUMPTION (17 R389, 06 R162, 11 R289) -/

/-- A word and a run of words of a slot. -/
def State.slotWord (s : State) (a off : Nat) : Nat := s.memRd (a + off) 8
def State.slotWords (s : State) (a off n : Nat) : List Nat := (upFrom 0 n).map (fun i => s.slotWord a (off + 8 * i))

/-- The continuity unit from its registers by number. -/
def contOf (f : Nat → Nat) : Cont :=
  { ctbase := BitVec.ofNat 64 (f 0), csbase := BitVec.ofNat 64 (f 1), cstbase := BitVec.ofNat 64 (f 2),
    geom := BitVec.ofNat 64 (f 3), cstep := BitVec.ofNat 64 (f 4), cref := BitVec.ofNat 64 (f 5),
    pend := ((upFrom 0x10 8).filter (fun k => bitAt (f k) 0)).map (fun k => (fld (f k) 8 6, fld (f k) 16 16)),
    sig := (upFrom 0 8).foldl (fun t k => tput 0 (2 * k + 1) (toS (fld (f (0x20 + k)) 32 32) 32)
      (tput 0 (2 * k) (toS (f (0x20 + k)) 32) t)) [],
    sigv := bitAt (f 0x28) 0, nf := bitAt (f 0x28) 1, sigb := fld (f 0x28) 8 6,
    thr := (upFrom 0 64).foldl (fun t k => tput 0 k (BitVec.ofNat 64 (f (0x40 + k))) t) [] }

/-- A queue restored: its entries were pushed before. -/
def fifoOf (ws : List Nat) : Fifo := { entries := ws.map (fun w => (0, BitVec.ofNat 64 w)), lastPop := none }

/-- A barrier identifier restored (17 R386, R388). -/
def barOf (ls : List TreeLevel) (n : Nat) (wid : Word) (w v mask : Nat) (mism : Bool) (lv : Nat) : BarEntry :=
  let dom := bitAt w 1
  let level := fld w 4 4
  { bound := bitAt w 0, dom := dom, level := level,
    key := if dom then ancFirst level n else wid.toNat / 2 ^ loOf ls (level + 1),
    mask := BitVec.ofNat 1024 mask, arrived := bitAt w 2, done := bitAt w 3, mismatch := mism, opc := fld w 8 3,
    value := BitVec.ofNat 64 v, asLevel := if lv = 0 then none else some (lv - 1) }

/-- A core restored from its slot (17 R389, 06 R162): what was not saved is zero; its streams wait for START. -/
def State.restored (s : State) (r : Run) (area n : Nat) (t : Task) : Core :=
  let c := s.core n
  let a := s.contextSlot area n
  let w := s.slotWord a
  let m2 := w 0x10
  let lmx := w 0x18
  let pres := w 0x20
  let cnt := w 0x28
  let key := w 0x30
  let ret := w 0x80
  let v := s.vecOf (dieOf n)
  let stream (pc loops rets n k fl : Nat) : Stream :=
    { Stream.idle with pc := pc, loops := loopsOf (s.slotWords a loops 4), floor := fl,
                       rets := ((s.slotWords a rets n).map retOf).reverse, spilled := k, carried := v }
  let lm0 := getRange (a + 0x10000) 65536 s.mem
  let base : Core :=
    { Core.idle with
      cyc := c.cyc, aFrom := c.aFrom, allFrom := c.allFrom, code := c.code,
      sv := [0, 1, 9, 0xA].foldl (fun sv k => tput 0 k (tget 0 k t.kept) sv) [] }
  let bars := ((getRange (a + 0x20000) 0x8000 s.mem).map (fun e => e.1 / 16)).eraseDups
  { base with
    a := { stream (fld (w 0) 0 12) 0x40 0x100 (fld ret 0 5) (fld ret 16 16) (fld ret 48 3) with seen := t.seenBy },
    x := stream (fld (w 0) 12 12) 0x60 0x180 (fld ret 8 5) (fld ret 32 16) (fld ret 56 3),
    g := (upFrom 0 64).foldl (fun q i => tput 0 i (BitVec.ofNat 64 (w (0x200 + 8 * i))) q) [],
    s := (upFrom 0 16).foldl (fun q i => tput 0 i (BitVec.ofNat 64 (w (0x400 + 8 * i))) q) [],
    v := (upFrom 0 32).foldl (fun q i =>
      if bitAt m2 i || bitAt pres (32 + i) then tput 0 i (BitVec.ofNat 1024 (s.memRd (a + 0x2000 + 128 * i) 128)) q else q) [],
    pa := (upFrom 1 15).foldl (fun q i => tput false i (bitAt (w 0xA0) i) q) [],
    px := (upFrom 1 15).foldl (fun q i => tput 0 i (BitVec.ofNat 128 (s.memRd (a + 0x540 + 16 * i) 16)) q) [],
    t := (upFrom 0 8).flatMap (fun i =>
      if bitAt m2 (48 + i) then (getRange (a + 0x3000 + 4096 * i) 4096 s.mem).map (fun e => (4096 * i + e.1, e.2)) else []),
    tc := (upFrom 0 8).foldl (fun q i => tput 0 i (BitVec.ofNat 64 (w (0x480 + 8 * i))) q) [],
    presG := (upFrom 0 32).foldl (fun q i => tput false (32 + i) (bitAt pres i) q) [],
    presV := (upFrom 0 32).foldl (fun q i => tput false i (bitAt pres (32 + i)) q) [],
    aq := fifoOf (s.slotWords a 0x640 (fld cnt 0 5)),
    xq := fifoOf (s.slotWords a 0x6C0 (fld cnt 8 5)),
    bqa := fifoOf ((upFrom 0 (fld cnt 16 6)).map (fun j => b01 (bitAt (s.memRd (a + 0x740) 4) j))),
    bqx := fifoOf ((upFrom 0 (fld cnt 24 6)).map (fun j => b01 (bitAt (s.memRd (a + 0x744) 4) j))),
    inbox := (s.slotWords a 0x800 (fld cnt 32 6)).map (BitVec.ofNat 64),
    mail := (upFrom 0 (fld cnt 40 5)).map (fun j =>
      ((s.slotWords a (0x900 + 64 * j) 8).map (BitVec.ofNat 64)).drop (if j = 0 then (tget 0 16 t.kept).toNat else 0)),
    lm := lm0.filter (fun e => (base.lmRanges lmx (fld ret 16 16) (fld ret 32 16)).any (fun p => decide (p.1 ≤ e.1) && decide (e.1 < p.1 + p.2))),
    lmFull := (upFrom 0 8192).filterMap (fun i => if bitAt (s.memRd (a + 0x1100 + i / 8) 1) (i % 8) then some (i, true) else none),
    key := tput 0 0x12 (BitVec.ofNat 64 (w 0x38 % 2 ^ 32)) (tput 0 0x11 (BitVec.ofNat 64 (key % 2 ^ 32))
      (tput 0 0x10 (BitVec.ofNat 64 (key / 2 ^ 32)) [])),
    vflags := BitVec.ofNat 64 (w 0x4C0),
    tctr := (upFrom 0 8).foldl (fun q i => tput 0 i (BitVec.ofNat 64 (w (0x4C8 + 8 * i))) q) [],
    bars := bars.foldl (fun q b => tput BarEntry.unbound b
      (barOf r.levels n t.wid (w (0x20000 + 16 * b)) (w (0x20008 + 16 * b)) (s.memRd (a + 0x28000 + 128 * b) 128)
        (tget 0 (32 + b) t.kept != 0) (tget 0 (0x1000 + b) t.kept).toNat) q) [],
    task := some { t with take := fld (w 0x88) 0 32, seq := if t.seq < 2 ^ 32 then fld (w 0x88) 32 32 else t.seq,
                          errc := fld (w 0x98) 0 16, cyc0 := c.cyc - w 0x90, watch := none, watchHeld := none, preempt := false,
                          safe := none, kept := [], seenBy := [] } }

/-- A gang restored from the slots of its cores (17 R385, R389): the array holds no operand (11 R289). -/
def State.restoredGang (s : State) (area gn : Nat) : Gang :=
  let a (sl : Nat) : Nat := s.contextSlot area (8 * gn + sl)
  let amask := (upFrom 0 8).foldl (fun m sl => Nat.lor m (fld (s.slotWord (a sl) 0x10) 56 2)) 0
  let row (b r : Nat) : List (BitVec 32) := (upFrom 0 64).map (fun k =>
    BitVec.ofNat 32 (s.memRd (a (k / 8) + 0xB000 + 8192 * b + 32 * r + 4 * (k % 8)) 4))
  let put (g : Gang) (b : Nat) : Gang :=
    if bitAt amask b then (upFrom 0 256).foldl (fun g r => g.putRow b r (row b r)) g else g
  { put (put Gang.idle 0) 1 with
    bctr := tput 0 1 (BitVec.ofNat 64 (s.slotWord (a 0) 0x510)) (tput 0 0 (BitVec.ofNat 64 (s.slotWord (a 0) 0x508)) []),
    cont := contOf (fun k => s.slotWord (a 0) (0xD00 + 8 * k)) }

/-- RESUMPTION (17 R389): every core is restored, then START goes to each with the resume flag. What the die launch unit sent to the
cores before, arrives before (17 R380), and instructions of ended tasks leave their gangs' matrix queues first (notes/assumptions/45). -/
def execResumption (run : Nat) (s : State) : Out :=
  match s.run? run with
  | none => .next s
  | some r =>
    match r.saved with
    | none => .next s
    | some (area, tasks) =>
      let cores := tasks.map Prod.fst
      if !s.resumable r || s.codeComing cores || cores.any (fun n => !(s.gang (gangOf n)).queue.isEmpty) then .next s
      else
        .next (s.noting (fun s =>
          let t := tasks.foldl (fun t e => (t.cleanCluster (clusterOf e.1)).setCore e.1 (s.restored r area e.1 e.2)) s
          let gangs := if r.gangLv.isSome then (tasks.map (fun e => gangOf e.1)).eraseDups else []
          let t := gangs.foldl (fun t gn => t.setGang gn (s.restoredGang area gn)) t
          let start (e : Nat × Task) : Instr :=
            .start { core := e.1, run := run, group := e.2.group, gidx := e.2.gidx, resume := true,
                     xrun := bitAt (s.slotWord (s.contextSlot area e.1) 0) 24 }
          { t with agenda := t.agenda ++ tasks.map start }.setRun { r with saved := none }))

/-! ### Code loading (17 R381, R382) -/

/-- Whether a core counts as idle for code stores (17 R382). -/
def Core.codeIdle (c : Core) : Bool := c.task.isNone || (c.a.halted && c.x.halted)

/-- CODE_STORE (17 R382): a store that reaches a core which is not idle is dropped with a record; one of the code load in progress,
which `w` marks, also counts towards it, and comes after what was sent to the core before the load (17 R380). -/
def execCodeStore (core slot : Nat) (w : Nat × Bool) (s : State) : Out :=
  if w.2 && s.codeComing [core] then .next s else
  let c := s.core core
  let s := if c.codeIdle then s.setCore core { c with code := tput 0 slot (BitVec.ofNat 96 w.1) c.code }
    else s.errRecord 0x07 true 0 s.noCtx 0 slot 0
  match s.load.filter (fun _ => w.2) with
  | some l =>
    let k := tget 0 core l.left
    .next (if slot = l.first + k ∧ k < l.count then { s with load := some { l with left := tput 0 core (k + 1) l.left } } else s)
  | none => .next s

/-- The compute cores of the partition. -/
def State.allCores (s : State) : List Nat := upFrom (1024 * s.partFirst) (1024 * 2 ^ s.partLog)

/-- CODE_LOAD_COMPLETE (17 R381): BUSY returns to 0 when every core has written every slot. -/
def execCodeLoadComplete (s : State) : Out :=
  match s.load with
  | some l =>
    let all := l.count = 0 ∨ (l.left.length = 1024 * 2 ^ s.partLog ∧ l.left.all (fun e => e.2 == l.count))
    .next (if all then { s with load := none } else s)
  | none => .next s

end Sys2Proof.Machine
end

