-- ==== Sys2Proof/Machine/Regs.lean ====
section
/-! DEFINITION. Device registers: what a read gives and what a write does, for MFSV, MTSV, the host and the events of the table
(16 R359 to R374; 08 R204, R216; 13 R340, R341; 17 R375 to R391; 18 R394, R407; 19 R415 to R427). -/

namespace Sys2Proof.Machine

/-! ### Reads -/

/-- A masked field of a written value, kept at its place. -/
def keepBits (v : Word) (lo w : Nat) : Word := BitVec.ofNat 64 (fld v.toNat lo w * 2 ^ lo)

/-- LQSTAT (17 R375). -/
def State.lqstat (s : State) : Nat :=
  s.queuedIn 0 + 2 ^ 8 * s.queuedIn 1 + 2 ^ 16 * s.queuedIn 2 + 2 ^ 24 * s.queuedIn 3 +
    2 ^ 32 * ((s.runs.filter (fun r => !(s.coresOf r.id).isEmpty)).length % 256) +
    2 ^ 40 * ((s.runs.filter (fun r => r.saved.isSome)).length % 8)

/-- KiB filled in a bank, overflow extents included (08 R204). -/
def Bank.kib (b : Bank) : Nat :=
  (b.used + (b.extents.dropLast.map (fun e => e.2.2)).sum + (if b.extents = [] then 0 else b.extUsed)) / 1024

/-- DBGSTAT (17 R390). -/
def State.dbgstat (s : State) : Nat :=
  let c := s.core s.dbgsel.toNat
  c.a.pc % 4096 + 2 ^ 12 * (c.x.pc % 4096) + 2 ^ 24 * b01 c.a.halted + 2 ^ 25 * b01 c.x.halted +
    2 ^ 26 * b01 c.a.waitFrom.isSome + 2 ^ 27 * b01 c.x.waitFrom.isSome

/-- What DBGRSEL selects: a register, a row of a tile by its first byte, or an accumulator element by its number. -/
inductive DbgPlace where
  | reg (r : Reg)
  | row (byte : Nat)
  | acc (elem : Nat)
  deriving DecidableEq, Repr

/-- What DBGRSEL selects, where its stream has it (17 R390). Class 011 names an s register, a tile or an accumulator by opcode
(05 R122); with no opcode to decide it, which one a descriptor names, and in which row of a tile, is a free value
(notes/assumptions/35). -/
def State.dbgReg (s : State) : Option DbgPlace :=
  let d := s.dbgrsel.toNat
  let x := bitAt d 27
  match fld d 19 3 with
  | 0 => if x then none else some (.reg (.g (fld d 0 6)))
  | 1 => if x then some (.reg (.v (fld d 0 5))) else none
  | 2 => some (.reg (if x then .px (fld d 0 4) else .pa (fld d 0 4)))
  | 3 =>
    if !x then none
    else
      match (Config.dbgFile s.dbgrsel).val with
      | 0 => some (.reg (.s (fld d 0 4)))
      | 1 => some (.row (4096 * fld d 0 3 + 128 * (Config.dbgRow s.dbgrsel).toNat))
      | _ => some (.acc (16384 * fld d 14 1 + 64 * fld d 6 8 + fld d 0 6))
  | _ => none

/-- Words that DBGRSEL.WORD can select. -/
def DbgPlace.words : DbgPlace → Nat
  | .reg (.v _) => 16
  | .reg (.px _) => 2
  | .row _ => 16
  | _ => 1

/-- The selected place is there to be read and written: its stream is halted, and has the word (17 R390). -/
def State.dbgReach (s : State) (p : DbgPlace) : Bool :=
  ((s.core s.dbgsel.toNat).stream (bitAt s.dbgrsel.toNat 27)).halted && decide (fld s.dbgrsel.toNat 22 5 < p.words)

/-- DBGDATA as it reads: zero where the selected stream is not halted (17 R390). -/
def State.dbgRead (s : State) : Nat :=
  let n := s.dbgsel.toNat
  let c := s.core n
  let w := fld s.dbgrsel.toNat 22 5
  match s.dbgReg with
  | some p =>
    if !s.dbgReach p then 0
    else
      match p with
      | .reg r => fld (c.reg r) (64 * w) 64
      | .row b => leNat (tgets 0 (b + 8 * w) 8 c.t)
      | .acc e => (tget 0 e (s.gang (gangOf n)).acc).toNat
  | none => 0

/-- Whether a cluster belongs to the partition (19 R413, R420). -/
def State.ownCluster (s : State) (cl : Nat) : Bool := s.ownDie (cl / 32)

/-- ISLFREQ (19 R420): the island runs at the lower of SET and CAP. -/
def State.islfreqOf (s : State) (cl : Nat) : Nat :=
  let set := tget 1600 cl s.islset
  let cap := tget 1800 cl s.islcap
  if s.ownCluster cl then set + 2 ^ 16 * cap + 2 ^ 32 * min set cap else 0

/-- PORTSTAT (19 R415). -/
def State.portstatOf (s : State) : Nat :=
  let p := tget Port.down s.portsel s.ports
  b01 p.up + 2 * b01 (Config.ownPort s.portsel) + 2 ^ 2 * (p.lanes % 16) + 2 ^ 16 * (p.retry % 2 ^ 16)

/-- DEVSTAT (19 R422). -/
def State.devstat (s : State) : Nat := s.stage % 16 + 2 ^ 4 * b01 s.isReady

/-- A device register as a read finds it; write-only registers read as zero (00 R7). -/
def State.regValue (s : State) (n : Nat) : Nat :=
  match n with
  | 0x100 => s.errbase.toNat
  | 0x101 => s.errsize
  | 0x102 => s.errhead
  | 0x103 => s.errtail
  | 0x104 => s.errtrap
  | 0x105 => tget 0 0 s.errcorr + 2 ^ 16 * tget 0 1 s.errcorr + 2 ^ 32 * tget 0 2 s.errcorr
  | 0x107 => s.errlost
  | 0x108 => s.cctldef.toNat
  | 0x109 => s.tvecdef.toNat
  | 0x10A => s.spilladef.toNat
  | 0x10B => s.spillxdef.toNat
  | 0x110 => s.cbbase.toNat
  | 0x111 => s.cbsize
  | 0x112 => s.cbovf.toNat
  | 0x113 => s.bank0.kib % 2 ^ 32 + 2 ^ 32 * (s.bank1.kib % 2 ^ 32)
  | 0x114 => s.cuttmo
  | 0x115 => s.cuthold.toNat
  | 0x130 => s.qpbase.toNat
  | 0x201 => s.lpdom.toNat
  | 0x202 => s.lqstat
  | 0x203 => s.lctl.toNat
  | 0x208 => s.xcl.toNat
  | 0x210 => s.cldsrc.toNat
  | 0x211 => s.cldctl.toNat + 2 ^ 26 * b01 s.load.isSome
  | 0x218 => s.ctx.toNat
  | 0x220 => s.dbgsel.toNat
  | 0x222 => s.dbgstat
  | 0x223 => s.dbgctl.toNat
  | 0x224 => s.dbgrsel.toNat
  | 0x225 => s.dbgRead
  | 0x240 => s.sptbase.toNat
  | 0x241 => s.sptlim
  | 0x248 => s.sdstat
  | 0x250 => s.tflog0.toNat
  | 0x251 => s.tflog1.toNat
  | 0x252 => s.tflog2.toNat
  | 0x253 => s.tflog3.toNat
  | 0x260 => s.peerid
  | 0x261 => s.instloc.toNat
  | 0x262 => s.partLog + 2 ^ 3 * s.partFirst
  | 0x268 => s.cgtbase.toNat
  | 0x269 => s.cgtn
  | 0x270 => s.frtbase.toNat
  | 0x271 => s.portsel
  | 0x272 => s.portstatOf
  | 0x280 => s.islsel
  | 0x281 => s.islfreqOf s.islsel
  | 0x2E0 => s.reeldesc.toNat
  | 0x2E1 => 2 * b01 s.reel.isSome + 2 ^ 2 * s.reelst
  | 0x2F0 => s.devstat
  | 0x2F1 => s.intpend.toNat
  | 0x2FA => s.hwin.toNat
  | _ => if 0x120 ≤ n ∧ n ≤ 0x12F then (tget 0 (n - 0x120) s.rdap).toNat else 0

/-- A read of a device register: RS fields are cleared by it (00 R7). -/
def State.regRead (s : State) (n : Nat) : Word × State :=
  let v := BitVec.ofNat 64 (s.regValue n)
  match n with
  | 0x105 => (v, { s with errcorr := [] })
  | 0x107 => (v, { s with errlost := 0 })
  | 0x272 =>
    let p := tget Port.down s.portsel s.ports
    (v, { s with ports := tput Port.down s.portsel { p with retry := 0 } s.ports })
  | _ => (v, s)

/-! ### Writes with effects of their own -/

/-- A task of the partition is resident or saved (17 R381, 19 R415). -/
def State.anyTask (s : State) : Bool :=
  s.cores.any (fun e => e.2.task.isSome) || s.runs.any (fun r => r.saved.any (fun p => !p.2.isEmpty))

/-- A take launch is resident (08 R204). -/
def State.takeResident (s : State) : Bool := s.runs.any (fun r => r.takeLv.isSome && !(s.coresOf r.id).isEmpty)

end Sys2Proof.Machine

namespace Sys2Proof

open Machine

/-- The die whose vector a writer's earlier releases stand in: a compute core's, or the hub's. -/
def Writer.die : Writer → Nat
  | .core n => dieOf n
  | _ => Config.hubDie

/-- The core number under which a writer's own registers stand. -/
def Writer.coreNo : Writer → Option Nat
  | .core n => some n
  | .welwick k => some (Config.welwickBase + k)
  | .host => none

end Sys2Proof

namespace Sys2Proof.Machine

/-- ERRSW (16 R372, R374, R428): a SOFT record of the writer. -/
def State.writeErrsw (s : State) (w : Writer) (v : Word) : State :=
  let sv (k : Nat) : Nat := w.coreNo.elim 0 (fun n => ((s.core n).svGet k).toNat)
  let cx := match w with
    | .core n => s.ctxOf n
    | _ => s.noCtx
  s.errRecord 0x14 false 0 cx (sv 2) v.toNat (sv 4)

/-- LPORT (17 R376, 19 R427): none while the queue of the storyboard's class is full. -/
def State.writeLport (s : State) (w : Writer) (v : Word) : Option State :=
  let d := fld s.lpdom.toNat 0 13
  let idx := fld s.lpdom.toNat 16 13
  if !s.isReady ∨ d = 0 ∨ 4096 < d ∨ d ≤ idx then some (s.svDiscard w 0x200 v.toNat)
  else (s.mergeVec Config.hubDie (s.vecOf w.die)).submit (fld v.toNat 6 51 * 64) (fld s.lpdom.toNat 32 16) d idx 0

/-- LABORT (17 R377). -/
def State.writeLabort (s : State) (v : Word) : State := s.abortStories (fun y => y.va.toNat == fld v.toNat 6 51 * 64)

/-- XCL (17 R378): the bitmap is read when the register is written. -/
def State.writeXcl (s : State) (v : Word) : State :=
  let s := { s with xcl := keepBits v 12 33 ||| keepBits v 0 1 }
  if !bitAt v.toNat 0 then { s with excl := [] }
  else
    let a := (keepBits v 12 33).toNat
    let (bs, s) := (s.touch a).rawBytes 0 0 0 a 4096
    { s with excl := ((upFrom 0 4096).zip bs).flatMap (fun e =>
        if e.2 = 0 then [] else ((upFrom 0 8).filter (fun j => e.2.getLsbD j)).map (fun j => (8 * e.1 + j, true))) }

/-- The slots of a code image that can be read, in order (17 R381): a slot with an uncorrectable word holds zero, with one record
for each such word, at the first slot that holds bytes of it. -/
def imageSlots (a slot : Nat) (first : Bool) : Nat → State → List Nat × State
  | 0, s => ([], s)
  | f + 1, s =>
    if !s.assigned a || !s.assigned (a + 11) then ([], s)
    else
      let w := if s.badIn a 12 then 0 else s.memRd a 12
      let lo := if first then a / 8 else (a + 7) / 8
      let bad := (upFrom lo ((a + 11) / 8 + 1 - lo)).filter (fun k => tget false k s.bad)
      let s := bad.foldl (fun s k => s.uncorr 4 s.noCtx 0 (8 * k) slot) s
      let (ws, s) := imageSlots (a + 12) (slot + 1) false f s
      (w :: ws, s)

/-- CLDCTL (17 R381). -/
def State.writeCldctl (s : State) (w : Writer) (v : Word) : State :=
  let first := fld v.toNat 0 12
  let count := fld v.toNat 12 13
  if !bitAt v.toNat 25 then { s with cldctl := keepBits v 0 25 }
  else if s.load.isSome || decide (4096 < first + count) || count == 0 || s.anyTask then s.svDiscard w 0x211 v.toNat
  else
    let (ws, t) := imageSlots s.cldsrc.toNat first true count s
    { t with cldctl := keepBits v 0 25, load := some { first := first, count := ws.length, words := ws, left := [] } }

/-- CTX (17 R387). -/
def State.writeCtx (s : State) (w : Writer) (v : Word) : State :=
  if 128 < fld v.toNat 29 7 + fld v.toNat 0 3 || s.runs.any (fun r => r.saved.isSome) then s.svDiscard w 0x218 v.toNat
  else { s with ctx := keepBits v 0 3 ||| keepBits v 29 7 }

/-- A stream halted at its issue boundary (17 R391): a wait is withdrawn, what stands keeps standing. -/
def Stream.halt (t : Stream) : Stream :=
  { t with halted := true, stepping := false, waitFrom := none, guarded := if t.stage.ofGang then t.guarded else none,
           stage := if t.stage.stands || t.stage.ofGang then t.stage else .start }

/-- A command of the debugger on the selected core (17 R390, R391): 0 halts, 1 resumes, 2 steps; the root of a take launch learns
of a change (08 R215). -/
def State.debug (s : State) (a x : Bool) (op : Nat) : State :=
  let n := s.dbgsel.toNat
  let one (t : Stream) : Stream :=
    match op with
    | 0 => t.halt
    | 1 => { t with halted := false, stepping := false }
    | 2 => if t.halted then { t with halted := false, stepping := true } else t
    | _ => t
  if !s.ownCore n then s
  else
    s.noting (fun s =>
      let c := s.core n
      let s := if op = 0 then (if a then s.dropRequest c.a else s) else s
      let c := { c with a := if a then one c.a else c.a, x := if x then one c.x else c.x }
      s.setCore n c.holdWatch)

/-- DBGDATA written (17 R390): one word of what is selected in a halted stream. -/
def State.writeDbgdata (s : State) (v : Word) : State :=
  let n := s.dbgsel.toNat
  let c := s.core n
  let g := s.gang (gangOf n)
  let w := fld s.dbgrsel.toNat 22 5
  match s.dbgReg with
  | some p =>
    if !s.dbgReach p then s
    else
      match p with
      | .reg r => s.setCore n (c.setReg r (fullMask r) (setFld (c.reg r) (64 * w) 64 v.toNat))
      | .row b => s.setCore n { c with t := tputs 0 (b + 8 * w) (leBytes v.toNat 8) c.t }
      | .acc e => s.setGang (gangOf n) { g with acc := tput 0 e (BitVec.ofNat 32 v.toNat) g.acc }
  | none => s

/-- DBGIW (17 R390): index 2 commits the slot as a code store. -/
def State.writeDbgiw (s : State) (v : Word) : State :=
  let i := fld v.toNat 32 2
  if i = 3 then s
  else
    let s := { s with dbgiw := tput 0 i (BitVec.ofNat 64 (fld v.toNat 0 32)) s.dbgiw }
    if i ≠ 2 then s
    else
      let w := (tget 0 0 s.dbgiw).toNat + 2 ^ 32 * (tget 0 1 s.dbgiw).toNat + 2 ^ 64 * (tget 0 2 s.dbgiw).toNat
      { s with agenda := s.agenda ++ [.codeStore s.dbgsel.toNat (fld v.toNat 34 12) (w, false)] }

/-- MBPOST (19 R422): none while the mailbox is full. -/
def State.writeMbpost (s : State) (w : Writer) (v : Word) : Option State :=
  let n := fld v.toNat 49 15
  let a := fld v.toNat 6 39 * 64
  if !s.ownCore n then some (s.svDiscard w 0x2F8 v.toNat)
  else
    let c := s.core n
    if 16 ≤ c.mail.length ∨ c.heldMail ≠ [] then none
    else
      let (bs, s) := (s.touch a).rawBytes 0 0 0 a 64
      let ws := (upFrom 0 8).map (fun i => fieldOf bs (8 * i) 8)
      let ws := (setFld (ws.headD 0) 0 8 2 :: ws.tail).map (BitVec.ofNat 64)
      some (s.setCore n (c.placeMail none ws))

/-- A spill register keeps a value only where BASE and COUNT meet 16 R360. -/
def spillOk (v : Word) : Bool :=
  let base := fld v.toNat 0 16
  base % 8 == 0 && decide (0x800 ≤ base) && decide (base + 8 * fld v.toNat 16 16 ≤ 65536)

/-- ISLFREQ (19 R420). -/
def State.writeIslfreq (s : State) (v : Word) : State :=
  let f := fld v.toNat 0 11
  if !s.ownCluster s.islsel || decide (f < 800) || decide (1800 < f) || f % 25 != 0 then s
  else { s with islset := tput 1600 s.islsel f s.islset }

/-! ### Checkpoint reels (19 R426) -/

/-- A resident task that waits at the held, closed cut (08 R216, 19 R426). -/
def State.atHeldCut (s : State) (n : Nat) (t : Task) : Bool :=
  let hold := fld s.cuthold.toNat 0 32
  bitAt s.cuthold.toNat 32 && t.take == hold && (s.run? t.run).any (fun r => r.takeLv.isSome) &&
  (s.cutOf t.run hold).any (fun c => c.st == .closed) && (s.core n).a.stage == .cutArrived hold

/-- The same for a saved task, whose arrival stands. -/
def State.savedAtCut (s : State) (r : Run) (t : Task) : Bool :=
  let hold := fld s.cuthold.toNat 0 32
  bitAt s.cuthold.toNat 32 && t.take == hold && r.takeLv.isSome && (s.cutOf r.id hold).any (fun c => c.st == .closed)

/-- A region's pages translate for read (19 R426): none while a walk must wait. -/
def regionReads (q : Asker) (va : Nat) : Nat → State → Option Bool × State
  | 0, s => (some true, s)
  | f + 1, s =>
    match reachEngine q va true false (s.translate q va) with
    | (.page t, s) => if paPeer (t.addr va) = s.peerid then regionReads q (va + 4096) f s else (some false, s)
    | (.trap .., s) => (some false, s)
    | (.wait, s) => (none, s)

/-- Every region of a reel translates. -/
def regionsRead (q : Asker) : List (Nat × Nat) → State → Option Bool × State
  | [], s => (some true, s)
  | (va, len) :: rs, s =>
    match regionReads q va (len / 4096) s with
    | (some true, s) => regionsRead q rs s
    | o => o

/-- REELCTL (19 R426): GO starts a reel or is refused; none while a region's walk must wait. -/
def State.writeReelctl (s : State) (v : Word) : Option State :=
  if !bitAt v.toNat 0 then some s
  else
    let refuse : Option State := some { s with reelst := 3 }
    let free := s.cores.all (fun e => e.2.task.all (s.atHeldCut e.1)) &&
      s.runs.all (fun r => r.saved.all (fun p => p.2.all (fun e => s.savedAtCut r e.2)))
    if s.reel.isSome || !free then refuse
    else
      let a := s.reeldesc.toNat
      let (hd, s) := (s.touch a).rawBytes 5 0 0 a 16
      let n := fieldOf hd 2 2
      let space := fieldOf hd 4 2
      let dest := fieldOf hd 8 8
      if fieldOf hd 0 2 ≠ 1 ∨ n = 0 ∨ 1024 < n ∨ fieldOf hd 6 2 ≠ 0 ∨ dest % 4096 ≠ 0 ∨ 2 ^ 57 ≤ dest ∨
          dest / 2 ^ 45 = s.peerid then some { s with reelst := 3 }
      else
        let (bs, s) := (s.touch (a + 16)).rawBytes 5 0 0 (a + 16) (16 * n)
        let rs := (upFrom 0 n).map (fun i => (fieldOf bs (16 * i) 8, fieldOf bs (16 * i + 8) 8))
        if rs.any (fun r => r.1 % 4096 != 0 || r.2 % 4096 != 0) then some { s with reelst := 3 }
        else
          match regionsRead (s.unitAsker space) rs s with
          | (none, _) => none
          | (some false, s) => some { s with reelst := 3 }
          | (some true, s) => some { s with reel := some { dest := dest, regions := rs, space := space }, reelst := 0 }

/-! ### Writes (16 R359) -/

/-- A write of the identity and table registers, refused while a task is resident or saved (19 R415). -/
def State.guarded (s : State) (w : Writer) (n : Nat) (v : Word) (t : State) : State :=
  if s.anyTask then s.svDiscard w n v.toNat else t

/-- A write of a device register that needs no wait: RW fields take the value, the rest is discarded (00 R7). -/
def State.regWrite (s : State) (w : Writer) (n : Nat) (v : Word) : State :=
  let empty := s.errhead == s.errtail
  match n with
  | 0x100 => if empty then { s with errbase := keepBits v 12 33 } else s
  | 0x101 => if empty ∧ 6 ≤ fld v.toNat 0 5 ∧ fld v.toNat 0 5 ≤ 20 then { s with errsize := fld v.toNat 0 5 } else s
  | 0x103 => { s with errtail := fld v.toNat 0 32 }
  | 0x104 => { s with errtrap := fld v.toNat 0 4 }
  | 0x106 => s.writeErrsw w v
  | 0x108 => { s with cctldef := keepBits v 0 1 }
  | 0x109 => if Config.svSlot ≤ fld v.toNat 0 12 then { s with tvecdef := keepBits v 0 12 } else s
  | 0x10A => if spillOk v then { s with spilladef := keepBits v 0 32 } else s
  | 0x10B => if spillOk v then { s with spillxdef := keepBits v 0 32 } else s
  | 0x110 => if s.takeResident then s.svDiscard w n v.toNat else { s with cbbase := keepBits v 12 33 }
  | 0x111 =>
    let m := fld v.toNat 0 32
    if s.takeResident then s.svDiscard w n v.toNat
    else if m % 2 = 0 ∧ 2 ≤ m ∧ m ≤ 0x20000 then { s with cbsize := m } else s
  | 0x112 => if s.takeResident then s.svDiscard w n v.toNat else { s with cbovf := keepBits v 0 45 }
  | 0x114 => { s with cuttmo := fld v.toNat 0 32 }
  | 0x130 => { s with qpbase := keepBits v 6 51 }
  | 0x131 => { s with trig := tput 0 (fld v.toNat 0 10) 0 s.trig }
  | 0x201 => { s with lpdom := keepBits v 0 13 ||| keepBits v 16 13 ||| keepBits v 32 16 }
  | 0x203 => { s with lctl := keepBits v 0 5 }
  | 0x204 => s.writeLabort v
  | 0x208 => s.writeXcl v
  | 0x210 => { s with cldsrc := keepBits v 6 39 }
  | 0x211 => s.writeCldctl w v
  | 0x218 => s.writeCtx w v
  | 0x220 => { s with dbgsel := keepBits v 0 15 }
  | 0x221 => s.debug (bitAt v.toNat 0) (bitAt v.toNat 1) (fld v.toNat 2 2)
  | 0x223 => { s with dbgctl := keepBits v 0 1 }
  | 0x224 => { s with dbgrsel := keepBits v 0 28 }
  | 0x225 => s.writeDbgdata v
  | 0x226 => s.writeDbgiw v
  | 0x240 => { s with sptbase := keepBits v 12 33 }
  | 0x241 => if fld v.toNat 0 17 ≤ 65536 then { s with sptlim := fld v.toNat 0 17 } else s
  | 0x250 => if bitAt v.toNat 15 then { s with tflog0 := BitVec.ofNat 64 (setFld s.tflog0.toNat 15 1 0), tflogAt := none } else s
  | 0x260 => s.guarded w n v { s with peerid := fld v.toNat 0 12 }
  | 0x261 => s.guarded w n v { s with instloc := v }
  | 0x268 => s.guarded w n v { s with cgtbase := keepBits v 4 41 }
  | 0x269 => s.guarded w n v (if fld v.toNat 0 7 ≤ 64 then { s with cgtn := fld v.toNat 0 7 } else s)
  | 0x270 => s.guarded w n v { s with frtbase := keepBits v 0 1 ||| keepBits v 12 33 }
  | 0x271 => { s with portsel := fld v.toNat 0 6 }
  | 0x280 => { s with islsel := fld v.toNat 0 10 }
  | 0x281 => s.writeIslfreq v
  | 0x2E0 => { s with reeldesc := keepBits v 6 39 }
  | 0x2F1 => { s with intpend := s.intpend &&& ~~~(BitVec.ofNat 4 v.toNat) }
  | 0x2FA => { s with hwin := keepBits v 32 13 }
  | _ => if 0x120 ≤ n ∧ n ≤ 0x12F then { s with rdap := tput 0 (n - 0x120) (keepBits v 0 13) s.rdap } else s

/-- A write of a device register: none while it must wait (16 R359). CUTHOLD waits for a reel (19 R426). -/
def State.devWrite (s : State) (w : Writer) (n : Nat) (v : Word) : Option State :=
  match n with
  | 0x115 => if s.reel.isSome then none else some (s.noting (fun s => { s with cuthold := keepBits v 0 33 }))
  | 0x200 => s.writeLport w v
  | 0x2E1 => s.writeReelctl v
  | 0x2F8 => s.writeMbpost w v
  | _ => some (s.regWrite w n v)

/-! ### Core-local registers (16 R360, 19 R421) -/

/-- A core-local register as it reads: SVABORT is write-only. -/
def Core.svRead (c : Core) (n : Nat) : Word := if n = 0xB then 0 else c.svGet n

/-- A core-local register written: read-only ones and values that R360 discards leave it unchanged. -/
def Core.svWrite (c : Core) (n : Nat) (v : Word) : Core :=
  match n with
  | 0x0 => c.svPut n (keepBits v 0 1)
  | 0x1 => if Config.svSlot ≤ fld v.toNat 0 12 then c.svPut n (keepBits v 0 12) else c
  | 0x2 => c.svPut n (keepBits v 0 12)
  | 0x3 => c.svPut n (keepBits v 0 13)
  | 0x6 => c.svPut n v
  | 0x7 => c.svPut n v
  | 0x8 => c.svPut n (keepBits v 1 15)
  | 0x9 => if spillOk v then c.svPut n (keepBits v 0 32) else c
  | 0xA => if spillOk v then c.svPut n (keepBits v 0 32) else c
  | 0x20 => c.svPut n (keepBits v 4 53)
  | 0x21 => c.svPut n (keepBits v 4 53)
  | 0x22 => c.svPut n (keepBits v 0 17)
  | 0x23 => c.svPut n (keepBits v 3 61)
  | _ => c

end Sys2Proof.Machine
end

