-- ==== Sys2Proof/Machine/Priv.lean ====
section
/-! DEFINITION. The privileged instructions, OP 0x70, and the invalidation of translations (16 R357 to R366; 18 R408, R409;
19 R421, R422). -/

namespace Sys2Proof.Machine

/-! ### Supervisor registers (16 R359) -/

/-- Who writes a device register by MTSV on core `n` (16 R428). -/
def writerOf (n : Nat) : Writer := if isHub n then .welwick (n - Config.welwickBase) else .core n

/-- MFSV (16 R359): latency 1 for a core-local register, variable latency for a device register. -/
def execMfsv (h : Hdr) (g : BitVec 6) (n : BitVec 12) (s : State) : Out :=
  issue (.mfsv h g n) s fun s =>
    withNeeds (needs [] [.g g.toNat]) s fun s =>
      if svDevice n.toNat then
        let (v, s) := s.regRead n.toNat
        retire h (s.pendNew [(.g g.toNat, some v.toNat)])
      else retire h (s.writeFixed (.g g.toNat) 1 (s.me.svRead n.toNat).toNat 1)

/-- MTSV (16 R359, R364): a device register's write may have to wait; SVABORT on a compute core stops both streams. -/
def execMtsv (h : Hdr) (g : BitVec 6) (n : BitVec 12) (s : State) : Out :=
  issue (.mtsv h g n) s fun s =>
    withNeeds (needs [.g g.toNat] []) s fun s =>
      let v := BitVec.ofNat 64 (s.me.reg (.g g.toNat))
      if svDevice n.toNat then
        match s.devWrite (writerOf s.cur.core) n.toNat v with
        | some t => retire h t
        | none => stall s
      else if n = 0xB ∧ bitAt v.toNat 0 ∧ ¬isHub s.cur.core then
        .next (s.doubleTrap s.cur.core (fld (s.me.svGet 4).toNat 0 8) 1)
      else retire h (s.setMe (s.me.svWrite n.toNat v))

/-! ### Return from a trap (16 R363, 19 R421) -/

/-- A stream resumed at slot `pc` (16 R362, R363): at the saved slot it goes on from what stands; one past it, the back-edge
test is made as if that instruction had completed, where `skip` allows it. -/
def Stream.resume (t : Stream) (pc : Nat) (skip : Bool) : Stream :=
  let u : Stream := { t with pc := pc, waitFrom := none, aside := none, guarded := if t.stage.ofGang then t.guarded else none,
                             stage := if t.stage.ofGang then t.stage else .start }
  match t.aside with
  | some (slot, g) =>
    if t.stage.ofGang then u
    else if pc = slot then { u with stage := g }
    else if skip ∧ pc = slot + 1 then
      let (ls, d) := backEdge slot t.floor t.loops
      { u with loops := ls, pc := d.getD pc }
    else u
  | none => u

/-- The A-stream's predicates restored from TPRED (16 R363). -/
def State.restorePreds (s : State) : State :=
  let w := (s.me.svGet 8).toNat
  (upFrom 1 15).foldl (fun s i => s.writeFixed (.pa i) 1 (b01 (bitAt w i)) 1) s

/-- The arrival of a core's X-stream at the wired barrier, whose wait count starts afresh (16 R362). -/
def State.renewArrival (s : State) (n : Nat) : State :=
  let g := s.gang (gangOf n)
  s.setGang (gangOf n)
    { g with arrivals := g.arrivals.map (fun e =>
        if e.1 = n % 8 then (e.1, e.2.map (fun (a : Arrival) => { a with since := (s.core n).cyc })) else e) }

/-- RFT (16 R363): predicates, level and PCs are restored, the watchdog goes on; with stall count n neither stream issues before
cycle t + 3 + n (05 R114). On a Welwick core it resumes at WTPC. -/
def execRft (h : Hdr) (s : State) : Out :=
  issue (.rft h) s fun s =>
    withNeeds (needs [] ((upFrom 1 15).map Reg.pa)) s fun s =>
      let n := s.cur.core
      let s := s.restorePreds
      let c := s.me
      let back (pc : Nat) : Stream :=
        let t := c.a.resume pc true
        { t with ready := s.now + 3 + h.stall.toNat, halted := t.halted || t.stepping, stepping := false }
      if isHub n then .next (s.setMe { c with level := .t, a := back (fld (c.svGet 0x21).toNat 4 53) })
      else
        let w := (c.svGet 3).toNat
        let x := { c.x.resume (fld w 0 12) false with run := bitAt w 12, ready := max c.x.ready (s.now + 3 + h.stall.toNat) }
        let c := { c with level := .t, a := back (fld (c.svGet 2).toNat 0 12), x := x }
        .next ((s.setMe c.holdWatch).renewArrival n)

/-! ### Waiting (16 R365, 19 R422) -/

/-- WAITI (16 R365): it ends with a mailbox entry, a pending pre-emption request, or on a Welwick core a pending interrupt. -/
def execWaiti (h : Hdr) (s : State) : Out :=
  issue (.waiti h) s fun s =>
    if s.me.mail ≠ [] ∨ s.me.task.any Task.preempt ∨ (isHub s.cur.core ∧ s.intpend ≠ 0) then retire h s else stall s

/-! ### Invalidation (16 R366, 18 R408, R409) -/

/-- An invalidation broadcast to every die and the hub, with the issuing die's vector; SDSTAT.PEND rises (18 R408, R409). -/
def State.broadcast (s : State) (kind space va : Nat) : State :=
  let id := s.nextId
  let m : Inval := { id := id, kind := kind, space := space, va := va, vec := s.vecOf (dieOf s.cur.core) }
  let ds := Config.hubDie :: s.dies
  { (s.fresh).2 with
    invals := s.invals ++ [{ id := id, msg := m, dies := ds, reqs := [], nmcs := [], dones := [] }],
    agenda := s.agenda ++ ds.map (fun d => Instr.invalidationMessage d m),
    sdstat := min (s.sdstat + 1) 0xFFFF }

/-- TLBINV (16 R366, 18 R408): a fence at device scope, the broadcast, and with WAIT the end of the invalidation. -/
def tlbinv (i : Instr) (h : Hdr) (kind : Nat) (gv gs : Option (BitVec 6)) (wait : Bool) (s : State) : Out :=
  issue i s fun s =>
    withNeeds (needs ((gv.toList ++ gs.toList).map (fun r => Reg.g r.toNat)) []) s fun s =>
      match s.st.stage with
      | .tlbSent id => if s.invals.any (fun v => v.id == id) then stallAt (.tlbSent id) s else retire h s
      | _ =>
        withFence 5 s fun s =>
          let val (r : Option (BitVec 6)) : Nat := r.elim 0 (fun r => s.me.reg (.g r.toNat))
          let t := s.broadcast kind (val gs % 2 ^ 16) (val gv)
          if wait then stallAt (.tlbSent s.nextId) t else retire h t

/-- TLBINV.page (16 R366). -/
def execTlbinvPage (h : Hdr) (gv gs : BitVec 6) (wait : Bool) (s : State) : Out :=
  tlbinv (.tlbinvPage h gv gs wait) h 0 (some gv) (some gs) wait s

/-- TLBINV.space (16 R366). -/
def execTlbinvSpace (h : Hdr) (gs : BitVec 6) (wait : Bool) (s : State) : Out :=
  tlbinv (.tlbinvSpace h gs wait) h 1 none (some gs) wait s

/-- TLBINV.all (16 R366). -/
def execTlbinvAll (h : Hdr) (wait : Bool) (s : State) : Out := tlbinv (.tlbinvAll h wait) h 2 none none wait s

end Sys2Proof.Machine

namespace Sys2Proof

open Machine

/-- Whether an access to an address of a space may have translated through an entry that the invalidation removes: the largest
page maps 2^30 bytes (18 R395). -/
def Inval.concerns (m : Inval) (space va : Nat) : Bool :=
  match m.kind with
  | 0 => space == m.space && va / 2 ^ 30 == m.va / 2 ^ 30
  | 1 => space == m.space
  | _ => true

end Sys2Proof

namespace Sys2Proof.Machine

/-- The dirty lines of a die's cluster caches written back (18 R409: every access is to be applied at its home). -/
def State.cleanDie (s : State) (die : Nat) : State :=
  (s.lines.filter (fun l => l.cluster / 32 == die && l.dirty != 0)).foldl State.evict s

/-- Requests of a die that an invalidation waits for: those it concerns, and the write-backs. -/
def State.concerned (s : State) (die : Nat) (m : Inval) : List Nat :=
  (s.reqs.filter (fun r => r.die == die && (m.concerns r.space r.va || (match r.kind with
    | .writeback _ => true
    | _ => false)))).map Req.id

/-- The space that a launch runs in, resident or not. -/
def State.spaceOf (s : State) (run : Option Nat) : Nat := ((run.bind s.run?).map Run.space).getD 0

/-- Near-memory commands of a die's cores that an invalidation waits for: their own launch says in which space they translated their
arrays and DONE, whether or not it still runs. -/
def State.concernedNmc (s : State) (die : Nat) (m : Inval) : List Nat :=
  (s.nmcs.filter (fun c => dieOf c.core == die && m.concerns (s.spaceOf c.run) m.va)).map NmcCmd.id

/-- Storyboards that an invalidation on the hub waits for: DONE was translated when they were submitted (02 R56). -/
def State.concernedDone (s : State) (die : Nat) (m : Inval) : List Nat :=
  if die = Config.hubDie then
    (s.stories.filter (fun y => y.dIdx == 0 && (!y.finished || !(s.ownReqs (.story y.id)).isEmpty) && m.concerns y.space y.done)).map Story.id
  else []

/-- INVALIDATION_MESSAGE (18 R408, R409): the die merges the vector, then removes the matching entries. -/
def execInvalidationMessage (die : Nat) (m : Inval) (s : State) : Out :=
  if !s.invals.any (fun v => v.id == m.id && v.dies.contains die) then .next s
  else
    let s := (s.mergeVec die m.vec).cleanDie die
    .next { s with
      tlb := s.tlb.filter (fun t => !(placeDie t.place == die && Inval.hitsTlb m t)),
      walks := s.walks.filter (fun w => !(w.die == die && Inval.hitsWalk m w)),
      invals := s.invals.map (fun v =>
        if v.id = m.id then { v with dies := without die v.dies, reqs := v.reqs ++ s.concerned die m,
                                     nmcs := v.nmcs ++ s.concernedNmc die m, dones := v.dones ++ s.concernedDone die m } else v) }

/-- A deferred record, a copy granule or a queued continuity instruction that an invalidation waits for (18 R409). -/
def State.concernedLater (s : State) (m : Inval) : Bool :=
  s.sent.any (fun r => r.speer == s.peerid && m.concerns ((s.run? r.run).elim m.space Run.space) r.va) ||
  s.cores.any (fun e => e.2.copies.any (fun c => c.2.any (fun r => r.gran.any (fun g => m.concerns r.space g.va)))) ||
  s.gangs.any (fun g => g.2.queue.any (fun o => !o.pages.isEmpty && m.concerns (s.spaceOf o.run) m.va))

/-- The completion record of a storyboard is still to be written, or on its way. -/
def State.donePending (s : State) (id : Nat) : Bool :=
  s.stories.any (fun y => y.id == id && !y.finished) || !(s.ownReqs (.story id)).isEmpty

/-- INVALIDATION_COMPLETE (18 R409): every die has removed its entries and what translated through them is settled. -/
def execInvalidationComplete (id : Nat) (s : State) : Out :=
  match s.invals.find? (fun v => v.id == id) with
  | none => .next s
  | some v =>
    if !v.dies.isEmpty || s.reqs.any (fun r => v.reqs.contains r.id) || s.nmcs.any (fun c => v.nmcs.contains c.id) ||
        v.dones.any s.donePending || s.concernedLater v.msg then .next s
    else .next { s with invals := s.invals.filter (fun v => v.id != id), sdstat := s.sdstat - 1 }

end Sys2Proof.Machine
end

