-- ==== Sys2Proof/Machine/Device.lean ====
section
/-! DEFINITION. The device's own events: register writes and reads from outside, error counts and traps, the debugger, islands,
reels, the host window, the management port, resets and bring-up, links (16 R364, R370 to R374; 17 R390, R391; 19 R415 to R429). -/

namespace Sys2Proof.Machine

/-! ### Register writes and reads that have rows of their own -/

/-- A register written by a writer; a write that must wait changes nothing yet (16 R359). -/
def writeEvent (w : Writer) (n : Nat) (v : Word) (s : State) : Out := .next ((s.devWrite w n v).getD s)

/-- CUTHOLD (08 R216, 19 R426). -/
def execCuthold (w : Writer) (v : Word) (s : State) : Out := writeEvent w 0x115 v s

/-- LPORT (17 R376). -/
def execLport (w : Writer) (v : Word) (s : State) : Out := writeEvent w 0x200 v s

/-- LABORT (17 R377). -/
def execLabort (w : Writer) (v : Word) (s : State) : Out := writeEvent w 0x204 v s

/-- XCL (17 R378). -/
def execXcl (w : Writer) (v : Word) (s : State) : Out := writeEvent w 0x208 v s

/-- CLDCTL with GO (17 R381). -/
def execCldctlGo (w : Writer) (v : Word) (s : State) : Out := writeEvent w 0x211 v s

/-- ERRSW (16 R372). -/
def execErrsw (w : Writer) (v : Word) (s : State) : Out := writeEvent w 0x106 v s

/-- QCCLR (13 R341). -/
def execQcclr (w : Writer) (v : Word) (s : State) : Out := writeEvent w 0x131 v s

/-- MBPOST (19 R422). -/
def execMbpost (w : Writer) (v : Word) (s : State) : Out := writeEvent w 0x2F8 v s

/-- DBGDATA (17 R390). -/
def execDbgdata (w : Writer) (v : Word) (s : State) : Out := writeEvent w 0x225 v s

/-- DBGIW (17 R390). -/
def execDbgiw (w : Writer) (v : Word) (s : State) : Out := writeEvent w 0x226 v s

/-- ISLFREQ (19 R420). -/
def execIslfreq (w : Writer) (v : Word) (s : State) : Out := writeEvent w 0x281 v s

/-- REELCTL (19 R426). -/
def execReelctlGo (w : Writer) (v : Word) (s : State) : Out := writeEvent w 0x2E1 v s

/-- A register without a row of its own (16 R359). -/
def execRegisterWrite (w : Writer) (n : Nat) (v : Word) (s : State) : Out := writeEvent w n v s

/-- A device register read by the host, as by an MFSV at level H (19 R423). -/
def readEvent (n : Nat) (s : State) : Out :=
  if svDevice n then
    let (v, s) := s.regRead n
    .next { s with hostOut := s.hostOut ++ [.value n v] }
  else .next s

/-- ERRCORR (16 R372). -/
def execErrcorr (s : State) : Out := readEvent 0x105 s

/-- ERRLOST (16 R372). -/
def execErrlost (s : State) : Out := readEvent 0x107 s

/-- PORTSTAT (19 R415). -/
def execPortstat (s : State) : Out := readEvent 0x272 s

/-- SVABORT written by the handler of a core (16 R364). -/
def execSvabort (core : Nat) (s : State) : Out :=
  let c := s.core core
  if isHub core ∨ c.level ≠ .s then .next s else .next (s.doubleTrap core (fld (c.svGet 4).toNat 0 8) 1)

/-! ### The debugger (17 R390, R391) -/

/-- DEBUG_HALT (17 R391). -/
def execDebugHalt (a x : Bool) (s : State) : Out := .next (s.debug a x 0)

/-- DEBUG_RESUME (17 R391). -/
def execDebugResume (a x : Bool) (s : State) : Out := .next (s.debug a x 1)

/-- DEBUG_STEP (17 R391). -/
def execDebugStep (a x : Bool) (s : State) : Out := .next (s.debug a x 2)

/-! ### Errors (16 R370, R374) -/

/-- The oldest ERROR_CLASS trap that stands at the next boundary of a core's A-stream (16 R374): its class and the SEQ of its
record. -/
def State.errorDue (s : State) (core : Nat) : Option (Nat × Nat) :=
  let c := s.core core
  if c.level = .t ∧ c.mayIssue false then c.task.bind (fun t => t.errTraps.head?) else none

/-- ERROR_CLASS (16 R374): taken before the A-stream's next instruction issues. -/
def execErrorClass (core : Nat) (s : State) : Out :=
  match s.errorDue core with
  | some (cls, seq) =>
    let s := s.mapTask core (fun t => { t with errTraps := t.errTraps.tail })
    let c := s.core core
    .next ((s.setCore core (c.at' (c.issueAt false))).trapOn core false 0x25 cls 0 seq)
  | none => .next s

/-- A 16-bit count of ERRCORR one higher, saturating. -/
def State.corrected (s : State) (k : Nat) : State :=
  { s with errcorr := tput 0 k (min (tget 0 k s.errcorr + 1) 0xFFFF) s.errcorr }

/-- ERROR_CORRECTED (16 R370): kind 0 an HBM word, 1 an SRAM word, 2 a link packet. Of an SRAM word, an uncorrectable error in a
clean line of a cluster cache also counts as corrected: the line is invalidated, to be fetched again. -/
def execErrorCorrected (kind : Nat × Option (Nat × Nat)) (s : State) : Out :=
  if 3 ≤ kind.1 then .next s
  else
    match kind.2.filter (fun _ => kind.1 == 1) with
    | none => .next (s.corrected kind.1)
    | some (cl, pa) =>
      if (s.lineAt cl pa).any (fun l => l.dirty == 0) then .next ((s.dropLine cl pa).corrected 1) else .next s

/-- An HBM word suffers an uncorrectable error (16 R370), where there is such a word; it is met as 09 R225 says. -/
def damageTurn (word : Nat) (s : State) : Out :=
  .next (if s.assigned (8 * word) then { s with bad := tput false word true s.bad } else s)

/-- What an uncorrectable error leaves in a structure (16 R370): a free value, where the index names a place of it. -/
def State.damage (s : State) (n kind index : Nat) : State :=
  let (bs, t) := drawBytes 12 s
  let c := t.core n
  let g := t.gang (gangOf n)
  match kind with
  | 0 => t.setCore n { c with code := tput 0 (index % 4096) (BitVec.ofNat 96 (leNat bs)) c.code }
  | 2 => t.setCore n { c with t := tputs 0 (index % 32768 / 8 * 8) (bs.take 8) c.t }
  | 3 => t.setGang (gangOf n) { g with acc := tput 0 (index % 32768) (BitVec.ofNat 32 (leNat bs)) g.acc }
  | 4 => t.setCore n { c with lm := tputs 0 (index % 65536 / 8 * 8) (bs.take 8) c.lm }
  | _ => s

/-- SRAM_UNCORRECTABLE (16 R370, R428): a SRAM_FATAL record, and the launch aborts; the unit stays in service. -/
def execSramUncorrectable (core kind index : Nat) (s : State) : Out :=
  if !s.ownCore core || isHub core || decide (6 < kind) then .next s
  else .next (((s.errRecord 0x12 false kind (s.ctxOf core) 0 index 0).damage core kind index).abortTaskRun core)

/-! ### Links (16 R370, 19 R415, R418, R429) -/

/-- LINK_RETRY (16 R370): a packet is sent again and counted, or dropped with a record; a port number from 40 on is a die-to-die
or hub link. -/
def execLinkRetry (port : Nat) (drop : Option LinkDrop) (s : State) : Out :=
  match drop with
  | some d => .next (s.errRecord 0x02 true (if port < 40 then port else 0xFFFF) d.ctx d.va (d.peer % 2 ^ 12) d.cls)
  | none =>
    let p := tget Port.down port s.ports
    let s := s.corrected 2
    .next (if port < 40 then
        { s with ports := tput Port.down port { p with retry := min (p.retry + 1) 0xFFFF } s.ports }
      else s)

/-- PORT_UP_CHANGE (19 R415, R418): a port with fewer than four lanes trained is not up. -/
def execPortUpChange (port lanes : Nat) (up : Bool) (s : State) : Out :=
  let p := tget Port.down port s.ports
  .next (if port < 40 then
      { s with ports := tput Port.down port { p with up := up && lanes % 16 == 15, lanes := lanes % 16 } s.ports }
    else s)

/-- The launch that a control message belongs to (19 R429): its storyboard and index. -/
def State.ctlLaunch (s : State) : Instr → Option (Story × Nat)
  | .pass m | .go m | .fault m => (s.storyOf m.sb m.nth).map (fun y => (y, m.idx))
  | .abortReport m | .abort m => (s.storyOf m.sb m.nth).map (fun y => (y, m.idx))
  | .barrierArrivalMessage m => (s.storyOf m.sb m.nth).map (fun y => (y, m.idx))
  | .cutAbort _ _ (_, m) => (s.storyOf m.sb m.nth).map (fun y => (y, m.idx))
  | .arrive grp _ _ _ | .apply grp _ | .report grp _ _ _ | .done grp _ _ _ | .suspend grp _ _
  | .resume grp _ _ => (s.groupRun grp).bind (fun r => (s.story? r.sb).map (fun y => (y, r.idx)))
  | _ => none

/-- A launch aborted because one of its control messages was lost (02 R430, 19 R429). -/
def State.abortLost (s : State) (y : Story) (i : Nat) : State :=
  if (y.launches.getD i .skipped).final then s else (s.tellAbort y i).abortHere y i

/-- CONTROL_MESSAGE_RESEND (19 R429): on the next usable port in ascending number; with none left the message is lost. To another
partition of the module, which no port leads to, it goes over the die mesh again. -/
def execControlMessageResend (id : Nat) (s : State) : Out :=
  match s.ctl.find? (fun m => m.id == id) with
  | none => .next s
  | some m =>
    if s.nearPeer m.peer then .next (s.sendCopy m none)
    else
      match (s.usablePorts m.peer).find? (fun p => !m.tried.contains p) with
      | some p =>
        let u : State := { s with ctl := s.ctl.map (fun q => if q.id = id then { q with tried := m.tried ++ [p] } else q) }
        .next (u.sendCopy m (some p))
      | none =>
        let t := { s with ctl := s.ctl.filter (fun q => q.id != id) }
        let l := s.ctlLaunch m.msg
        let cx : Ctx := { s.noCtx with
          launch := (l.bind (fun p => p.1.slates[p.2]?)).getD 0 }
        let t := t.errRecord 0x02 true (m.tried.getLast?.getD 0xFFFF) cx 0 m.peer 1
        .next (match l with
          | some (y, i) => t.abortLost y i
          | none => t)

/-! ### Islands (19 R420) -/

/-- ISLAND_CAP_CHANGE (19 R420). -/
def execIslandCapChange (cl mhz : Nat) (s : State) : Out :=
  .next (if s.ownCluster cl then { s with islcap := tput 1800 cl (mhz % 2 ^ 11) s.islcap } else s)

/-! ### The end of a reel (19 R426) -/

/-- Task records of a reel: work identifier, key, step and take number, in ascending work identifier. -/
def State.reelTasks (s : State) : List (Nat × Nat × Nat × Nat) :=
  let here := s.cores.filterMap (fun e => e.2.task.map (fun t =>
    (t.wid.toNat, 2 ^ 32 * (e.2.reg (.key 0x10) % 2 ^ 32) + e.2.reg (.key 0x11) % 2 ^ 32, e.2.reg (.key 0x12) % 2 ^ 32, t.take)))
  let saved := s.runs.flatMap (fun r => r.saved.elim [] (fun p => p.2.map (fun e =>
    let a := s.contextSlot p.1 e.1
    (e.2.wid.toNat, s.slotWord a 0x30, s.slotWord a 0x38, e.2.take))))
  (here ++ saved).insertionSort (fun a b => a.1 ≤ b.1)

/-- The held take launch, whose slate the header takes its values from. -/
def State.heldRun (s : State) : Option Run :=
  s.runs.find? (fun r => r.takeLv.isSome && (!(s.coresOf r.id).isEmpty || r.saved.isSome))

/-- The 16 bytes of the header from SEED to NTASK, which the slate gives but for the count; with no task held no slate gives them. -/
def State.reelSlate (s : State) (ntask : Nat) : List Byte × State :=
  match s.heldRun with
  | some r =>
    (leBytes r.seed 4 ++ leBytes r.cgrp 2 ++ leBytes 0 2 ++ leBytes r.d 2 ++ leBytes r.dIdx 2 ++ leBytes ntask 4, s)
  | none =>
    let (bs, s) := drawBytes 10 s
    (bs.take 6 ++ leBytes 0 2 ++ bs.drop 6 ++ leBytes ntask 4, s)

/-- One page of a region: its nonzero bytes from offset 0, and the words written as zero; none while a walk must wait. A page that
no longer translates has free bytes. -/
def reelPage (q : Asker) (va : Nat) (s : State) : Option (Table Byte × Nat × State) :=
  let lost (s : State) : Option (Table Byte × Nat × State) :=
    let (bs, s) := drawBytes 4096 s
    some (tputs 0 0 bs [], 0, s)
  match reachEngine q va true false (s.translate q va) with
  | (.wait, _) => none
  | (.trap .., s) => lost s
  | (.page t, s) =>
    if paPeer (t.addr va) ≠ s.peerid then lost s
    else
      let a := paLocal (t.addr va)
      let s := s.touch a
      let bad := (upFrom (a / 8) 512).filter (fun w => tget false w s.bad)
      some ((getRange a 4096 s.mem).filter (fun e => !bad.contains ((a + e.1) / 8)), bad.length,
        bad.foldl (fun s w => s.uncorr 5 s.noCtx (va + 8 * w - a) (8 * w) 0) s)

/-- Pages of a region one after another at offset `off` of the reel. -/
def reelPages (q : Asker) : List Nat → Nat → Table Byte → Nat → State → Option (Table Byte × Nat × State)
  | [], _, acc, k, s => some (acc, k, s)
  | va :: vas, off, acc, k, s =>
    match reelPage q va s with
    | none => none
    | some (t, n, s) => reelPages q vas (off + 4096) (acc ++ t.map (fun e => (off + e.1, e.2))) (k + n) s

/-- REEL_END (19 R426): header, task records and regions are written to DEST, STATUS is set and the interrupt raised. -/
def execReelEnd (s : State) : Out :=
  match s.reel with
  | none => .next s
  | some r =>
    let ts := s.reelTasks
    let start := (64 + 24 * ts.length + 4095) / 4096 * 4096
    let pages := r.regions.flatMap (fun p => (upFrom 0 (p.2 / 4096)).map (fun i => p.1 + 4096 * i))
    match reelPages (s.unitAsker r.space) pages start [] 0 s with
    | none => .next s
    | some (data, drops, s) =>
      let (slate, s) := s.reelSlate ts.length
      let hdr := leBytes 1 2 ++ leBytes r.regions.length 2 ++ leBytes (fld s.cuthold.toNat 0 32) 4 ++ slate ++ leBytes drops 8
      let recs := ts.flatMap (fun t => leBytes t.1 8 ++ leBytes t.2.1 8 ++ leBytes t.2.2.1 4 ++ leBytes t.2.2.2 4)
      let body := tputs 0 0 hdr (tputs 0 64 recs []) ++ data
      .next (({ s with reel := none, reelst := if drops = 0 then 1 else 2,
                       hostOut := s.hostOut ++ [HostOut.reel r.dest (start + 4096 * pages.length) body] }).interrupt 2)

/-! ### The host window (19 R423) -/

/-- HOST_WINDOW_ACCESS (19 R423): performed at its home as a device-scope access of the hub, whose earlier accesses are there
(07 R172, R177). -/
def execHostWindowAccess (off len : Nat) (data : Option (List Byte)) (s : State) : Out :=
  let a := fld s.hwin.toNat 32 13 * 2 ^ 32 + off
  if 2 ^ 32 < off + (data.elim len List.length) || !s.covers (homeOf a) (s.vecOf Config.hubDie) ||
      !s.engineFree Config.hubDie a then .next s
  else
    match data with
    | some bs => .next ((s.touch a).engineWrite Config.hubDie a bs)
    | none =>
      let (bs, s) := (s.touch a).rawBytes 0 0 0 a len
      .next { s with hostOut := s.hostOut ++ [.bytes off bs] }

/-! ### Resets and bring-up (19 R425, R427) -/

/-- The first Welwick core released at its image entry, without translation (19 R427). -/
def State.release (s : State) : State :=
  let c := (Core.idle.svPut 0x20 (BitVec.ofNat 64 (Config.imageEntry / 16 * 16)))
  s.setCore Config.welwickBase { c with level := .h, a := { c.a with pc := Config.imageEntry / 16, run := true } }

/-- The partition's HBM stacks trained (19 R427): whether one trains is a free value; one that fails is unassigned, its die's cores
are excluded. -/
def State.trainStacks (s : State) : State :=
  s.dies.foldl (fun s k =>
    let (i, s) := s.draw
    let s := { s with failed := tput false k (!Config.trains i) s.failed }
    if Config.trains i then s else { s with excl := tputs false (1024 * k) (List.replicate 1024 true) s.excl }) s

/-- A bring-up stage entered (19 R427). -/
def State.enterStage (s : State) (k : Nat) : State :=
  let s := { s with stage := k, isReady := k == 7 }
  if k = 3 then s.release else if k = 4 then s.trainStacks else s

/-- The state after a reset: what has left the partition, what is fixed and the model's own fields stay; so do the control messages
that are not acknowledged, and the numbers under which they go. -/
def State.wiped (s : State) : State :=
  { State.reset with cur := s.cur, schedule := s.schedule, outbox := s.outbox, hostOut := s.hostOut, nextId := s.nextId,
                     drawn := s.drawn, epoch := s.epoch, flash := s.flash, region := s.region, nextRegion := s.nextRegion,
                     ctl := s.ctl, ctlSent := s.ctlSent, heard := s.heard, ahead := s.ahead, acks := s.acks }

/-- A module reset (19 R425, R427): it boots from the region marked active, or from the other where the digest fails. -/
def State.moduleReset (s : State) : State :=
  let (k, s) := s.draw
  let r := if Config.digestOk k then s.nextRegion else 1 - s.nextRegion
  { s.wiped with region := r, stage := 1 }

/-- MODULE_RESET (19 R427). -/
def execModuleReset (s : State) : Out := .next s.moduleReset

/-- Deferred records on their way into the partition, lost to the devices that sent them (19 R425, 08 R214). -/
def State.lostRecords (s : State) : List DRec :=
  s.agenda.filterMap (fun m => match m with
    | .deferredRecord r => if r.speer = s.peerid then none else some r
    | _ => none)

/-- A partition reset (19 R425): every launch is aborted, here and by messages on the other devices of its domain (02 R430), its storyboard's
completion record is written; memory and full/empty bits stay, bring-up goes on from stage 3. -/
def State.partitionReset (s : State) : State :=
  let s := (s.abortStories (fun _ => true)).landStories
  let s := s.lostRecords.foldl (fun s r => s.emit r.speer (.recordLost r 0)) s
  ({ s.wiped with mem := s.mem, full := s.full, bad := s.bad, failed := s.failed }).enterStage 3

/-! ### The management port (19 R424) -/

/-- Whether a request names the module or this partition. -/
def forUs (part : Nat) : Bool := part == 0x3F || part == Config.partIndex

/-- A management request for this partition or the module (19 R424): one with a payload beyond 1,024 bytes is none (notes/assumptions/64),
and one whose tag does not check, which is a free value, is dropped silently. -/
def managed (q : MgmtReq) (s : State) (k : State → Out) : Out :=
  if 1024 < q.len || !forUs q.part then .next s
  else
    let (i, s) := s.draw
    if Config.digestOk i then k s else .next s

/-- A reply to a management request, with its sequence number (19 R424). -/
def reply (q : MgmtReq) (bs : List Byte) (s : State) : Out := .next { s with hostOut := s.hostOut ++ [.reply q.seq.toNat bs] }

/-- Values that the spec does not state, as bytes (19 R424). -/
def drawReadings : Nat → State → List Byte × State
  | 0, s => ([], s)
  | n + 1, s =>
    let (k, s) := s.draw
    let (bs, s) := drawReadings n s
    (leBytes (Config.reading k).toNat 8 ++ bs, s)

/-- STATUS (19 R424): DEVSTAT, power and temperature of each die, ISLFREQ.CUR of each island. -/
def execStatus (q : MgmtReq) (s : State) : Out :=
  managed q s fun s =>
    let (rs, s) := drawReadings (2 * s.dies.length) s
    let cls := s.dies.flatMap (fun d => upFrom (32 * d) 32)
    reply q (leBytes s.devstat 8 ++ rs ++ cls.flatMap (fun c => leBytes (fld (s.islfreqOf c) 32 11) 2)) s

/-- ERRREAD (19 R424): the records that stand in the ring from an index on, `n` at most. -/
def execErrread (q : MgmtReq) (idx n : Nat) (s : State) : Out :=
  managed q s fun s =>
    let cap := 2 ^ s.errsize
    let left := (s.errhead + 2 ^ 32 - idx % 2 ^ 32) % 2 ^ 32
    let k := if left ≤ cap then min n left else 0
    reply q ((upFrom 0 k).flatMap (fun i => tgets 0 (s.errbase.toNat + 64 * ((idx + i) % cap)) 64 s.mem)) s

/-- FLASHWR (19 R424, R427): the payload's bytes written to the inactive image region, 16 MiB. -/
def execFlashwr (q : MgmtReq × Nat) (data : List Byte) (s : State) : Out :=
  managed q.1 s fun s =>
    let off := q.2
    let base := 0x1000000 * (1 - s.region)
    let bs := (data.take q.1.len).take (0x1000000 - off)
    reply q.1 [] { s with flash := if off < 0x1000000 then tputs 0 (base + off) bs s.flash else s.flash }

/-- FLASHSEL (19 R424): the region is marked where its digest checks. -/
def execFlashsel (q : MgmtReq × Nat) (s : State) : Out :=
  managed q.1 s fun s =>
    let (k, s) := s.draw
    reply q.1 [] (if q.2 < 2 ∧ Config.digestOk k then { s with nextRegion := q.2 } else s)

/-- RESET (19 R424, R425). -/
def execReset (q : MgmtReq) (s : State) : Out :=
  managed q s fun s => reply q [] (if q.part = 0x3F then s.moduleReset else s.partitionReset)

/-- MSG (19 R424): 64 bytes for the Welwick cores, and INTPEND[3]. -/
def execMsg (q : MgmtReq × List Byte) (s : State) : Out :=
  managed q.1 s fun s =>
    reply q.1 [] ({ s with ngmsg := (q.2 ++ List.replicate 64 0).take 64 }.interrupt 3)

end Sys2Proof.Machine
end

