-- ==== Sys2Proof/Machine/Scalar.lean ====
section
/-! DEFINITION. The scalar instructions of OP 0x00 to 0x11 and 0xBF: arithmetic, compares, predicate logic, addresses and
special registers (06 R139 to R146). -/

namespace Sys2Proof.Machine

/-! ### Values -/

/-- Bits [127:64] of the signed product (06 R140). -/
def mulHighS (a b : Word) : Word := BitVec.ofInt 64 (a.toInt * b.toInt / 2 ^ 64)

/-- Bits [127:64] of the unsigned product (06 R140). -/
def mulHighZ (a b : Word) : Word := BitVec.ofNat 64 (a.toNat * b.toNat / 2 ^ 64)

/-- The count of a shift or rotation: b[5:0] (06 R140). -/
def shiftCount (b : Word) : Nat := b.toNat % 64

/-- An integer saturated as s64 (06 R142). -/
def satS64 (i : Int) : Word :=
  if i < -2 ^ 63 then BitVec.ofInt 64 (-2 ^ 63) else if 2 ^ 63 - 1 < i then BitVec.ofInt 64 (2 ^ 63 - 1) else BitVec.ofInt 64 i

/-- Signed quotient, truncated toward zero (06 R142). -/
def divS (a b : Word) : Word := if b = 0 then BitVec.ofInt 64 (-1) else BitVec.ofInt 64 (a.toInt.tdiv b.toInt)

/-- Signed remainder, with the sign of the dividend (06 R142). -/
def remS (a b : Word) : Word := if b = 0 then a else BitVec.ofInt 64 (a.toInt.tmod b.toInt)

/-- Unsigned quotient (06 R142). -/
def divZ (a b : Word) : Word := if b = 0 then BitVec.ofInt 64 (-1) else BitVec.ofNat 64 (a.toNat / b.toNat)

/-- Unsigned remainder (06 R142). -/
def remZ (a b : Word) : Word := if b = 0 then a else BitVec.ofNat 64 (a.toNat % b.toNat)

/-- A 16-bit field of the old value replaced (06 R141). -/
def movkVal (old v h : Word) : Word := BitVec.ofNat 64 (setFld old.toNat (16 * (h.toNat % 4)) 16 v.toNat)

/-- The field operand of BFX and BFI: LO and WID (06 R141). -/
def fieldLo (f : Word) : Nat := f.toNat % 64
def fieldWid (f : Word) : Nat := f.toNat / 64 % 128

/-- BFX: a field, zero-extended (06 R141). -/
def bfxVal (a f : Word) : Word := BitVec.ofNat 64 (fld a.toNat (fieldLo f) (fieldWid f))

/-- BFI: a field of the old value replaced (06 R141). -/
def bfiVal (old a f : Word) : Word := BitVec.ofNat 64 (setFld old.toNat (fieldLo f) (fieldWid f) a.toNat)

/-- The low n bits extended to 64 (06 R141). -/
def sextVal (a n : Word) : Word := ext64 true n.toNat a.toNat
def zextVal (a n : Word) : Word := ext64 false n.toNat a.toNat

/-- NOP (05 R133). -/
def execNop (h : Hdr) (s : State) : Out := issue (.nop h) s (retire h)

/-! ### OP 0x00 and 0x03 -/

/-- ADD (06 R140): a + b. -/
def execAdd (h : Hdr) (d a b : Desc) (s : State) : Out := scalar2 (.add h d a b) d a b 1 false (fun a b => a + b) s

/-- SUB (06 R140): a - b. -/
def execSub (h : Hdr) (d a b : Desc) (s : State) : Out := scalar2 (.sub h d a b) d a b 1 false (fun a b => a - b) s

/-- MUL (06 R140): the low 64 bits of a * b. -/
def execMul (h : Hdr) (d a b : Desc) (s : State) : Out := scalar2 (.mul h d a b) d a b 3 false (fun a b => a * b) s

/-- MULHS (06 R140): the high half of the signed product. -/
def execMulhs (h : Hdr) (d a b : Desc) (s : State) : Out := scalar2 (.mulhs h d a b) d a b 3 false mulHighS s

/-- MULHZ (06 R140): the high half of the unsigned product. -/
def execMulhz (h : Hdr) (d a b : Desc) (s : State) : Out := scalar2 (.mulhz h d a b) d a b 3 false mulHighZ s

/-- AND (06 R140): bitwise. -/
def execAnd (h : Hdr) (d a b : Desc) (s : State) : Out := scalar2 (.and h d a b) d a b 1 false (fun a b => a &&& b) s

/-- OR (06 R140): bitwise. -/
def execOr (h : Hdr) (d a b : Desc) (s : State) : Out := scalar2 (.or h d a b) d a b 1 false (fun a b => a ||| b) s

/-- XOR (06 R140): bitwise. -/
def execXor (h : Hdr) (d a b : Desc) (s : State) : Out := scalar2 (.xor h d a b) d a b 1 false (fun a b => a ^^^ b) s

/-- ANDN (06 R140): a AND (NOT b). -/
def execAndn (h : Hdr) (d a b : Desc) (s : State) : Out := scalar2 (.andn h d a b) d a b 1 false (fun a b => a &&& ~~~b) s

/-- SHL (06 R140): a shifted left by b[5:0]. -/
def execShl (h : Hdr) (d a b : Desc) (s : State) : Out := scalar2 (.shl h d a b) d a b 1 false (fun a b => a <<< shiftCount b) s

/-- SHR (06 R140): a shifted logically right by b[5:0]. -/
def execShr (h : Hdr) (d a b : Desc) (s : State) : Out := scalar2 (.shr h d a b) d a b 1 false (fun a b => a >>> shiftCount b) s

/-- SAR (06 R140): a shifted arithmetically right by b[5:0]. -/
def execSar (h : Hdr) (d a b : Desc) (s : State) : Out := scalar2 (.sar h d a b) d a b 1 false (fun a b => a.sshiftRight (shiftCount b)) s

/-- ROT (06 R140): a rotated right by b[5:0]. -/
def execRot (h : Hdr) (d a b : Desc) (s : State) : Out := scalar2 (.rot h d a b) d a b 1 false (fun a b => a.rotateRight (shiftCount b)) s

/-- ADDSAT (06 R142): a + b saturated as s64. -/
def execAddsat (h : Hdr) (d a b : Desc) (s : State) : Out := scalar2 (.addsat h d a b) d a b 1 false (fun a b => satS64 (a.toInt + b.toInt)) s

/-- SUBSAT (06 R142): a - b saturated as s64. -/
def execSubsat (h : Hdr) (d a b : Desc) (s : State) : Out := scalar2 (.subsat h d a b) d a b 1 false (fun a b => satS64 (a.toInt - b.toInt)) s

/-- DIVS (06 R142): the signed quotient, of variable latency. -/
def execDivs (h : Hdr) (d a b : Desc) (s : State) : Out := scalar2 (.divs h d a b) d a b 1 true divS s

/-- DIVZ (06 R142): the unsigned quotient, of variable latency. -/
def execDivz (h : Hdr) (d a b : Desc) (s : State) : Out := scalar2 (.divz h d a b) d a b 1 true divZ s

/-- REMS (06 R142): the signed remainder, of variable latency. -/
def execRems (h : Hdr) (d a b : Desc) (s : State) : Out := scalar2 (.rems h d a b) d a b 1 true remS s

/-- REMZ (06 R142): the unsigned remainder, of variable latency. -/
def execRemz (h : Hdr) (d a b : Desc) (s : State) : Out := scalar2 (.remz h d a b) d a b 1 true remZ s

/-! ### OP 0x01 -/

/-- MOV (06 R141): a. -/
def execMov (h : Hdr) (d a : Desc) (s : State) : Out := scalar1 (.mov h d a) d a 1 id s

/-- MOVK (06 R141): one 16-bit field of the old destination replaced. -/
def execMovk (h : Hdr) (d a b : Desc) (s : State) : Out := scalarUpd (.movk h d a b) d a b movkVal s

/-- SEXT (06 R141): a[n - 1 : 0] sign-extended. -/
def execSext (h : Hdr) (d a b : Desc) (s : State) : Out := scalar2 (.sext h d a b) d a b 1 false sextVal s

/-- ZEXT (06 R141): a[n - 1 : 0] zero-extended. -/
def execZext (h : Hdr) (d a b : Desc) (s : State) : Out := scalar2 (.zext h d a b) d a b 1 false zextVal s

/-- CLZ (06 R141): leading zero bits; 64 for 0. -/
def execClz (h : Hdr) (d a : Desc) (s : State) : Out :=
  scalar1 (.clz h d a) d a 1 (fun a => BitVec.ofNat 64 (clzNat a.toNat 64)) s

/-- CTZ (06 R141): trailing zero bits; 64 for 0. -/
def execCtz (h : Hdr) (d a : Desc) (s : State) : Out :=
  scalar1 (.ctz h d a) d a 1 (fun a => BitVec.ofNat 64 (ctzNat a.toNat 0 64)) s

/-- POPC (06 R141): one bits. -/
def execPopc (h : Hdr) (d a : Desc) (s : State) : Out :=
  scalar1 (.popc h d a) d a 1 (fun a => BitVec.ofNat 64 (popNat a.toNat 64)) s

/-- BFX (06 R141): a bit field, zero-extended. -/
def execBfx (h : Hdr) (d a b : Desc) (s : State) : Out := scalar2 (.bfx h d a b) d a b 1 false bfxVal s

/-- BFI (06 R141): a bit field of the old destination replaced. -/
def execBfi (h : Hdr) (d a b : Desc) (s : State) : Out := scalarUpd (.bfi h d a b) d a b bfiVal s

/-- MINS (06 R141): the smaller, as s64. -/
def execMins (h : Hdr) (d a b : Desc) (s : State) : Out := scalar2 (.mins h d a b) d a b 1 false (fun a b => if a.toInt ≤ b.toInt then a else b) s

/-- MAXS (06 R141): the larger, as s64. -/
def execMaxs (h : Hdr) (d a b : Desc) (s : State) : Out := scalar2 (.maxs h d a b) d a b 1 false (fun a b => if a.toInt ≤ b.toInt then b else a) s

/-- MINZ (06 R141): the smaller, as z64. -/
def execMinz (h : Hdr) (d a b : Desc) (s : State) : Out := scalar2 (.minz h d a b) d a b 1 false (fun a b => if a.toNat ≤ b.toNat then a else b) s

/-- MAXZ (06 R141): the larger, as z64. -/
def execMaxz (h : Hdr) (d a b : Desc) (s : State) : Out := scalar2 (.maxz h d a b) d a b 1 false (fun a b => if a.toNat ≤ b.toNat then b else a) s

/-! ### OP 0x02 -/

/-- CMPEQ (06 R143): 1 where a = b, else 0. -/
def execCmpeq (h : Hdr) (d a b : Desc) (s : State) : Out := scalar2 (.cmpeq h d a b) d a b 1 false (fun a b => bw (decide (a = b))) s

/-- CMPNE (06 R143): 1 where a differs from b, else 0. -/
def execCmpne (h : Hdr) (d a b : Desc) (s : State) : Out := scalar2 (.cmpne h d a b) d a b 1 false (fun a b => bw (decide (a ≠ b))) s

/-- CMPLTS (06 R143): 1 where a < b as s64, else 0. -/
def execCmplts (h : Hdr) (d a b : Desc) (s : State) : Out := scalar2 (.cmplts h d a b) d a b 1 false (fun a b => bw (decide (a.toInt < b.toInt))) s

/-- CMPLES (06 R143): 1 where a ≤ b as s64, else 0. -/
def execCmples (h : Hdr) (d a b : Desc) (s : State) : Out := scalar2 (.cmples h d a b) d a b 1 false (fun a b => bw (decide (a.toInt ≤ b.toInt))) s

/-- CMPLTZ (06 R143): 1 where a < b as z64, else 0. -/
def execCmpltz (h : Hdr) (d a b : Desc) (s : State) : Out := scalar2 (.cmpltz h d a b) d a b 1 false (fun a b => bw (decide (a.toNat < b.toNat))) s

/-- CMPLEZ (06 R143): 1 where a ≤ b as z64, else 0. -/
def execCmplez (h : Hdr) (d a b : Desc) (s : State) : Out := scalar2 (.cmplez h d a b) d a b 1 false (fun a b => bw (decide (a.toNat ≤ b.toNat))) s

/-- The bits of a predicate operand (05 R105, 06 R144): one bit in the A-stream, 128 in the X-stream. -/
def State.predVal (s : State) : Desc → Nat
  | .p i => s.me.reg (if s.cur.x then .px i.toNat else .pa i.toNat)
  | _ => 0

/-- A predicate result (06 R144): all its bits to a p register, bit 0 to a branch-outcome port. -/
def State.givePred (s : State) (d : Desc) (v : Nat) (var : Bool) : State :=
  match d with
  | .p i => s.writeReg (if s.cur.x then .px i.toNat else .pa i.toNat) v 1 var
  | .port c => s.setMe (s.me.push c.toNat (BitVec.ofNat 64 (v % 2)))
  | _ => s

/-- An instruction of predicate logic (06 R144): it combines the bits of its sources. -/
def predLogic (i : Instr) (d a b : Desc) (f : Nat → Nat → Nat) (s : State) : Out :=
  issue i s fun s =>
    let n := (dstNeeds s.cur.x d).and (needs ((regOf s.cur.x a).toList ++ (regOf s.cur.x b).toList) [])
    withNeeds n s fun s =>
      retire i.hdr (s.givePred d (f (s.predVal a) (s.predVal b)) (s.varied n))

/-- PAND (06 R144). -/
def execPand (h : Hdr) (d a b : Desc) (s : State) : Out := predLogic (.pand h d a b) d a b Nat.land s

/-- POR (06 R144). -/
def execPor (h : Hdr) (d a b : Desc) (s : State) : Out := predLogic (.por h d a b) d a b Nat.lor s

/-- PXOR (06 R144). -/
def execPxor (h : Hdr) (d a b : Desc) (s : State) : Out := predLogic (.pxor h d a b) d a b Nat.xor s

/-- PNOT (06 R144): every bit complemented. -/
def execPnot (h : Hdr) (d a : Desc) (s : State) : Out :=
  predLogic (.pnot h d a) d a a (fun v _ => Nat.xor (if s.cur.x then allOnes else 1) v) s

/-! ### OP 0x10, 0x11 and 0xBF -/

/-- The address that LEA and LEAX compute (06 R145): base, shifted index, signed 32-bit offset. -/
def leaVal (ga idx : Word) (sh : BitVec 3) (off : BitVec 32) : Word := ga + (idx <<< sh.toNat) + off.signExtend 64

/-- LEA and LEAX: `f` forms the index term (06 R145). -/
def leaOp (i : Instr) (h : Hdr) (d a b : BitVec 6) (sh : BitVec 3) (nob : Bool) (off : BitVec 32) (f : Word → Word)
    (s : State) : Out :=
  issue i s fun s =>
    let n := needs ([Reg.g a.toNat] ++ (if nob then [] else [Reg.g b.toNat])) [Reg.g d.toNat]
    withNeeds n s fun s =>
      let ga := BitVec.ofNat 64 (s.me.reg (.g a.toNat))
      let idx := if nob then 0 else f (BitVec.ofNat 64 (s.me.reg (.g b.toNat)))
      retire h (s.writeReg (.g d.toNat) (leaVal ga idx sh off).toNat 1 (s.varied n))

/-- LEA (06 R145). -/
def execLea (h : Hdr) (d a b : BitVec 6) (sh : BitVec 3) (nob : Bool) (off : BitVec 32) (s : State) : Out :=
  leaOp (.lea h d a b sh nob off) h d a b sh nob off id s

/-- LEAX (06 R145): the index is its low 32 bits, sign-extended. -/
def execLeax (h : Hdr) (d a b : BitVec 6) (sh : BitVec 3) (nob : Bool) (off : BitVec 32) (s : State) : Out :=
  leaOp (.leax h d a b sh nob off) h d a b sh nob off (fun w => ext64 true 32 w.toNat) s

/-- The value of a special register of a stream (05 R110). -/
def Core.special (c : Core) (x : Bool) (n dcyc : Nat) : Word :=
  let st := c.stream x
  let cyc0 := (c.task.map Task.cyc0).getD 0
  match n with
  | 0x00 => BitVec.ofNat 64 (c.cyc - cyc0)
  | 0x01 => BitVec.ofNat 64 dcyc
  | 0x02 => BitVec.ofNat 64 ((c.task.map Task.errc).getD 0 % 2 ^ 16)
  | 0x03 => BitVec.ofNat 64 ((st.rets.length + st.spilled) % 2 ^ 16)
  | 0x04 => BitVec.ofNat 64 (st.loops.length % 8)
  | 0x13 => c.vflags
  | k => BitVec.ofNat 64 (c.reg (.key k))

/-- A read of a special register to register `r` (06 R146). -/
def readSpecial (i : Instr) (r : Reg) (n : Nat) (s : State) : Out :=
  issue i s fun s =>
    withNeeds (needs (if 0x10 ≤ n ∧ n ≤ 0x12 then [Reg.key n] else []) [r]) s fun s =>
      retire i.hdr (s.writeReg r (s.me.special s.cur.x n s.dcyc).toNat 1 false)

/-- RDSR (06 R146). -/
def execRdsr (h : Hdr) (r n : BitVec 6) (s : State) : Out := readSpecial (.rdsr h r n) (.g r.toNat) n.toNat s

/-- RDSX (06 R146). -/
def execRdsx (h : Hdr) (r : BitVec 4) (n : BitVec 6) (s : State) : Out := readSpecial (.rdsx h r n) (.s r.toNat) n.toNat s

/-- A write of a special register from register `r` (06 R146): only the key context has writable fields, which land with
L = 1; a write to any other number is discarded (00 R7). -/
def writeSpecial (i : Instr) (r : Reg) (n : Nat) (s : State) : Out :=
  issue i s fun s =>
    withNeeds (needs [r] []) s fun s =>
      if 0x10 ≤ n ∧ n ≤ 0x12 then retire i.hdr (s.writeFixed (.key n) 1 (s.me.reg r % 2 ^ 32) 1) else retire i.hdr s

/-- WRSR (06 R146): every field of the A-stream's special registers is read-only. -/
def execWrsr (h : Hdr) (r n : BitVec 6) (s : State) : Out := writeSpecial (.wrsr h r n) (.g r.toNat) n.toNat s

/-- WRSX (06 R146). -/
def execWrsx (h : Hdr) (r : BitVec 4) (n : BitVec 6) (s : State) : Out := writeSpecial (.wrsx h r n) (.s r.toNat) n.toNat s

end Sys2Proof.Machine
end

