-- ==== Sys2Proof/Machine/Vector.lean ====
section
/-! DEFINITION. The vector instructions of the X-stream: OP 0x80 to 0x8C (10 R249 to R276). -/

namespace Sys2Proof

open Machine

/-- The destination v register of a vector form. -/
def VForm.vd (f : VForm) : Reg := .v f.didx.toNat

/-- The destination predicate of a vector form. -/
def VForm.pd (f : VForm) : Reg := .px f.didx.toNat

/-- The v register that SA names. -/
def VForm.va (f : VForm) : Reg :=
  match f.sa with
  | .v i => .v i.toNat
  | _ => .v 0

/-- The mask of an immediate SB (10 R275, R276). -/
def VForm.mask (f : VForm) : Nat :=
  match f.sb with
  | some (.imm v) => v.toNat % 16
  | _ => 0

end Sys2Proof

namespace Sys2Proof.Machine

/-! ### Lanes -/

/-- Lanes of `w` bits in a vector (10 R249). -/
def lanes (w : Nat) : Nat := Config.vlen / w

/-- Element `i` of a vector of `w`-bit elements (10 R249). -/
def elem (v w i : Nat) : Nat := fld v (w * i) w

/-- Lane `i` of `w`-bit elements is active under a guard of a bit for each byte (05 R132). -/
def laneOn (m w i : Nat) : Bool := bitAt m (w * i / 8)

/-- The bits of the active lanes among the first `n` of `w` bits. -/
def laneBits (m w n : Nat) : Nat := mkLanes (fun i => if laneOn m w i then 2 ^ w - 1 else 0) w 0 n

/-- Values put at fields of `w` bits: the bits that they take, and the value there. -/
def fieldsAt (w : Nat) (es : List (Nat × Nat)) : Nat × Nat :=
  es.foldl (fun r e => (setFld r.1 (w * e.1) w (2 ^ w - 1), setFld r.2 (w * e.1) w e.2)) (0, 0)

/-- The bytes of the active lanes among the first `n` of `w` bits, where `w` is a multiple of 8: the bits that a predicate takes
for them (10 R249). -/
def laneBytes (m w n : Nat) : Nat :=
  mkBits (fun j => decide (j / (w / 8) < n) && laneOn m w (j / (w / 8))) 0 128

/-- Elements of `w` bits packed, the first lowest. -/
def pack (w : Nat) (es : List Nat) : Nat := es.foldr (fun e r => e % 2 ^ w + 2 ^ w * r) 0

/-- A first source as a vector of `w`-bit elements (10 R250): a constant gives its low bits to every lane. -/
def State.vecA (s : State) (f : VForm) (w : Nat) : Nat :=
  match f.sa with
  | .v i => s.me.reg (.v i.toNat)
  | .p i => s.me.reg (.px i.toNat)
  | .const k => rep (s.constSlot k.toNat).toNat w (lanes w)
  | .none => 0

/-- A second source as a vector of `w`-bit elements (10 R250). -/
def State.vecB (s : State) (f : VForm) (w : Nat) : Nat :=
  match f.sb with
  | some (.v i) => s.me.reg (.v i.toNat)
  | some d => rep (s.take d).1.toNat w (lanes w)
  | none => 0

/-- A second source as one 64-bit value (10 R250). -/
def State.scalarB (s : State) (f : VForm) : Word :=
  match f.sb with
  | some d => (s.take d).1
  | none => 0

/-- What the sources of a vector instruction ask: SA, SB, and the coordinate base under RM = 2 (10 R250). -/
def srcsV (f : VForm) : Needs :=
  let a := match f.sa with
    | .v i => needs [.v i.toNat] []
    | .p i => needs [.px i.toNat] []
    | .const k => { needs [] [] with lm := [(8 * k.toNat, 8, false)] }
    | .none => needs [] []
  let b := match f.sb with
    | some d => srcNeeds true d
    | none => needs [] []
  (a.and b).and (needs (if f.rm = 2 then [.s f.sbase.toNat] else []) [])

/-- A vector instruction up to its needs: beside its sources it reads `reads`, and, where it keeps inactive elements under a
guard other than p0 with GNEG = 0, the registers it writes (10 R251). `k` gets the guard as a bit for each byte. -/
def vecOp (i : Instr) (f : VForm) (keeps : Bool) (reads writes : List Reg) (s : State) (k : Nat → State → Out) : Out :=
  issue i s fun s =>
    let g := keeps && (i.hdr.gneg || i.hdr.gpred != 0)
    withNeeds ((srcsV f).and (needs (reads ++ if g then writes else []) writes)) s fun s => k (s.laneMask i.hdr) s

/-- A result of variable latency written to the bits of a mask; with none nothing is written (10 R251, R274, R275). -/
def State.pendV (s : State) (r : Reg) (mask val : Nat) : State := if mask = 0 then s else s.pendMasks [(r, mask, val)]

/-- A result written to the bits of a mask; with none nothing is written (10 R251). Its latency varies where the instruction has
waited for an absent register (05 R117). -/
def State.putV (s : State) (r : Reg) (mask val lat : Nat) : State :=
  if s.st.stage = .waited then s.pendV r mask val
  else if mask = 0 then s else s.writeFixed r mask val lat

/-- Results at several registers that are written together (10 R264). -/
def State.putVs (s : State) (outs : List (Reg × Nat × Nat)) (lat : Nat) : State :=
  if outs.all (fun o => o.2.1 == 0) then s
  else if s.st.stage = .waited then s.pendMasks outs else s.writeTogether outs lat

/-- The results of the active lanes at a v register with their events (10 R251). -/
def State.lanesV (s : State) (f : VForm) (m w lat : Nat) (r : Nat → Nat × Ev) : State :=
  let es := (upFrom 0 (lanes w)).map (fun i => if laneOn m w i then r i else (0, Ev.none))
  (s.countV (es.map Prod.snd)).putV f.vd (laneBits m w (lanes w)) (pack w (es.map Prod.fst)) lat

/-- Truth values of the active lanes at a predicate: every bit of the lane's bytes (10 R253, R259). -/
def State.lanesP (s : State) (f : VForm) (m w lat : Nat) (r : Nat → Bool) : State :=
  s.putV f.pd (laneBytes m w (lanes w)) (mkBits (fun j => r (j / (w / 8))) 0 128) lat

/-! ### Rounding (04 R85 to R90) -/

/-- The rounding of lane `i` (04 R85, R90). -/
def State.laneRm (s : State) (f : VForm) (i : Nat) : Rm :=
  if f.rm = 1 then .rz
  else if f.rm = 2 then
    .sr (drawOf s.me.keyCtx.1 s.me.keyCtx.2 (s.me.reg (.s f.sbase.toNat) + i * 2 ^ f.stride.toNat))
  else .rne

/-! ### Floating arithmetic (10 R255 to R257) -/

/-- A NaN event of an invalid operation, which a NaN operand leaves out (10 R256). -/
def invalid (bad : Bool) (xs : List Ex) (r : Nat × Ev) : Nat × Ev :=
  if bad && !xs.any Ex.isNan then (r.1, Ev.isNan) else r

/-- A floating instruction with one rounding: `g` gives the exact result of a, b and d, and whether it is invalid (10 R255,
R256). -/
def floatOp (i : Instr) (h : Hdr) (f : VForm) (readsD : Bool) (g : Ex → Ex → Ex → Ex × Bool) (s : State) : Out :=
  vecOp i f true (if readsD then [f.vd] else []) [f.vd] s fun m s =>
    let w := fmtWidth f.fm
    let a := s.vecA f w
    let b := s.vecB f w
    let d := s.me.reg f.vd
    let x (v i : Nat) : Ex := decodeF f.fm (elem v w i)
    retire h (s.lanesV f m w 4 fun i =>
      let e := g (x a i) (x b i) (x d i)
      invalid e.2 ([x a i, x b i] ++ if readsD then [x d i] else []) (toF f.fm f.sp (s.laneRm f i) e.1))

/-- a * b + c with its product's and its sum's invalid cases (10 R256). -/
def fmaEx (neg : Bool) (a b c : Ex) : Ex × Bool :=
  let p := a.mul b
  let t := (if neg then p.1.neg else p.1).add c
  (t.1, p.2 || t.2)

/-- VMIN and VMAX (10 R257): the operand itself, canonical NaN where either is NaN. -/
def minMaxF (fmt : Nat) (big : Bool) (a b : Nat) : Nat :=
  let x := decodeF fmt a
  let y := decodeF fmt b
  if x.isNan || y.isNan then canonNan fmt
  else if big then (if x.ltz y then b else a)
  else if y.ltz x then b else a

/-- A lane-wise instruction that makes no event: `g` takes the elements of SA and SB (10 R257, R258, R261, R270). -/
def bitsOp (i : Instr) (h : Hdr) (f : VForm) (lat : Nat) (g : Nat → Nat → Nat) (s : State) : Out :=
  vecOp i f true [] [f.vd] s fun m s =>
    let w := fmtWidth f.fm
    let a := s.vecA f w
    let b := s.vecB f w
    retire h (s.lanesV f m w lat fun i => (g (elem a w i) (elem b w i), Ev.none))

/-! ### Integers and compares (10 R258 to R261) -/

/-- The s codes are signed (10 R258). -/
def isSignedFmt (f : Nat) : Bool := decide (16 ≤ f) && decide (f ≤ 19)

/-- The value of an element of an integer code. -/
def intVal (f e : Nat) : Int := if isSignedFmt f then toS e (fmtWidth f) else ((e % 2 ^ fmtWidth f : Nat) : Int)

/-- An integer saturated to the range of an integer code (10 R258). -/
def satInt (f : Nat) (v : Int) : Nat := (toInt (fmtWidth f) (isSignedFmt f) .rne (Ex.ofInt v)).1

/-- An integer modulo 2^w. -/
def modInt (f : Nat) (v : Int) : Nat := ofS v (fmtWidth f)

/-- a < b and a = b of a compare (10 R259). -/
def ltV (sf a b : Nat) : Bool := if isIntFmt sf then decide (intVal sf a < intVal sf b) else (decodeF sf a).lt (decodeF sf b)
def eqV (sf a b : Nat) : Bool :=
  if isIntFmt sf then decide (intVal sf a = intVal sf b)
  else
    let x := decodeF sf a
    let y := decodeF sf b
    !x.isNan && !y.isNan && !x.lt y && !y.lt x
def unV (sf a b : Nat) : Bool := !isIntFmt sf && ((decodeF sf a).isNan || (decodeF sf b).isNan)

/-- A compare (10 R259). -/
def cmpOp (i : Instr) (h : Hdr) (f : VForm) (g : Nat → Nat → Nat → Bool) (s : State) : Out :=
  vecOp i f true [] [f.pd] s fun m s =>
    let w := fmtWidth f.sm
    let a := s.vecA f w
    let b := s.vecB f w
    retire h (s.lanesP f m w 2 fun i => g f.sm (elem a w i) (elem b w i))

/-- VSEL (10 R260): every lane is written. -/
def execVsel (h : Hdr) (f : VForm) (s : State) : Out :=
  vecOp (.vsel h f) f false [] [f.vd] s fun m s =>
    let w := fmtWidth f.fm
    let a := s.vecA f w
    let b := s.vecB f w
    retire h (s.putV f.vd allLanes (mkLanes (fun i => if laneOn m w i then elem a w i else elem b w i) w 0 (lanes w)) 1)

/-! ### Conversions (10 R262 to R266) -/

/-- The exact value of an element in a format other than an MX one (10 R263); `k` is the exponent of BSI lanes (03 R83). -/
def cvtFrom (sf : Nat) (k : Int) (e : Nat) : Ex :=
  if sf ≤ 7 then decodeF sf e
  else if sf = 13 then ofE8m0 (e % 256)
  else if sf = 14 then (Ex.ofInt (toS e 64)).scale k
  else Ex.ofInt (intVal sf e)

/-- An exact value in a format other than an MX one (10 R263; 03 R68, R77 to R82). -/
def cvtTo (df : Nat) (k : Int) (prop : Bool) (rm : Rm) (x : Ex) : Nat × Ev :=
  if df ≤ 7 then toF df prop rm x
  else if df = 13 then toE8m0 x
  else if df = 14 then toBsi k rm x
  else toInt (fmtWidth df) (isSignedFmt df) rm x

/-- The register after the first of a pair. -/
def nextV : Reg → Reg
  | .v i => .v (i + 1)
  | r => r

/-- Element `i` of SA as an exact value; an MX source takes its scale from the next register (10 R264). -/
def State.cvtElem (s : State) (f : VForm) (k : Int) (i : Nat) : Ex :=
  let e := elem (s.me.reg f.va) (fmtWidth f.sm) i
  if isMxFmt f.sm then mxVal (elemFmt f.sm) (elem (s.me.reg (nextV f.va)) 8 (i / 32)) e else cvtFrom f.sm k e

/-- The bits of vd that converted elements take, with their values: whatever else shares a byte with them keeps its contents (10 R262). -/
def elemsAt (w : Nat) (es : List (Nat × Nat × Ev)) : Nat × Nat := fieldsAt w (es.map (fun e => (e.1, e.2.1)))

/-- Converted elements at vd, with their events (10 R262). -/
def State.putElems (s : State) (f : VForm) (w : Nat) (es : List (Nat × Nat × Ev)) (lat : Nat) : State :=
  let e := elemsAt w es
  (s.countV (es.map (fun e => e.2.2))).putV f.vd e.1 e.2 lat

/-- One block of a conversion to MX (03 R84, 10 R264): its scale code, its elements and events. -/
def mxBlock (ef : Nat) (prop : Bool) (rm : Nat → Rm) (xs : List Ex) : Nat × List (Nat × Ev) :=
  if mxNan ef xs then (0xFF, xs.zipIdx.map (fun p => (0, if p.2 = 0 then Ev.isNan else Ev.none)))
  else
    let xe := mxExp ef xs
    ((xe.2 + 127).toNat, xs.zipIdx.map (fun p => mxElement ef prop (rm p.2) xe.1 xe.2 p.1))

/-- VCVT to an MX format (10 R264): each block with an active element is written whole, with its scale, both registers together. -/
def State.cvtMx (s : State) (f : VForm) (m : Nat) : State :=
  let w := fmtWidth f.sm
  let wd := fmtWidth f.fm
  let bs := (upFrom 0 (lanes w / 32)).filter (fun j => (upFrom (32 * j) 32).any (laneOn m w))
  let rs := bs.map (fun j =>
    (j, mxBlock (elemFmt f.fm) f.sp (fun i => s.laneRm f (32 * j + i))
      ((upFrom (32 * j) 32).map (fun i => if laneOn m w i then s.cvtElem f 0 i else Ex.zero))))
  let es := rs.flatMap (fun r => r.2.2.zipIdx.map (fun p => (32 * r.1 + p.2, p.1)))
  let e := elemsAt wd es
  let scales := fieldsAt 8 (rs.map (fun r => (r.1, r.2.1)))
  (s.countV (es.map (fun e => e.2.2))).putVs [(f.vd, e.1, e.2), (nextV f.vd, scales.1, scales.2)] 4

/-- VCVT with RM other than 3 (10 R262 to R265). -/
def execVcvt (h : Hdr) (f : VForm) (s : State) : Out :=
  let w := max (fmtWidth f.sm) (fmtWidth f.fm)
  vecOp (.vcvt h f) f true (if isMxFmt f.sm then [nextV f.va] else [])
    (f.vd :: if isMxFmt f.fm then [nextV f.vd] else []) s fun m s =>
    let k := toS (s.scalarB f).toNat 16
    if isMxFmt f.fm then retire h (s.cvtMx f m)
    else
      let is := (upFrom 0 (lanes w)).filter (laneOn m w)
      retire h (s.putElems f (fmtWidth f.fm)
        (is.map (fun i => (i, cvtTo f.fm k f.sp (s.laneRm f i) (s.cvtElem f k i)))) 4)

/-- Error-feedback narrowing of one lane (04 R92): y and the error, with the events of both roundings. -/
def efLane (df : Nat) (prop : Bool) (x e : Ex) : (Nat × Ev) × (Nat × Ev) :=
  let t := x.add e
  let y := invalid t.2 [x, e] (toF df prop .rne t.1)
  let yv := decodeF df y.1
  if t.1.isFin && yv.isFin then (y, toF 0 prop .rne (t.1.add yv.neg).1) else (y, (0, Ev.none))

/-- VCVT with RM = 3 (10 R266). -/
def execVcvtEf (h : Hdr) (f : VForm) (s : State) : Out :=
  let ve : Reg := match f.sb with
    | some (.v i) => .v i.toNat
    | _ => .v 0
  vecOp (.vcvtEf h f) f true [ve] [f.vd, ve] s fun m s =>
    let a := s.me.reg f.va
    let e := s.me.reg ve
    let is := (upFrom 0 (lanes 32)).filter (laneOn m 32)
    let rs := is.map (fun i => (i, efLane f.fm f.sp (decodeF 0 (elem a 32 i)) (decodeF 0 (elem e 32 i))))
    let t := s.putElems f (fmtWidth f.fm) (rs.map (fun r => (r.1, r.2.1))) 4
    let es := fieldsAt 32 (rs.map (fun r => (r.1, r.2.2.1)))
    retire h ((t.countV (rs.map (fun r => r.2.2.2))).putV ve es.1 es.2 4)

/-! ### Dot products and reductions (10 R267 to R269) -/

/-- The rounding of an instruction that states a single coordinate: s(SBASE) (10 R267, R268). -/
def State.oneRm (s : State) (f : VForm) : Rm := s.laneRm f 0

/-- VMXDOT (10 R267). -/
def execVmxdot (h : Hdr) (f : VForm) (s : State) : Out :=
  let vb : Reg := match f.sb with
    | some (.v i) => .v i.toNat
    | _ => .v 0
  vecOp (.vmxdot h f) f true [nextV f.va, nextV vb, f.vd] [f.vd] s fun m s =>
    let w := fmtWidth f.sm
    let ef := elemFmt f.sm
    let a := s.me.reg f.va
    let b := s.me.reg vb
    let term (j : Nat) : Term :=
      blockTerm (elem (s.me.reg (nextV f.va)) 8 j) (elem (s.me.reg (nextV vb)) 8 j)
        ((upFrom (32 * j) 32).map (fun i => (decodeF ef (elem a w i), decodeF ef (elem b w i))))
    let js := (upFrom 0 (Config.vlen / (32 * w))).filter (laneOn m 32)
    if js = [] then retire h s
    else
      let r := windowSum 0 f.sp (s.oneRm f) (Term.of (decodeF 0 (elem (s.me.reg f.vd) 32 0)) :: js.map term)
      retire h ((s.countV [r.2]).putV f.vd allLanes (rep r.1 32 (lanes 32)) 8)

/-- VREDSUM (10 R268). -/
def execVredsum (h : Hdr) (f : VForm) (s : State) : Out :=
  vecOp (.vredsum h f) f false [] [f.vd] s fun m s =>
    let a := s.vecA f 32
    let is := (upFrom 0 (lanes 32)).filter (laneOn m 32)
    let r := if is = [] then (0, Ev.none)
      else windowSum f.fm f.sp (s.oneRm f) (is.map (fun i => Term.of (decodeF 0 (elem a 32 i))))
    let w := fmtWidth f.fm
    retire h ((s.countV [r.2]).putV f.vd allLanes (rep r.1 w (lanes w)) 8)

/-- The largest of some elements (10 R269). -/
def maxElem (fmt : Nat) (es : List Nat) : Nat :=
  if isIntFmt fmt then
    es.foldl (fun a e => if intVal fmt a < intVal fmt e then e else a)
      (if isSignedFmt fmt then 2 ^ (fmtWidth fmt - 1) else 0)
  else es.foldl (minMaxF fmt true) (signed fmt true (infCode fmt))

/-- VREDMAX (10 R269). -/
def execVredmax (h : Hdr) (f : VForm) (s : State) : Out :=
  vecOp (.vredmax h f) f false [] [f.vd] s fun m s =>
    let w := fmtWidth f.fm
    let a := s.vecA f w
    let r := maxElem f.fm (((upFrom 0 (lanes w)).filter (laneOn m w)).map (elem a w))
    retire h (s.putV f.vd allLanes (rep r w (lanes w)) 4)

/-! ### Permutes, broadcast and moves (10 R270) -/

/-- An instruction whose lane i takes any element of va: `q` gives its number, none for 0 (10 R270). -/
def moveOp (i : Instr) (h : Hdr) (f : VForm) (lat : Nat) (q : State → Nat → Int) (s : State) : Out :=
  vecOp i f true [] [f.vd] s fun m s =>
    let w := fmtWidth f.fm
    let a := s.vecA f w
    retire h (s.lanesV f m w lat fun i =>
      let j := q s i
      (if 0 ≤ j ∧ j < lanes w then elem a w j.toNat else 0, Ev.none))

/-- VPERM (10 R270): the element numbers stand in vb. -/
def execVperm (h : Hdr) (f : VForm) (s : State) : Out :=
  moveOp (.vperm h f) h f 3 (fun s i => (elem (s.vecB f (fmtWidth f.fm)) (fmtWidth f.fm) i : Nat)) s

/-- VBCAST of an element (10 R270). -/
def execVbcastElement (h : Hdr) (f : VForm) (s : State) : Out :=
  moveOp (.vbcastElement h f) h f 1 (fun s _ => ((s.scalarB f).toNat : Int)) s

/-- VSLIDE (10 R270). -/
def execVslide (h : Hdr) (f : VForm) (s : State) : Out :=
  moveOp (.vslide h f) h f 3 (fun s i => (i : Int) + (s.scalarB f).toInt) s

/-- VBCAST of a scalar (10 R270). -/
def execVbcast (h : Hdr) (f : VForm) (s : State) : Out := bitsOp (.vbcast h f) h f 1 (fun _ b => b) s

/-- VMOV (10 R270). -/
def execVmov (h : Hdr) (f : VForm) (s : State) : Out := bitsOp (.vmov h f) h f 1 (fun a _ => a) s

/-- VMOV of a predicate (10 R270). -/
def execVmovPredicate (h : Hdr) (f : VForm) (s : State) : Out :=
  vecOp (.vmovPredicate h f) f true [] [f.vd] s fun m s =>
    let p := s.vecA f 8
    retire h (s.lanesV f m 8 1 fun i => (b01 (bitAt p i), Ev.none))

/-! ### Local memory (10 R271) -/

/-- VLL and VLS up to their access: the alignment and range traps hold whatever the guard, which has a bit for each byte; a copy's
watermark holds back an access of one of the bytes that are performed (09 R236). A guarded VLL does not count as reading vd: it waits
for none of it and STALL_SHORT does not look at it, the model's choice (R251, notes/assumptions/88). -/
def vecMem (i : Instr) (m : MForm) (reads writes : List Reg) (write : Bool) (s : State) (k : Nat → Nat → State → Out) : Out :=
  memOp i m reads writes s fun ea s =>
    if ea % 8 ≠ 0 then trap 0x0E 0 0 ea s
    else if Config.lmBytes < ea + 128 then trap 0x0D 0 0 ea s
    else if (upFrom 0 128).any (fun j => bitAt (s.laneMask i.hdr) j && s.me.lmBlocked (ea + j) 1 write) then stall s
    else k (s.laneMask i.hdr) ea s

/-- VLL (10 R271). -/
def execVll (h : Hdr) (m : MForm) (s : State) : Out :=
  vecMem (.vll h m) m [] [.v m.didx.toNat] false s fun g ea s =>
    retire h (s.putV (.v m.didx.toNat) (laneBits g 8 128) (s.me.lmRd s.cur.x ea 128) 3)

/-- Maximal runs of the bytes of an aligned 8-byte word that a guard selects, from byte `j`, `n` left; the run so far ends
at `j`; `t` is the cycle of the stores. -/
def guardRuns (t g v ea j : Nat) (run : List Byte) : Nat → List LmWrite
  | 0 => if run = [] then [] else [{ cyc := t, addr := ea + j - run.length, bytes := run }]
  | n + 1 =>
    if bitAt g j then guardRuns t g v ea (j + 1) (run ++ [BitVec.ofNat 8 (fld v (8 * j) 8)]) n
    else (if run = [] then [] else [{ cyc := t, addr := ea + j - run.length, bytes := run }]) ++ guardRuns t g v ea (j + 1) [] n

/-- VLS (10 R271): one store for each aligned 8-byte word (07 R167). -/
def execVls (h : Hdr) (m : MForm) (s : State) : Out :=
  vecMem (.vls h m) m [.v m.didx.toNat] [] true s fun g ea s =>
    let v := s.me.reg (.v m.didx.toNat)
    let ws := (upFrom 0 16).flatMap (fun k => guardRuns s.now g v ea (8 * k) [] 8)
    retire h (s.setSt { s.st with lmq := s.st.lmq ++ ws })

/-! ### The keyed generator (10 R272, R273) -/

/-- KSET (10 R272): the key context changes at issue. -/
def execKset (h : Hdr) (f : VForm) (s : State) : Out :=
  issue (.kset h f) s fun s =>
    let (n, a, b) := match f.sb with
      | some (.s i) => (needs [.s i.toNat, .s (i.toNat + 1)] [], s.me.reg (.s i.toNat), s.me.reg (.s (i.toNat + 1)))
      | some (.const k) =>
        ({ needs [] [] with lm := [(8 * k.toNat, 16, false)] }, (s.constSlot k.toNat).toNat, (s.constSlot (k.toNat + 1)).toNat)
      | _ => (needs [] [], 0, 0)
    withNeeds n s fun s =>
      retire h (s.setMe (((s.me.setReg (.key 0x10) 1 (a / 2 ^ 32)).setReg (.key 0x11) 1 a).setReg (.key 0x12) 1 b))

/-- VRAND (10 R273). -/
def execVrand (h : Hdr) (f : VForm) (s : State) : Out :=
  vecOp (.vrand h f) f true [] [f.vd] s fun m s =>
    let w := fmtWidth f.fm
    let c := (s.scalarB f).toNat
    let key := s.me.keyCtx
    retire h (s.lanesV f m w 6 fun i =>
      let r (d : Nat) : Nat := km4 key.1 ((c + i) % 2 ^ 64) (kmC1 key.2 2 d)
      (if w = 32 then r 0 else 2 ^ 32 * r 1 + r 0, Ev.none))

/-! ### Special functions (10 R274) -/

/-- A special function, by its FN: vd is pending until every active lane is written. -/
def specialOp (i : Instr) (h : Hdr) (f : VForm) (fn : Nat) (s : State) : Out :=
  vecOp i f true [] [f.vd] s fun m s =>
    let a := s.vecA f 32
    let es := (upFrom 0 (lanes 32)).map (fun i =>
      if laneOn m 32 i then special fn (decodeF 0 (elem a 32 i)) else (0, Ev.none))
    retire h ((s.countV (es.map Prod.snd)).pendV f.vd (laneBits m 32 (lanes 32)) (pack 32 (es.map Prod.fst)))

/-! ### Governing predicates and the width (10 R253, R254) -/

/-- PRANGE (10 R253). -/
def execPrange (h : Hdr) (f : VForm) (s : State) : Out :=
  let k := match f.sb with
    | some (.s i) => i.toNat
    | _ => 0
  vecOp (.prange h f) f true [.s (k + 1)] [f.pd] s fun m s =>
    let rem : Int := toS (s.me.reg (.s (k + 1))) 64 - toS (s.me.reg (.s k)) 64
    retire h (s.lanesP f m (fmtWidth f.fm) 1 fun j => decide ((j : Int) < rem))

/-- VLEN (10 R254). -/
def execVlen (h : Hdr) (f : VForm) (s : State) : Out := bitsOp (.vlen h f) h f 1 (fun _ _ => Config.vlen) s

/-! ### Flag counters (10 R275, R276) -/

/-- VSTAT to a v register (10 R275): events are counted as their instructions issue, so none of an earlier one is missing. -/
def execVstat (h : Hdr) (f : VForm) (s : State) : Out :=
  vecOp (.vstat h f) f true [] [f.vd] s fun m s =>
    retire h (s.pendV f.vd (laneBits m 64 (lanes 64)) (rep s.me.vflags.toNat 64 (lanes 64)))

/-- VSTAT to a predicate (10 R275). -/
def execVstatPredicate (h : Hdr) (f : VForm) (s : State) : Out :=
  vecOp (.vstatPredicate h f) f true [] [f.pd] s fun m s =>
    let on := (upFrom 0 4).any (fun i => bitAt f.mask i && fld s.me.vflags.toNat (16 * i) 16 != 0)
    retire h (s.pendV f.pd m (if on then allOnes else 0))

/-- VCLRF (10 R276). -/
def execVclrf (h : Hdr) (f : VForm) (s : State) : Out :=
  issue (.vclrf h f) s fun s => retire h (s.setMe { s.me with vflags := clearCounts s.me.vflags f.mask })

/-! ### Lane-wise instructions -/

/-- VADD (10 R255, R256). -/
def execVadd (h : Hdr) (f : VForm) (s : State) : Out :=
  floatOp (.vadd h f) h f false (fun a b _ => a.add b) s

/-- VSUB (10 R255, R256). -/
def execVsub (h : Hdr) (f : VForm) (s : State) : Out :=
  floatOp (.vsub h f) h f false (fun a b _ => a.add b.neg) s

/-- VMUL (10 R255, R256). -/
def execVmul (h : Hdr) (f : VForm) (s : State) : Out :=
  floatOp (.vmul h f) h f false (fun a b _ => a.mul b) s

/-- VFMA (10 R255, R256). -/
def execVfma (h : Hdr) (f : VForm) (s : State) : Out :=
  floatOp (.vfma h f) h f true (fmaEx false) s

/-- VFMS (10 R255, R256). -/
def execVfms (h : Hdr) (f : VForm) (s : State) : Out :=
  floatOp (.vfms h f) h f true (fmaEx true) s

/-- VMIN (10 R257). -/
def execVmin (h : Hdr) (f : VForm) (s : State) : Out :=
  bitsOp (.vmin h f) h f 4 (minMaxF f.fm false) s

/-- VMAX (10 R257). -/
def execVmax (h : Hdr) (f : VForm) (s : State) : Out :=
  bitsOp (.vmax h f) h f 4 (minMaxF f.fm true) s

/-- VABS (10 R257). -/
def execVabs (h : Hdr) (f : VForm) (s : State) : Out :=
  bitsOp (.vabs h f) h f 4 (fun a _ => a % 2 ^ (fmtWidth f.fm - 1)) s

/-- VNEG (10 R257). -/
def execVneg (h : Hdr) (f : VForm) (s : State) : Out :=
  bitsOp (.vneg h f) h f 4 (fun a _ => Nat.xor a (2 ^ (fmtWidth f.fm - 1))) s

/-- VIADD (10 R258). -/
def execViadd (h : Hdr) (f : VForm) (s : State) : Out :=
  bitsOp (.viadd h f) h f 2 (fun a b => a + b) s

/-- VISUB (10 R258). -/
def execVisub (h : Hdr) (f : VForm) (s : State) : Out :=
  bitsOp (.visub h f) h f 2 (fun a b => modInt f.fm ((a : Int) - b)) s

/-- VIMUL (10 R258). -/
def execVimul (h : Hdr) (f : VForm) (s : State) : Out :=
  bitsOp (.vimul h f) h f 2 (fun a b => a * b) s

/-- VIMIN (10 R258). -/
def execVimin (h : Hdr) (f : VForm) (s : State) : Out :=
  bitsOp (.vimin h f) h f 2 (fun a b => if intVal f.fm b < intVal f.fm a then b else a) s

/-- VIMAX (10 R258). -/
def execVimax (h : Hdr) (f : VForm) (s : State) : Out :=
  bitsOp (.vimax h f) h f 2 (fun a b => if intVal f.fm a < intVal f.fm b then b else a) s

/-- VIABS (10 R258). -/
def execViabs (h : Hdr) (f : VForm) (s : State) : Out :=
  bitsOp (.viabs h f) h f 2 (fun a _ => modInt f.fm (intVal f.fm a).natAbs) s

/-- VINEG (10 R258). -/
def execVineg (h : Hdr) (f : VForm) (s : State) : Out :=
  bitsOp (.vineg h f) h f 2 (fun a _ => modInt f.fm (-(a : Int))) s

/-- VIADDS (10 R258). -/
def execViadds (h : Hdr) (f : VForm) (s : State) : Out :=
  bitsOp (.viadds h f) h f 2 (fun a b => satInt f.fm (intVal f.fm a + intVal f.fm b)) s

/-- VISUBS (10 R258). -/
def execVisubs (h : Hdr) (f : VForm) (s : State) : Out :=
  bitsOp (.visubs h f) h f 2 (fun a b => satInt f.fm (intVal f.fm a - intVal f.fm b)) s

/-- VCMPEQ (10 R259). -/
def execVcmpeq (h : Hdr) (f : VForm) (s : State) : Out :=
  cmpOp (.vcmpeq h f) h f eqV s

/-- VCMPNE (10 R259). -/
def execVcmpne (h : Hdr) (f : VForm) (s : State) : Out :=
  cmpOp (.vcmpne h f) h f (fun sf a b => !eqV sf a b) s

/-- VCMPLT (10 R259). -/
def execVcmplt (h : Hdr) (f : VForm) (s : State) : Out :=
  cmpOp (.vcmplt h f) h f ltV s

/-- VCMPLE (10 R259). -/
def execVcmple (h : Hdr) (f : VForm) (s : State) : Out :=
  cmpOp (.vcmple h f) h f (fun sf a b => ltV sf a b || eqV sf a b) s

/-- VCMPUN (10 R259). -/
def execVcmpun (h : Hdr) (f : VForm) (s : State) : Out :=
  cmpOp (.vcmpun h f) h f unV s

/-- VAND (10 R261). -/
def execVand (h : Hdr) (f : VForm) (s : State) : Out :=
  bitsOp (.vand h f) h f 1 Nat.land s

/-- VOR (10 R261). -/
def execVor (h : Hdr) (f : VForm) (s : State) : Out :=
  bitsOp (.vor h f) h f 1 Nat.lor s

/-- VXOR (10 R261). -/
def execVxor (h : Hdr) (f : VForm) (s : State) : Out :=
  bitsOp (.vxor h f) h f 1 Nat.xor s

/-- VANDN (10 R261). -/
def execVandn (h : Hdr) (f : VForm) (s : State) : Out :=
  bitsOp (.vandn h f) h f 1 (fun a b => Nat.land a (Nat.xor (b % 2 ^ fmtWidth f.fm) (2 ^ fmtWidth f.fm - 1))) s

/-- VSHL (10 R261). -/
def execVshl (h : Hdr) (f : VForm) (s : State) : Out :=
  bitsOp (.vshl h f) h f 1 (fun a b => a * 2 ^ (b % fmtWidth f.fm)) s

/-- VSHR (10 R261). -/
def execVshr (h : Hdr) (f : VForm) (s : State) : Out :=
  bitsOp (.vshr h f) h f 1 (fun a b => a / 2 ^ (b % fmtWidth f.fm)) s

/-- VSAR (10 R261). -/
def execVsar (h : Hdr) (f : VForm) (s : State) : Out :=
  bitsOp (.vsar h f) h f 1 (fun a b => modInt f.fm (toS a (fmtWidth f.fm) / 2 ^ (b % fmtWidth f.fm))) s

/-- VEXP2 (10 R274). -/
def execVexp2 (h : Hdr) (f : VForm) (s : State) : Out :=
  specialOp (.vexp2 h f) h f 0 s

/-- VLOG2 (10 R274). -/
def execVlog2 (h : Hdr) (f : VForm) (s : State) : Out :=
  specialOp (.vlog2 h f) h f 1 s

/-- VRCP (10 R274). -/
def execVrcp (h : Hdr) (f : VForm) (s : State) : Out :=
  specialOp (.vrcp h f) h f 2 s

/-- VRSQRT (10 R274). -/
def execVrsqrt (h : Hdr) (f : VForm) (s : State) : Out :=
  specialOp (.vrsqrt h f) h f 3 s

/-- VSQRT (10 R274). -/
def execVsqrt (h : Hdr) (f : VForm) (s : State) : Out :=
  specialOp (.vsqrt h f) h f 4 s

end Sys2Proof.Machine
end

