-- ==== Sys2Proof/Machine/Dispatch.lean ====
section
/-! DEFINITION. The one dispatch of the machine: each instruction and event of the table to its meaning. -/

namespace Sys2Proof.Machine

def exec (i : Instr) (s : State) : Host.Outcome State Fault Refusal :=
  match i with
  | .nop h => Sys2Proof.Machine.execNop h s
  | .add h d a b => Sys2Proof.Machine.execAdd h d a b s
  | .sub h d a b => Sys2Proof.Machine.execSub h d a b s
  | .mul h d a b => Sys2Proof.Machine.execMul h d a b s
  | .mulhs h d a b => Sys2Proof.Machine.execMulhs h d a b s
  | .mulhz h d a b => Sys2Proof.Machine.execMulhz h d a b s
  | .and h d a b => Sys2Proof.Machine.execAnd h d a b s
  | .or h d a b => Sys2Proof.Machine.execOr h d a b s
  | .xor h d a b => Sys2Proof.Machine.execXor h d a b s
  | .andn h d a b => Sys2Proof.Machine.execAndn h d a b s
  | .shl h d a b => Sys2Proof.Machine.execShl h d a b s
  | .shr h d a b => Sys2Proof.Machine.execShr h d a b s
  | .sar h d a b => Sys2Proof.Machine.execSar h d a b s
  | .rot h d a b => Sys2Proof.Machine.execRot h d a b s
  | .mov h d a => Sys2Proof.Machine.execMov h d a s
  | .movk h d a b => Sys2Proof.Machine.execMovk h d a b s
  | .sext h d a b => Sys2Proof.Machine.execSext h d a b s
  | .zext h d a b => Sys2Proof.Machine.execZext h d a b s
  | .clz h d a => Sys2Proof.Machine.execClz h d a s
  | .ctz h d a => Sys2Proof.Machine.execCtz h d a s
  | .popc h d a => Sys2Proof.Machine.execPopc h d a s
  | .bfx h d a b => Sys2Proof.Machine.execBfx h d a b s
  | .bfi h d a b => Sys2Proof.Machine.execBfi h d a b s
  | .mins h d a b => Sys2Proof.Machine.execMins h d a b s
  | .maxs h d a b => Sys2Proof.Machine.execMaxs h d a b s
  | .minz h d a b => Sys2Proof.Machine.execMinz h d a b s
  | .maxz h d a b => Sys2Proof.Machine.execMaxz h d a b s
  | .cmpeq h d a b => Sys2Proof.Machine.execCmpeq h d a b s
  | .cmpne h d a b => Sys2Proof.Machine.execCmpne h d a b s
  | .cmplts h d a b => Sys2Proof.Machine.execCmplts h d a b s
  | .cmples h d a b => Sys2Proof.Machine.execCmples h d a b s
  | .cmpltz h d a b => Sys2Proof.Machine.execCmpltz h d a b s
  | .cmplez h d a b => Sys2Proof.Machine.execCmplez h d a b s
  | .pand h d a b => Sys2Proof.Machine.execPand h d a b s
  | .por h d a b => Sys2Proof.Machine.execPor h d a b s
  | .pxor h d a b => Sys2Proof.Machine.execPxor h d a b s
  | .pnot h d a => Sys2Proof.Machine.execPnot h d a s
  | .addsat h d a b => Sys2Proof.Machine.execAddsat h d a b s
  | .subsat h d a b => Sys2Proof.Machine.execSubsat h d a b s
  | .divs h d a b => Sys2Proof.Machine.execDivs h d a b s
  | .divz h d a b => Sys2Proof.Machine.execDivz h d a b s
  | .rems h d a b => Sys2Proof.Machine.execRems h d a b s
  | .remz h d a b => Sys2Proof.Machine.execRemz h d a b s
  | .lea h d a b sh nob off => Sys2Proof.Machine.execLea h d a b sh nob off s
  | .leax h d a b sh nob off => Sys2Proof.Machine.execLeax h d a b sh nob off s
  | .rdsr h r n => Sys2Proof.Machine.execRdsr h r n s
  | .wrsr h r n => Sys2Proof.Machine.execWrsr h r n s
  | .rdsx h r n => Sys2Proof.Machine.execRdsx h r n s
  | .wrsx h r n => Sys2Proof.Machine.execWrsx h r n s
  | .br h off => Sys2Proof.Machine.execBr h off s
  | .brq h q off => Sys2Proof.Machine.execBrq h q off s
  | .brqn h q off => Sys2Proof.Machine.execBrqn h q off s
  | .jmp h r => Sys2Proof.Machine.execJmp h r s
  | .loop h n off => Sys2Proof.Machine.execLoop h n off s
  | .breakl h => Sys2Proof.Machine.execBreakl h s
  | .call h off => Sys2Proof.Machine.execCall h off s
  | .calli h r => Sys2Proof.Machine.execCalli h r s
  | .ret h => Sys2Proof.Machine.execRet h s
  | .xgo h r => Sys2Proof.Machine.execXgo h r s
  | .xend h => Sys2Proof.Machine.execXend h s
  | .tend h => Sys2Proof.Machine.execTend h s
  | .safept h cslot lmx => Sys2Proof.Machine.execSafept h cslot lmx s
  | .trap h code => Sys2Proof.Machine.execTrap h code s
  | .brk h code => Sys2Proof.Machine.execBrk h code s
  | .trypop h d q p => Sys2Proof.Machine.execTrypop h d q p s
  | .trypush h q a p => Sys2Proof.Machine.execTrypush h q a p s
  | .pushb h q p m => Sys2Proof.Machine.execPushb h q p m s
  | .send h d a => Sys2Proof.Machine.execSend h d a s
  | .vsend h d a => Sys2Proof.Machine.execVsend h d a s
  | .clrp h r => Sys2Proof.Machine.execClrp h r s
  | .ll h m => Sys2Proof.Machine.execLl h m s
  | .ls h m => Sys2Proof.Machine.execLs h m s
  | .ld h m => Sys2Proof.Machine.execLd h m s
  | .st h m => Sys2Proof.Machine.execSt h m s
  | .ldc h m => Sys2Proof.Machine.execLdc h m s
  | .ldfe h m => Sys2Proof.Machine.execLdfe h m s
  | .stfe h m => Sys2Proof.Machine.execStfe h m s
  | .tryldfe h m => Sys2Proof.Machine.execTryldfe h m s
  | .trystfe h m => Sys2Proof.Machine.execTrystfe h m s
  | .atadd h m => Sys2Proof.Machine.execAtadd h m s
  | .atmin h m => Sys2Proof.Machine.execAtmin h m s
  | .atmax h m => Sys2Proof.Machine.execAtmax h m s
  | .ator h m => Sys2Proof.Machine.execAtor h m s
  | .atand h m => Sys2Proof.Machine.execAtand h m s
  | .axadd h m => Sys2Proof.Machine.execAxadd h m s
  | .axmin h m => Sys2Proof.Machine.execAxmin h m s
  | .axmax h m => Sys2Proof.Machine.execAxmax h m s
  | .axor h m => Sys2Proof.Machine.execAxor h m s
  | .axand h m => Sys2Proof.Machine.execAxand h m s
  | .axchg h m => Sys2Proof.Machine.execAxchg h m s
  | .acas h m => Sys2Proof.Machine.execAcas h m s
  | .fence h scope => Sys2Proof.Machine.execFence h scope s
  | .rel h scope => Sys2Proof.Machine.execRel h scope s
  | .acq h scope => Sys2Proof.Machine.execAcq h scope s
  | .fenceAx h scope => Sys2Proof.Machine.execFenceAx h scope s
  | .dst h m => Sys2Proof.Machine.execDst h m s
  | .rdsum h m => Sys2Proof.Machine.execRdsum h m s
  | .cuta h => Sys2Proof.Machine.execCuta h s
  | .cutw h => Sys2Proof.Machine.execCutw h s
  | .cutst h d => Sys2Proof.Machine.execCutst h d s
  | .cpy h c => Sys2Proof.Machine.execCpy h c s
  | .nmc h gr acq rel scope => Sys2Proof.Machine.execNmc h gr acq rel scope s
  | .nfence h scope => Sys2Proof.Machine.execNfence h scope s
  | .barinit h bid scope => Sys2Proof.Machine.execBarinit h bid scope s
  | .barinitDom h bid gm anc => Sys2Proof.Machine.execBarinitDom h bid gm anc s
  | .bararr h bid opc v => Sys2Proof.Machine.execBararr h bid opc v s
  | .barwait h bid d res => Sys2Proof.Machine.execBarwait h bid d res s
  | .xsend h d src slot => Sys2Proof.Machine.execXsend h d src slot s
  | .xsendLm h d src slot off => Sys2Proof.Machine.execXsendLm h d src slot off s
  | .xbar h => Sys2Proof.Machine.execXbar h s
  | .qpost h qpn ge acq rel scope => Sys2Proof.Machine.execQpost h qpn ge acq rel scope s
  | .qtrig h cnt g scope => Sys2Proof.Machine.execQtrig h cnt g scope s
  | .qwait h cnt g scope => Sys2Proof.Machine.execQwait h cnt g scope s
  | .launch h a => Sys2Proof.Machine.execLaunch h a s
  | .wloc h d a scope => Sys2Proof.Machine.execWloc h d a scope s
  | .mfsv h g n => Sys2Proof.Machine.execMfsv h g n s
  | .mtsv h g n => Sys2Proof.Machine.execMtsv h g n s
  | .rft h => Sys2Proof.Machine.execRft h s
  | .waiti h => Sys2Proof.Machine.execWaiti h s
  | .tlbinvPage h gv gs wait => Sys2Proof.Machine.execTlbinvPage h gv gs wait s
  | .tlbinvSpace h gs wait => Sys2Proof.Machine.execTlbinvSpace h gs wait s
  | .tlbinvAll h wait => Sys2Proof.Machine.execTlbinvAll h wait s
  | .vadd h f => Sys2Proof.Machine.execVadd h f s
  | .vsub h f => Sys2Proof.Machine.execVsub h f s
  | .vmul h f => Sys2Proof.Machine.execVmul h f s
  | .vfma h f => Sys2Proof.Machine.execVfma h f s
  | .vfms h f => Sys2Proof.Machine.execVfms h f s
  | .vmin h f => Sys2Proof.Machine.execVmin h f s
  | .vmax h f => Sys2Proof.Machine.execVmax h f s
  | .vabs h f => Sys2Proof.Machine.execVabs h f s
  | .vneg h f => Sys2Proof.Machine.execVneg h f s
  | .viadd h f => Sys2Proof.Machine.execViadd h f s
  | .visub h f => Sys2Proof.Machine.execVisub h f s
  | .vimul h f => Sys2Proof.Machine.execVimul h f s
  | .vimin h f => Sys2Proof.Machine.execVimin h f s
  | .vimax h f => Sys2Proof.Machine.execVimax h f s
  | .viabs h f => Sys2Proof.Machine.execViabs h f s
  | .vineg h f => Sys2Proof.Machine.execVineg h f s
  | .viadds h f => Sys2Proof.Machine.execViadds h f s
  | .visubs h f => Sys2Proof.Machine.execVisubs h f s
  | .vcmpeq h f => Sys2Proof.Machine.execVcmpeq h f s
  | .vcmpne h f => Sys2Proof.Machine.execVcmpne h f s
  | .vcmplt h f => Sys2Proof.Machine.execVcmplt h f s
  | .vcmple h f => Sys2Proof.Machine.execVcmple h f s
  | .vcmpun h f => Sys2Proof.Machine.execVcmpun h f s
  | .vsel h f => Sys2Proof.Machine.execVsel h f s
  | .vand h f => Sys2Proof.Machine.execVand h f s
  | .vor h f => Sys2Proof.Machine.execVor h f s
  | .vxor h f => Sys2Proof.Machine.execVxor h f s
  | .vandn h f => Sys2Proof.Machine.execVandn h f s
  | .vshl h f => Sys2Proof.Machine.execVshl h f s
  | .vshr h f => Sys2Proof.Machine.execVshr h f s
  | .vsar h f => Sys2Proof.Machine.execVsar h f s
  | .vcvt h f => Sys2Proof.Machine.execVcvt h f s
  | .vcvtEf h f => Sys2Proof.Machine.execVcvtEf h f s
  | .vmxdot h f => Sys2Proof.Machine.execVmxdot h f s
  | .vredsum h f => Sys2Proof.Machine.execVredsum h f s
  | .vredmax h f => Sys2Proof.Machine.execVredmax h f s
  | .vperm h f => Sys2Proof.Machine.execVperm h f s
  | .vbcast h f => Sys2Proof.Machine.execVbcast h f s
  | .vbcastElement h f => Sys2Proof.Machine.execVbcastElement h f s
  | .vslide h f => Sys2Proof.Machine.execVslide h f s
  | .vmov h f => Sys2Proof.Machine.execVmov h f s
  | .vmovPredicate h f => Sys2Proof.Machine.execVmovPredicate h f s
  | .vll h m => Sys2Proof.Machine.execVll h m s
  | .vls h m => Sys2Proof.Machine.execVls h m s
  | .vrand h f => Sys2Proof.Machine.execVrand h f s
  | .kset h f => Sys2Proof.Machine.execKset h f s
  | .vexp2 h f => Sys2Proof.Machine.execVexp2 h f s
  | .vlog2 h f => Sys2Proof.Machine.execVlog2 h f s
  | .vrcp h f => Sys2Proof.Machine.execVrcp h f s
  | .vrsqrt h f => Sys2Proof.Machine.execVrsqrt h f s
  | .vsqrt h f => Sys2Proof.Machine.execVsqrt h f s
  | .prange h f => Sys2Proof.Machine.execPrange h f s
  | .vlen h f => Sys2Proof.Machine.execVlen h f s
  | .vstat h f => Sys2Proof.Machine.execVstat h f s
  | .vstatPredicate h f => Sys2Proof.Machine.execVstatPredicate h f s
  | .vclrf h f => Sys2Proof.Machine.execVclrf h f s
  | .tcfg h t sr => Sys2Proof.Machine.execTcfg h t sr s
  | .tstat h t sr => Sys2Proof.Machine.execTstat h t sr s
  | .tstatBank h bk sr => Sys2Proof.Machine.execTstatBank h bk sr s
  | .tclr h t m => Sys2Proof.Machine.execTclr h t m s
  | .tclrBank h bk m => Sys2Proof.Machine.execTclrBank h bk m s
  | .tldl h t sr off => Sys2Proof.Machine.execTldl h t sr off s
  | .tstl h t sr off => Sys2Proof.Machine.execTstl h t sr off s
  | .wld h tw tm sparse => Sys2Proof.Machine.execWld h tw tm sparse s
  | .gmmaF h f => Sys2Proof.Machine.execGmmaF h f s
  | .gmmaB h f => Sys2Proof.Machine.execGmmaB h f s
  | .gmmaO h f => Sys2Proof.Machine.execGmmaO h f s
  | .drain h f => Sys2Proof.Machine.execDrain h f s
  | .drainAdd h f => Sys2Proof.Machine.execDrainAdd h f s
  | .odrain h f => Sys2Proof.Machine.execOdrain h f s
  | .join h f => Sys2Proof.Machine.execJoin h f s
  | .accld h f => Sys2Proof.Machine.execAccld h f s
  | .accst h f => Sys2Proof.Machine.execAccst h f s
  | .acccp h f => Sys2Proof.Machine.execAcccp h f s
  | .csig h t blk => Sys2Proof.Machine.execCsig h t blk s
  | .ctest h sr pd blk => Sys2Proof.Machine.execCtest h sr pd blk s
  | .cstore h t sr blk => Sys2Proof.Machine.execCstore h t sr blk s
  | .csheet h sr n => Sys2Proof.Machine.execCsheet h sr n s
  | .ccfg h sr n => Sys2Proof.Machine.execCcfg h sr n s
  | .sendArrival m => Sys2Proof.Machine.execSendArrival m s
  | .heldSendDelivery core => Sys2Proof.Machine.execHeldSendDelivery core s
  | .barrierArrivalMessage m => Sys2Proof.Machine.execBarrierArrivalMessage m s
  | .xsendLanding m => Sys2Proof.Machine.execXsendLanding m s
  | .write w => Sys2Proof.Machine.execWrite w s
  | .writeReduce w => Sys2Proof.Machine.execWriteReduce w s
  | .invalidationMessage die m => Sys2Proof.Machine.execInvalidationMessage die m s
  | .joinContribution c => Sys2Proof.Machine.execJoinContribution c s
  | .contributionAck gang opId => Sys2Proof.Machine.execContributionAck gang opId s
  | .horizonMessage home die hz last => Sys2Proof.Machine.execHorizonMessage home die hz last s
  | .deferredRecord r => Sys2Proof.Machine.execDeferredRecord r s
  | .recordAck a => Sys2Proof.Machine.execRecordAck a s
  | .recordLost r why => Sys2Proof.Machine.execRecordLost r why s
  | .deviceArrived grp n => Sys2Proof.Machine.execDeviceArrived grp n s
  | .arrive grp n dev ended => Sys2Proof.Machine.execArrive grp n dev ended s
  | .apply grp n => Sys2Proof.Machine.execApply grp n s
  | .applyFinished grp n => Sys2Proof.Machine.execApplyFinished grp n s
  | .report grp n dev st => Sys2Proof.Machine.execReport grp n dev st s
  | .done grp n st last => Sys2Proof.Machine.execDone grp n st last s
  | .cutAbort grp n late => Sys2Proof.Machine.execCutAbort grp n late s
  | .suspend grp n dev => Sys2Proof.Machine.execSuspend grp n dev s
  | .resume grp n dev => Sys2Proof.Machine.execResume grp n dev s
  | .pullReadRequest lpa peer => Sys2Proof.Machine.execPullReadRequest lpa peer s
  | .launchAccept sb idx => Sys2Proof.Machine.execLaunchAccept sb idx s
  | .pass m => Sys2Proof.Machine.execPass m s
  | .go m => Sys2Proof.Machine.execGo m s
  | .fault m => Sys2Proof.Machine.execFault m s
  | .groupStart run group => Sys2Proof.Machine.execGroupStart run group s
  | .start m => Sys2Proof.Machine.execStart m s
  | .abortReport m => Sys2Proof.Machine.execAbortReport m s
  | .abort m => Sys2Proof.Machine.execAbort m s
  | .preemptionRequest run cls => Sys2Proof.Machine.execPreemptionRequest run cls s
  | .codeStore core slot w => Sys2Proof.Machine.execCodeStore core slot w s
  | .mailboxPlacement core => Sys2Proof.Machine.execMailboxPlacement core s
  | .controlMessageResend id => Sys2Proof.Machine.execControlMessageResend id s
  | .taskEnd core => Sys2Proof.Machine.execTaskEnd core s
  | .safepointOverdue core => Sys2Proof.Machine.execSafepointOverdue core s
  | .copyElement core ch => Sys2Proof.Machine.execCopyElement core ch s
  | .clipBoxMessage core ch => Sys2Proof.Machine.execClipBoxMessage core ch s
  | .copyComplete core ch => Sys2Proof.Machine.execCopyComplete core ch s
  | .nmcGranule id => Sys2Proof.Machine.execNmcGranule id s
  | .nmcComplete id => Sys2Proof.Machine.execNmcComplete id s
  | .barStall core => Sys2Proof.Machine.execBarStall core s
  | .xbarRelease run group => Sys2Proof.Machine.execXbarRelease run group s
  | .qpEntryStart qp => Sys2Proof.Machine.execQpEntryStart qp s
  | .srcReuse qp => Sys2Proof.Machine.execSrcReuse qp s
  | .localDone qp => Sys2Proof.Machine.execLocalDone qp s
  | .allDone qp => Sys2Proof.Machine.execAllDone qp s
  | .invalidationComplete id => Sys2Proof.Machine.execInvalidationComplete id s
  | .gangTimeout core => Sys2Proof.Machine.execGangTimeout core s
  | .joinOpen gang => Sys2Proof.Machine.execJoinOpen gang s
  | .joinTimeout gang => Sys2Proof.Machine.execJoinTimeout gang s
  | .drainAddTimeout gang => Sys2Proof.Machine.execDrainAddTimeout gang s
  | .pendingResultWritten core id => Sys2Proof.Machine.execPendingResultWritten core id s
  | .homeWriteApply id => Sys2Proof.Machine.execHomeWriteApply id s
  | .homeLoadAnswer id => Sys2Proof.Machine.execHomeLoadAnswer id s
  | .retryBackoff id => Sys2Proof.Machine.execRetryBackoff id s
  | .feStall core => Sys2Proof.Machine.execFeStall core s
  | .skewTimerExpiry grp n => Sys2Proof.Machine.execSkewTimerExpiry grp n s
  | .cuthold w v => Sys2Proof.Machine.execCuthold w v s
  | .lport w v => Sys2Proof.Machine.execLport w v s
  | .labort w v => Sys2Proof.Machine.execLabort w v s
  | .xcl w v => Sys2Proof.Machine.execXcl w v s
  | .deal run cores free => Sys2Proof.Machine.execDeal run cores free s
  | .launchRetire run => Sys2Proof.Machine.execLaunchRetire run s
  | .contextSave run => Sys2Proof.Machine.execContextSave run s
  | .resumption run => Sys2Proof.Machine.execResumption run s
  | .cldctlGo w v => Sys2Proof.Machine.execCldctlGo w v s
  | .codeLoadComplete => Sys2Proof.Machine.execCodeLoadComplete s
  | .svabort core => Sys2Proof.Machine.execSvabort core s
  | .errorClass core => Sys2Proof.Machine.execErrorClass core s
  | .errsw w v => Sys2Proof.Machine.execErrsw w v s
  | .errcorr => Sys2Proof.Machine.execErrcorr s
  | .errlost => Sys2Proof.Machine.execErrlost s
  | .portstat => Sys2Proof.Machine.execPortstat s
  | .qcclr w v => Sys2Proof.Machine.execQcclr w v s
  | .mbpost w v => Sys2Proof.Machine.execMbpost w v s
  | .registerWrite w n v => Sys2Proof.Machine.execRegisterWrite w n v s
  | .debugHalt a x => Sys2Proof.Machine.execDebugHalt a x s
  | .debugResume a x => Sys2Proof.Machine.execDebugResume a x s
  | .debugStep a x => Sys2Proof.Machine.execDebugStep a x s
  | .dbgdata w v => Sys2Proof.Machine.execDbgdata w v s
  | .dbgiw w v => Sys2Proof.Machine.execDbgiw w v s
  | .islfreq w v => Sys2Proof.Machine.execIslfreq w v s
  | .islandCapChange cl mhz => Sys2Proof.Machine.execIslandCapChange cl mhz s
  | .reelctlGo w v => Sys2Proof.Machine.execReelctlGo w v s
  | .reelEnd => Sys2Proof.Machine.execReelEnd s
  | .hostWindowAccess off len data => Sys2Proof.Machine.execHostWindowAccess off len data s
  | .status q => Sys2Proof.Machine.execStatus q s
  | .errread q idx n => Sys2Proof.Machine.execErrread q idx n s
  | .flashwr q data => Sys2Proof.Machine.execFlashwr q data s
  | .flashsel q => Sys2Proof.Machine.execFlashsel q s
  | .reset q => Sys2Proof.Machine.execReset q s
  | .msg q => Sys2Proof.Machine.execMsg q s
  | .moduleReset => Sys2Proof.Machine.execModuleReset s
  | .linkRetry port drop => Sys2Proof.Machine.execLinkRetry port drop s
  | .errorCorrected kind => Sys2Proof.Machine.execErrorCorrected kind s
  | .sramUncorrectable core kind index => Sys2Proof.Machine.execSramUncorrectable core kind index s
  | .resultLands core x => Sys2Proof.Machine.execResultLands core x s
  | .gangInstructionComplete gang => Sys2Proof.Machine.execGangInstructionComplete gang s
  | .portUpChange port lanes up => Sys2Proof.Machine.execPortUpChange port lanes up s

end Sys2Proof.Machine
end

