-- ==== Sys2Proof/Machine/Sched.lean ====
section
/-! DEFINITION. What may move next beside the streams: messages in flight, events, LM stores, time and bring-up; and which of
them moves where the schedule names none (01 R21, R24; 19 R427, R429). -/

namespace Sys2Proof.Machine

/-! ### Messages in flight -/

/-- A control message of the kinds that 19 R429 names. -/
def isControl : Instr → Bool
  | .pass .. | .go .. | .fault .. | .abortReport .. | .abort .. | .barrierArrivalMessage .. | .arrive .. | .apply .. | .report ..
  | .done .. | .cutAbort .. | .suspend .. | .resume .. => true
  | _ => false

/-- The channel on which a message keeps its order: source and destination core and plane (01 R21), control messages between two
devices (19 R429), code stores and START to one core (17 R380). -/
def channel (m : Instr) : Option (Nat × Nat × Nat) :=
  if isControl m then some (4, 0, 0)
  else
    match m with
    | .sendArrival x => some (1, x.ctx.core, x.dst)
    | .codeStore n _ _ => some (2, 0, n)
    | .start m => some (2, 0, m.core)
    | .xsendLanding x => some (3, x.ctx.core, x.dst)
    | .joinContribution c => some (5, c.src, c.dst)
    | _ => none

/-- Whether a message that has travelled far enough can be acted on; it waits otherwise (06 R159, 13 R331, 07 R172, 11 R305). -/
def State.deliverable (s : State) (m : Instr) : Bool :=
  match m with
  | .sendArrival x => !(s.awaits x.dst x.run x.wid && s.behindHeld x)
  | .xsendLanding x => decide (x.lands ≤ s.dcyc)
  | .horizonMessage home die _ last => decide (last ≤ tget 0 (64 * home + die) s.chain)
  | .joinContribution c => s.noTarget c || (s.gang c.dst).join.isSome
  | _ => true

/-- Whether message `k` may arrive now: it is deliverable, and none sent earlier on its channel is still in flight. -/
def State.mayDeliver (s : State) (k : Nat) : Bool :=
  match s.agenda[k]? with
  | some m => s.deliverable m && !(s.agenda.take k).any (fun e => channel m != none && channel e == channel m)
  | none => false

/-- Message `k` in flight arrives. -/
def deliverTurn (k : Nat) (s : State) : Out :=
  match s.agenda[k]? with
  | some m => if s.mayDeliver k then exec m { s with agenda := s.agenda.eraseIdx k } else .next s
  | none => .next s

/-! ### Events -/

/-- What an event turn may name: no instruction, which only a stream issues, no message between parts of this device, which
arrives from those in flight, and no control message, which arrives with its number; a code store of the load in progress comes
in order (17 R381). -/
def State.mayHappen (s : State) (i : Instr) : Bool :=
  i.side == .event && !isControl i && (match i with
    | .sendArrival .. => false
    | .xsendLanding .. => false
    | .horizonMessage .. => false
    | .invalidationMessage .. => false
    | .joinContribution .. => false
    | .contributionAck .. => false
    | .start .. => false
    | .codeStore n slot w =>
      w.2 && s.load.any (fun l => let k := tget 0 n l.left; slot == l.first + k && l.words[k]? == some w.1)
    | _ => true)

/-- An event attempted. -/
def eventTurn (i : Instr) (s : State) : Out := if s.mayHappen i then exec i s else .next s

/-! ### Time, LM stores, bring-up, acknowledgements -/

/-- The counts of a gang that a debugger or a save stops, moved on by the cycles that core `n` passes (11 R286, R307). -/
def State.holdCounts (s : State) (n k : Nat) : State :=
  let gn := gangOf n
  let first := n % 8 == 0
  let held := s.gangPaused gn
  let join := first && s.joinPaused gn
  let drain := first && s.drainPaused gn
  if isHub n || !(held || join || drain) then s
  else
    let g := s.gang gn
    let since (a : Arrival) : Arrival := { a with since := a.since + k }
    s.setGang gn { g with
      arrivals := if held then g.arrivals.map (fun e => if e.1 = n % 8 then (e.1, e.2.map since) else e) else g.arrivals,
      join := if join then g.join.map (fun (j : OpenJoin) => { j with opened := j.opened + k }) else g.join,
      queue := if drain then g.queue.map (fun (o : GangOp) => { o with sent := o.sent.map (· + k) }) else g.queue }

/-- Core `n` at the start of island cycle `t`. -/
def State.coreAt (s : State) (n t : Nat) : State :=
  let k := t - (s.core n).cyc
  (s.holdCounts n k).setCore n ((s.core n).at' t)

/-- Router cycles pass, and on each core as many island cycles (00 R5, 05 R110). -/
def tickTurn (k : Nat) (s : State) : Out :=
  .next ((s.cores.map Prod.fst).foldl (fun s n => s.coreAt n ((s.core n).cyc + k)) { s with dcyc := s.dcyc + k })

/-- The oldest LM store of a stream applied (07 R168). -/
def drainTurn (n : Nat) (x : Bool) (s : State) : Out := .next (s.setCore n ((s.core n).lmDrain1 x))

/-- The next bring-up stage entered (19 R427). -/
def bringUpTurn (s : State) : Out := .next (if s.stage < 7 then s.enterStage (s.stage + 1) else s)

/-- Another device has acknowledged a control message (19 R429). -/
def ackedTurn (id : Nat) (s : State) : Out := .next { s with ctl := s.ctl.filter (fun m => m.id != id) }

/-- A message put among others, in ascending order of their numbers. -/
def byNumber (k : Nat) (i : Instr) : List (Nat × Instr) → List (Nat × Instr)
  | [] => [(k, i)]
  | (j, m) :: t => if k < j then (k, i) :: (j, m) :: t else (j, m) :: byNumber k i t

/-- Of messages in ascending order, those whose turn it is when `next` is to be acted on next and the sender holds none below `low`,
with what is then next and the messages that go on waiting. -/
def inOrder (low : Nat) : Nat → List (Nat × Instr) → List Instr × Nat × List (Nat × Instr)
  | next, [] => ([], max next low, [])
  | next, (k, i) :: t =>
    if k < low ∨ k = max next low then
      let (is, n, rest) := inOrder low (k + 1) t
      (i :: is, n, rest)
    else ([], max next low, (k, i) :: t)

/-- A control message of another device arrives (19 R429): each copy is acknowledged; the first is acted on, in the order in which the
messages were sent, so one that comes before an earlier one waits for it, unless the earlier one is lost (notes/assumptions/83). -/
def arriveTurn (peer num low : Nat) (i : Instr) (s : State) : Out :=
  if !isControl i || peer == s.peerid then .next s
  else
    let t := { s with acks := s.acks ++ [(peer, num)] }
    let mine := (s.ahead.filter (fun e => e.1 == peer)).map Prod.snd
    if num < tget 0 peer s.heard || mine.any (fun e => e.1 == num) then .next t
    else
      let (is, next, rest) := inOrder (min low num) (tget 0 peer s.heard) (byNumber num i mine)
      .next { t with agenda := t.agenda ++ is, heard := tput 0 peer next t.heard,
                     ahead := t.ahead.filter (fun e => e.1 != peer) ++ rest.map (fun e => (peer, e)) }

/-! ### The model's own choice where the schedule is empty -/

/-- Events of one core that could be due. -/
def Core.events (c : Core) (n : Nat) : List (State → Out) :=
  (c.pends.filter (fun p => p.outs.all (fun o => o.2.isSome))).map (fun p => execPendingResultWritten n p.id) ++
  c.copies.flatMap (fun e => if e.2.isSome then [execCopyElement n e.1, execClipBoxMessage n e.1, execCopyComplete n e.1] else []) ++
  (if c.held = [] then [] else [execHeldSendDelivery n]) ++ (if c.heldMail = [] then [] else [execMailboxPlacement n]) ++
  (if c.task.any Task.ending then [execTaskEnd n] else []) ++
  (if c.x.stage == .gangArrived then [execGangTimeout n] else [])

/-- Events of one gang that could be due. -/
def Gang.events (g : Gang) (n : Nat) : List (State → Out) :=
  (if g.queue = [] then [] else [execGangInstructionComplete n, execJoinOpen n, execDrainAddTimeout n]) ++
  (if g.join.isSome then [execJoinTimeout n] else [])

/-- The cores of one member in each unit inside unit `u` of level `b` that has room for it, unit by unit of the highest bound
level (02 R39). -/
def roomsIn (ls : List TreeLevel) (barred : Nat → Bool) : Nat → Nat → List (List Nat)
  | 0, u => if barred u then [] else [[u]]
  | 1, u => if barred u then [] else [[u]]
  | b + 1, u =>
    let below := (upFrom (fanOut (b + 1) * u) (fanOut (b + 1))).flatMap (roomsIn ls barred b)
    let e := membersAt ls (bindBelow ls b)
    if !hasLevel ls (b + 1) then below else if e ≤ below.length then [(below.take e).foldl (· ++ ·) []] else []

/-- Cores that a group could be put on, one list for each way that the model tries: the next free units in their order, or the
places that a sheet names from each unit on (02 R39, 13 R323). -/
def State.coreChoices (s : State) (r : Run) (barred : Nat → Bool) : List (List Nat) :=
  let ls := r.levels
  let js := localTasks ls r.d r.dIdx (groupNo ls r.d r.dIdx r.dealt)
  if r.sheet.isSome then
    let size := topSize r.bindH
    let perDie := max 1 (prodExt ls (levelsWhere ls (fun l => l.bind != 0 && decide (l.bind < 4))))
    s.dies.flatMap (fun d => (upFrom 0 (1024 / size)).map (fun u => js.map (fun j =>
      if r.bindH = 4 then 1024 * (d + j / perDie) + sheetPos ls j % 1024 else 1024 * d + size * u + sheetPos ls j)))
  else
    let rooms := s.dies.flatMap (roomsIn ls barred 4)
    let e := membersAt ls (bindBelow ls 4) * r.spread r.dealt
    [(rooms.take e).foldl (· ++ ·) []]

/-- The first of the choices that holds idle cores only and meets R39 and R323. -/
def State.chooseCores (s : State) (r : Run) : List Nat :=
  let busy := s.busyCores
  let out (n : Nat) : Bool := r.barred busy n || r.inPlace n || r.pinned n
  ((s.coreChoices r out).find? (fun l => l.all (fun n => s.ownCore n && !out n) && r.fitsOn r.dealt l)).getD []

/-- Events of one launch that could be due. -/
def State.launchEvents (s : State) (r : Run) : List (State → Out) :=
  if r.retired || r.aborted then []
  else
    (if s.dealable r then [execDeal r.id (s.chooseCores r) (s.freePlaces r (r.barred s.busyCores))] else []) ++
    ((r.places.filter (fun p => !p.started)).map (fun p => execGroupStart r.id p.current)) ++
    (s.xgroups.filter (fun x => x.run == r.id)).map (fun x => execXbarRelease x.run x.group) ++
    [execDeviceArrived r.cgrp (s.nextCut r.id), execApplyFinished r.cgrp (s.nextCut r.id), execLaunchRetire r.id, execContextSave r.id,
     execResumption r.id] ++ (s.asking.map Run.cls).eraseDups.map (execPreemptionRequest r.id)

/-- The next code store of a load in progress (17 R381). -/
def State.loadEvents (s : State) : List (State → Out) :=
  match s.load with
  | some l =>
    match s.allCores.find? (fun n => decide (tget 0 n l.left < l.count)) with
    | some n => let k := tget 0 n l.left; [execCodeStore n (l.first + k) (l.words.getD k 0, true)]
    | none => [execCodeLoadComplete]
  | none => []

/-- The events that could be due, in the order in which the model tries them. -/
def State.dueEvents (s : State) : List (State → Out) :=
  s.reqs.flatMap (fun r => match r.st with
    | .flight => [execHomeWriteApply r.id, execHomeLoadAnswer r.id]
    | .backoff _ => [execRetryBackoff r.id]
    | .listed => []) ++
  s.cores.flatMap (fun e => e.2.events e.1) ++ s.gangs.flatMap (fun e => e.2.events e.1) ++
  s.nmcs.flatMap (fun c => [execNmcGranule c.id, execNmcComplete c.id]) ++
  (s.qps.map Prod.fst).flatMap (fun q => [execQpEntryStart q, execSrcReuse q, execLocalDone q, execAllDone q]) ++
  s.invals.map (fun v => execInvalidationComplete v.id) ++
  s.runs.flatMap s.launchEvents ++
  s.stories.flatMap (fun y => ((upFrom 0 y.launches.length).filter (fun i => y.launches.getD i .skipped == .waiting)).map
    (fun i => execLaunchAccept y.id i)) ++ s.roots.map (fun q => execSkewTimerExpiry q.group q.n) ++ s.loadEvents ++
  (if s.reel.isSome then [execReelEnd] else [])

/-- The first event that changes the state. -/
def firstEvent (s : State) : List (State → Out) → Option State
  | [] => none
  | e :: es =>
    match e s with
    | .next t => if t = s then firstEvent s es else some t
    | _ => firstEvent s es

/-- The stream that can issue earliest, with its cycle. -/
def State.earliest (s : State) : Option (Nat × Nat × Bool) :=
  let cands := s.cores.flatMap (fun e =>
    (if e.2.mayIssue false then [(e.2.issueAt false, e.1, false)] else []) ++
    (if e.2.mayIssue true then [(e.2.issueAt true, e.1, true)] else []))
  cands.foldl (fun a c => match a with
    | some b => if c.1 < b.1 then some c else some b
    | none => some c) none

/-- A stream with an LM store that waits to be applied. -/
def State.toDrain (s : State) : Option (Nat × Bool) :=
  (s.cores.flatMap (fun e => (if e.2.a.lmq = [] then [] else [(e.1, false)]) ++ (if e.2.x.lmq = [] then [] else [(e.1, true)]))).head?

end Sys2Proof.Machine
end

