-- ==== Sys2Proof/Machine/Turn.lean ====
section
/-! DEFINITION. One turn of the machine: a stream issues the instruction it fetches, or another agent moves. -/

namespace Sys2Proof.Machine

/-! ### Fetching (06 R147, 19 R421) -/

/-- The instruction word at the program counter of a compute core's stream (06 R147). -/
def State.fetch (s : State) (n : Nat) (x : Bool) : BitVec 96 :=
  tget 0 ((s.core n).stream x).pc (s.core n).code

/-- Task-level code may not be fetched from slot 3,840 on (06 R147). -/
def State.slotBarred (s : State) (n : Nat) (x : Bool) : Bool :=
  !isHub n && decide ((s.core n).level = .t) && decide (Config.svSlot ≤ ((s.core n).stream x).pc)

/-- A word issued: one that decodes to nothing traps ILLEGAL (05 R131 step 1). -/
def issueWord (w : Nat) (s : State) : Out :=
  match decode w with
  | none => trap 0x01 0 0 0 s
  | some i => exec i (s.ordered i)

/-- The fetch of a Welwick core (19 R421; 18 R393, R399): 16 bytes at its PC, whose last four must be zero. -/
def hubFetch (s : State) : Out :=
  let va := 16 * s.st.pc
  withPage va true false s fun t s =>
    let pa := t.addr va
    if paPeer pa ≠ s.peerid then trap 0x14 0 0 va s
    else if !s.covers (homeOf (paLocal pa)) (s.vecOf Config.hubDie) then stall s
    else
      let (v, s) := s.homeGet 0 (s.ctxOf s.cur.core) false va (paLocal pa) 16
      if v / 2 ^ 96 ≠ 0 then trap 0x01 0 0 0 s else issueWord (v % 2 ^ 96) s

/-- The state with a stream about to issue in the cycle it can first issue in (05 R114). -/
def State.atIssue (s : State) (n : Nat) (x : Bool) : State :=
  { s with cur := { core := n, x := x } }.coreAt n ((s.core n).issueAt x)

/-! ### Writes of one cycle (16 R359, 17 R376) -/

/-- The instruction that the A-stream of a core is to issue next. -/
def State.nextInstr (s : State) (n : Nat) : Option Instr :=
  if !isHub n then decode (s.fetch n false).toNat
  else
    let va := 16 * (s.core n).a.pc
    match reach (s.asker n) va true false (s.translateFor n va) with
    | (.page t, _) => decode (s.memRd (paLocal (t.addr va)) 12)
    | _ => none

/-- Whether a write of core `m` comes before one of core `n` in their cycle: writes of one device register in ascending core number
(16 R359), and at the launch unit LPORT, then LAUNCH in ascending core number (17 R376). -/
def writesFirst (m : Nat) (j : Instr) (n : Nat) (i : Instr) : Bool :=
  match j, i with
  | .mtsv _ _ a, .mtsv _ _ b => svDevice a.toNat && a == b && decide (m < n)
  | .mtsv _ _ a, .launch .. => a == 0x200
  | .launch .., .launch .. => decide (m < n)
  | _, _ => false

/-- The core whose A-stream writes first in the cycle in which that of core `n` is to issue: `n` itself where none precedes it. -/
def State.foremost (s : State) (n : Nat) : Nat :=
  let t := (s.core n).issueAt false
  let go (p : Nat × Option Instr) (m : Nat) : Nat × Option Instr :=
    match p.2 with
    | none => p
    | some i =>
      if !(s.core m).runnable false || (s.core m).issueAt false != t then p
      else
        match s.nextInstr m with
        | some j => if writesFirst m j p.1 i then (m, some j) else p
        | none => p
  ((s.cores.map Prod.fst).foldl go (n, (s.nextInstr n).filter (fun i => match i with
    | .mtsv _ _ a => svDevice a.toNat
    | .launch .. => true
    | _ => false))).1

/-! ### The turn of a stream -/

/-- A stream that a step or a BRK has halted stops its task's watchdog (17 R391). -/
def watchHalt (n : Nat) (o : Out) : Out :=
  match o with
  | .next t => if (t.core n).a.halted || (t.core n).x.halted then .next (t.setCore n (t.core n).stopWatch) else .next t
  | o => o

/-- A stream issues (05 R131); before an A-stream instruction an error class or an overdue safe point traps
(16 R369, R374; 06 R162). -/
def issueOn (n : Nat) (x : Bool) (s : State) : Out :=
  if !(s.core n).mayIssue x then .next s
  else
    let t := s.atIssue n x
    watchHalt n (if !x && (t.errorDue n).isSome then execErrorClass n t
      else if !x && t.overdue n then execSafepointOverdue n t
      else if isHub n then hubFetch t
      else if s.slotBarred n x then trap 0x03 0 0 ((s.core n).stream x).pc t
      else issueWord (s.fetch n x).toNat t)

/-- The turn of a stream: where another core's write comes first in its cycle, the turn is that core's. -/
def issueTurn (n : Nat) (x : Bool) (s : State) : Out :=
  if x then issueOn n true s
  else
    let m := s.foremost n
    if m = n then issueOn n false s else issueOn m (!(s.core m).mayIssue false) s

/-! ### Turns -/

/-- The turn where the schedule is empty: Ngupor's bring-up stages, a message, an event, an LM store, the earliest stream, or else
a cycle passes. -/
def autoTurn (s : State) : Out :=
  if s.stage < 3 then bringUpTurn s
  else
    match (upFrom 0 s.agenda.length).find? s.mayDeliver with
    | some k => deliverTurn k s
    | none =>
      match firstEvent s s.dueEvents with
      | some t => .next t
      | none =>
        match s.toDrain with
        | some (n, x) => drainTurn n x s
        | none =>
          match s.earliest with
          | some (t, n, x) => if t ≤ s.dcyc then issueTurn n x s else .next { s with dcyc := s.dcyc + 1 }
          | none => .next { s with dcyc := s.dcyc + 1 }

/-- A turn taken. -/
def takeTurn (u : Turn) (s : State) : Out :=
  match u with
  | .issue n x => issueTurn n x s
  | .event i => eventTurn i s
  | .deliver k => deliverTurn k s
  | .drain n x => drainTurn n x s
  | .tick k => tickTurn k s
  | .bringUp => bringUpTurn s
  | .acked id => ackedTurn id s
  | .arrive peer num low i => arriveTurn peer num low i s
  | .hostRead n => readEvent n s
  | .damage w => damageTurn w s

/-- The next turn: that of the schedule, or the model's own choice. -/
def turn (s : State) : Out :=
  match s.schedule with
  | u :: us => takeTurn u { s with schedule := us }
  | [] => autoTurn s

/-- A turn that made an engine or a walk name memory that no stack holds ends in a fault (19 R414). -/
def checkHole : Out → Out
  | .next s => match s.hole with
    | some a => .fault (.noSuchMemory a)
    | none => .next s
  | o => o

/-- Core 0 made ready to fetch a word at slot 0 next, in the A-stream, or in the X-stream where only it executes the word's OP. -/
def State.placeWord (s : State) (w : Nat) : State :=
  let op := fld w 88 8
  let x := op == 0xBF || (decide (0x80 ≤ op) && decide (op ≤ 0xC8)) || (op == 0x23 && fld w 80 8 == 2) ||
    (op == 0x31 && fld w 80 8 == 1)
  let c := s.core 0
  let st := { c.stream x with pc := 0, run := true, halted := false }
  { s.setCore 0 ({ c with code := tput 0 0 (BitVec.ofNat 96 w) c.code }.setStream x st) with schedule := [.issue 0 x] }

end Sys2Proof.Machine
end

