-- ==== Sys2Proof/Machine/Step.lean ====
section
/-! DEFINITION. The step of the machine, and how an instruction is placed for the next step. -/

namespace Sys2Proof.Machine

/-- One step: the next turn, and the fault of memory that does not exist. -/
def step (s : State) : Host.Outcome State Fault Refusal := checkHole (turn s)

/-- The state with an instruction word placed where the next step fetches it: slot 0 of core 0, whose stream runs, and the
schedule lets that stream issue next. The word is 96 bits, whatever `nbits` is. -/
def State.withFetchWord (s : State) (_nbits w : Nat) : State := s.placeWord w

end Sys2Proof.Machine
end

