-- ==== Sys2Proof/Safety.lean ====
section
/-! DEFINITION. What a safe run is: no step of it stops, and the memories keep their canonical form; and the terms of the
claims: when an instruction issues, when its needs are met, what a register comes to hold. -/

namespace Sys2Proof.Machine

/-- A step goes on to a next state. -/
def goesOn (s : State) : Prop := ∃ t, step s = .next t

/-- The physical memory of the partition is in canonical form. -/
abbrev Memory.wf (s : State) : Prop := twf 0 s.mem = true

/-- A machine that goes on for `n` steps. -/
def safeFor : Nat → State → Prop
  | 0, _ => True
  | n + 1, s => ∃ t, step s = .next t ∧ safeFor n t

/-- The instruction passes steps 1 to 5 of 05 R131 in the current stream: no trap of steps 1 to 3, no wait for W or for a
pending guard, no early read of it, and the guard holds or is taken lane by lane; or an earlier try has passed steps 4 and 5. -/
abbrev State.issues (s : State) (i : Instr) : Prop :=
  s.refusal i = none ∧ (s.passed = true ∨
    ((i.hdr.w && s.busy) = false ∧ (i.hdr.gpred != 0 && s.me.pendingReg s.cur.x (s.guardReg i.hdr)) = false ∧
     s.tooEarly [s.guardReg i.hdr] = none ∧ (i.perLane || s.guard i.hdr) = true))

/-- Step 6 of 05 R131 is passed: every need is met, and no register is read early. -/
abbrev State.serves (s : State) (n : Needs) : Prop := s.met n = true ∧ s.tooEarly n.reads = none

/-- The value that a pending result has for a register, with the mask under which it is written, if any (05 R109, 10 R251). -/
def Pending.value (p : Pending) (r : Reg) : Option (Option Nat × Nat) :=
  ((p.outs.find? (fun o => o.1 == r)).bind Prod.snd).map (fun v => ((p.masks.find? (fun m => m.1 == r)).map Prod.snd, v))

/-- A core with the fixed-latency results that a stream has outstanding for a register written (05 R107, R108). -/
def Core.landed (c : Core) (x : Bool) (r : Reg) : Core :=
  ((c.stream x).landings.filter (fun l => l.dst == r)).foldl (fun c l => c.setReg l.dst l.mask l.val) c

/-- What a register of a stream holds once every result outstanding for it has been written (05 R107 to R109); p0 reads as
all ones (05 R105). -/
def Core.comes (c : Core) (x : Bool) (r : Reg) : Nat :=
  if r = .pa 0 ∨ r = .px 0 then c.reg r
  else
    match (c.pends.filter (fun p => p.x == x)).findSome? (fun p => p.value r) with
    | some (none, v) => v
    | some (some m, v) => ((c.landed x r).setReg r m v).reg r
    | none => (c.landed x r).reg r

/-- A scalar value has reached a destination of the current stream: a g or s register comes to hold it, a predicate its bit 0
in every bit, and a queue holds it as its newest entry, of which a branch-outcome queue takes bit 0 (05 R105, R111). -/
def State.holds (t : State) (d : Desc) (v : Word) : Prop :=
  match d with
  | .g i => t.me.comes t.cur.x (.g i.toNat) = v.toNat
  | .s i => t.me.comes t.cur.x (.s i.toNat) = v.toNat
  | .p i =>
    if t.cur.x then t.me.comes true (.px i.toNat) = (if i = 0 ∨ v.getLsbD 0 then allOnes else 0)
    else t.me.comes false (.pa i.toNat) = (if i = 0 ∨ v.getLsbD 0 then 1 else 0)
  | .port c => ((t.me.fifo c.toNat).entries.getLast?).map Prod.snd = some (if c.toNat < 2 then v else bw (v.getLsbD 0))
  | _ => True

/-! ### How an instruction leaves its stream -/

/-- The slot that follows the current one where no control is transferred: the next, or where a back edge leads (06 R147, R150);
the back-edge test is suspended at level S (16 R362). -/
def State.nextSlot (s : State) : Nat :=
  (if s.me.level == .s then none else (backEdge s.st.pc s.st.floor s.st.loops).2).getD ((s.st.pc + 1) % s.wrap)

/-- The current stream has completed an instruction without a transfer (05 R114). -/
def State.wentOn (s t : State) (h : Hdr) : Prop :=
  t.cur = s.cur ∧ t.st.pc = s.nextSlot ∧ t.st.ready = s.now + 1 + h.stall.toNat ∧ t.st.stage = .start

/-- The current stream has transferred control to a slot (05 R114). -/
def State.wentTo (s t : State) (h : Hdr) (dest : Nat) : Prop :=
  t.cur = s.cur ∧ t.st.pc = dest ∧ t.st.ready = s.now + 3 + h.stall.toNat ∧ t.st.stage = .start

/-- The current instruction waits: its stream stands where it is and tries again in the next cycle. -/
def State.waited (s t : State) : Prop := t.cur = s.cur ∧ t.st.pc = s.st.pc ∧ t.st.ready = s.now + 1

/-- Only the current core has changed, and the count of identifiers: no memory, no other core, no gang, no device register. -/
def State.onlyMe (s t : State) : Prop :=
  { t with cores := s.cores, nextId := s.nextId } = s ∧ ∀ n, n ≠ s.cur.core → t.core n = s.core n

/-- Of a core nothing has changed but its sequencers, its registers with their pending results, and its queues. -/
def Core.onlyRegs (c d : Core) : Prop :=
  { d with aFrom := c.aFrom, a := c.a, x := c.x, g := c.g, s := c.s, v := c.v, pa := c.pa, px := c.px, presG := c.presG,
           presV := c.presV, pends := c.pends, aq := c.aq, xq := c.xq, bqa := c.bqa, bqx := c.bqx, inbox := c.inbox,
           mail := c.mail } = c ∧
  ∀ x, (d.stream x).lmq = (c.stream x).lmq

/-- Every register but those of a list comes to hold what it would have held. -/
def Core.sameBut (c d : Core) (rs : List Reg) : Prop := ∀ x r, r ∉ rs → d.comes x r = c.comes x r

/-- A register of the current stream comes to hold a value. -/
def State.gets (t : State) (r : Reg) (v : Nat) : Prop := t.me.comes t.cur.x r = v

/-- A descriptor names port `k`. -/
def namesPort (d : Desc) (k : Nat) : Prop := ∃ c, d = .port c ∧ c.toNat = k

/-- The needs of two sources and a destination. -/
def State.needs2 (s : State) (d a b : Desc) : Needs :=
  ((dstNeeds s.cur.x d).and (srcNeeds s.cur.x a)).and (srcNeeds s.cur.x b)

/-- The values of two sources, SA popped before SB (05 R113). -/
def State.takes (s : State) (a b : Desc) : Word × Word := ((s.take a).1, ((s.take a).2.take b).1)

/-! ### Releases, acquires and fences as conditions (07 R172 to R179) -/

/-- A release at a scope need not wait. -/
abbrev State.releases (s : State) (sc : Nat) : Prop := s.st.stage = .released ∨ (s.preRelease sc).relBusy sc = false

/-- The state after such a release. -/
def State.afterRelease (s : State) (sc : Nat) : State :=
  if s.st.stage = .released then s else (s.preRelease sc).postRelease sc

/-! ### Memory accesses -/

/-- The effective address of a family M form (09 R219). -/
def State.addrOf (s : State) (m : MForm) : Nat := ((s.take m.base).1 + m.off.signExtend 64).toNat

/-- The needs of a family M form. -/
def State.needsM (s : State) (m : MForm) (reads writes : List Reg) : Needs := (srcNeeds s.cur.x m.base).and (needs reads writes)

/-- Translation and checks give an access of the current core page `t`, and `u` is the state after them (18 R393, R399). -/
abbrev State.reaches (s : State) (va : Nat) (rd wr : Bool) (t : TlbEntry) (u : State) : Prop :=
  reach (s.asker s.cur.core) va rd wr (s.translateFor s.cur.core va) = (.page t, u)

/-- What an access loads: the low bytes of a number extended to 64 bits (05 R126). -/
def loaded (n : Nat) (sgn : Bool) (v : Nat) : Nat :=
  if sgn then ((BitVec.ofNat (8 * n) v).signExtend 64).toNat else v % 2 ^ (8 * n)

/-- The current stream has a register pending on the answer to the newest request, which is of a kind. -/
def State.awaitsAnswer (t : State) (rs : List Reg) (pa : Nat) (k : ReqKind) : Prop :=
  ∃ r p, t.reqs.getLast? = some r ∧ t.me.pends.getLast? = some p ∧ r.pa = pa ∧ r.kind = k ∧ r.owner = t.meOwner ∧
    r.st = .flight ∧ r.pend = some p.id ∧ p.x = t.cur.x ∧ p.outs = rs.map (fun q => (q, none))

/-- A request to a home has been added, and no other. -/
def State.requests (s t : State) (pa : Nat) (k : ReqKind) : Prop :=
  ∃ r, t.reqs = s.reqs ++ [r] ∧ r.pa = pa ∧ r.kind = k ∧ r.owner = s.meOwner ∧ r.st = .flight

/-! ### Vectors (10 R249 to R253) -/

/-- The needs of a vector form: its sources, the registers it reads and writes, and, where it keeps inactive elements under a
guard other than p0, those it writes as sources too (10 R251). -/
def needsV (h : Hdr) (f : VForm) (keeps : Bool) (reads writes : List Reg) : Needs :=
  (srcsV f).and (needs (reads ++ if keeps && (h.gneg || h.gpred != 0) then writes else []) writes)

/-- A register comes to hold a value in each active lane of `w` bits, and in every other lane what it would have held. -/
def State.getsLanes (s t : State) (r : Reg) (m w : Nat) (val : Nat → Nat) : Prop :=
  ∀ i, i < lanes w → fld (t.me.comes s.cur.x r) (w * i) w =
    if laneOn m w i then val i % 2 ^ w else fld (s.me.comes s.cur.x r) (w * i) w

/-- A predicate comes to hold a truth value in every bit of each active lane, and in every other bit what it would have held. -/
def State.getsBits (s t : State) (r : Reg) (m w : Nat) (val : Nat → Bool) : Prop :=
  ∀ j, j < 128 → bitAt (t.me.comes s.cur.x r) j =
    if laneOn m w (j / (w / 8)) then val (j / (w / 8)) else bitAt (s.me.comes s.cur.x r) j

/-- A counter set has counted the events of some result elements: overflow, infinity, NaN and SR saturation, each counter up to
0xFFFF (04 R100, R101). -/
def counted (old new : Word) (es : List Ev) : Prop :=
  ∀ c, c < 4 → fld new.toNat (16 * c) 16 =
    min 0xFFFF (fld old.toNat (16 * c) 16 + (es.filter (fun e => [e.ovf, e.inf, e.nan, e.srs].getD c false)).length)

/-- VFLAGS has counted the events of some result elements (04 R102). -/
def State.counts (s t : State) (es : List Ev) : Prop := counted s.me.vflags t.me.vflags es

/-- LM as the current stream sees it after a store of `n` bytes of a number from `ea` on, of those that a mask selects; the
identity words keep what they hold (05 R120, 07 R168). -/
def State.storesLm (s t : State) (ea n v : Nat) (mask : Nat → Bool) : Prop :=
  ∀ a, tget 0 a (t.me.lmView s.cur.x) =
    if ea ≤ a ∧ a < ea + n ∧ mask (a - ea) = true ∧ inIdent a = false then BitVec.ofNat 8 (v / 256 ^ (a - ea))
    else tget 0 a (s.me.lmView s.cur.x)

/-! ### Messages and records -/

/-- A control message has gone to peer `p`: where that is this device it stands among the messages in flight, else among those that
wait to be acknowledged, and where `p` can be reached a copy of it has left (19 R429). -/
def State.sentTo (t : State) (p : Nat) (m : Instr) : Prop :=
  if p = t.peerid then m ∈ t.agenda
  else ∃ c ∈ t.ctl, c.peer = p ∧ c.msg = m ∧
    (t.reachable p = true → ∃ k ∈ t.outbox, k.peer = p ∧ k.num = some c.num ∧ k.msg = m)

/-- A message that is not acknowledged has gone to peer `p`: where that is this device it stands among the messages in flight, else
it has left, where `p` can be reached (19 R417). -/
def State.emits (t : State) (p : Nat) (m : Instr) : Prop :=
  if p = t.peerid then m ∈ t.agenda
  else t.reachable p = true → ∃ k ∈ t.outbox, k.peer = p ∧ k.num = none ∧ k.msg = m

/-- A record has been written to the error ring, or counted as lost where the ring was full (16 R371, R373). -/
def State.logs (s t : State) (kind : Nat) (drop : Bool) (code : Nat) (cx : Ctx) (addr d0 d1 : Nat) : Prop :=
  if (s.errhead + 2 ^ 32 - s.errtail) % 2 ^ 32 = 2 ^ s.errsize then
    t.errlost = min (s.errlost + 1) (2 ^ 32 - 1) ∧ t.errhead = s.errhead
  else
    t.errhead = (s.errhead + 1) % 2 ^ 32 ∧
    ∀ k, k < 64 → tget 0 (s.errbase.toNat + 64 * (s.errhead % 2 ^ s.errsize) + k) t.mem =
      (recordBytes kind drop code s.errhead cx addr s.dcyc d0 d1).getD k 0

/-! ### Words -/

/-- Decoding undoes encoding for the well-formed instructions of a range of OP. -/
def roundTrips (lo hi : Nat) : Prop :=
  ∀ i : Instr, i.wf = true → lo ≤ (opFn i).1 → (opFn i).1 ≤ hi → decode (encode i) = some i

/-- A header without guard, stall count and wait bit. -/
abbrev plainHdr : Hdr := { gneg := false, gpred := 0, stall := 0, w := false }

end Sys2Proof.Machine
end

