-- ==== Sys2Proof/Certificates/Slice0/Obligations.lean ====
section
/-! DEFINITION. What is claimed of the model. Each statement holds for every form the rules give an instruction; where a claim
needs more than the issue conditions, its hypotheses name the rule's own conditions. `s.issues i` and `s.serves n` are the issue
steps of 05 R131, `holds`, `gets` and `comes` what a destination comes to hold (05 R107 to R111), `wentOn` and `wentTo` how a
stream leaves an instruction (05 R114). -/

open Sys2Proof Sys2Proof.Machine

/-! ### Words -/

/-- The encodings that the spec works out in its examples, word by word, decode to the instructions they are given for (05 R121
to R134, 06 R149, 09 R219, 10 R250, 11 R296, 12 R317, 13 R329, 16 R358). -/
def Obligations.SpecExampleWordsDecode : Prop :=
  decode 0x00019900_00005000_01EFFFFB =
    some (.add { gneg := true, gpred := 3, stall := 2, w := false } (.g 5) (.g 7) (.imm (-5))) ∧
  decode 0x21000000_00000000_00800002 = some (.loop plainHdr (.g 2) 2) ∧
  decode 0x42000000_55009000_01180040 =
    some (.ldfe plainHdr { scope := 0x15, mode := 2, didx := 9, base := .g 4, sz := 3, off := 64 }) ∧
  decode 0xC2000000_80880FEA_00000000 =
    some (.gmmaF plainHdr { ta := 1, tb := 0, tm := 0, msk := false, bank := true, accr := 16, mm1 := 31, acc := true, rm := 2,
                            ct := 5 }) ∧
  decode 0x63000003_980081C0_10000000 = some (.xsend plainHdr (.remote 12 0 8) 7 2) ∧
  decode 0x63000000_0000D623_004A0000 = some (.xsendLm plainHdr (.g 13) 24 0x60 0x940) ∧
  decode 0x45000000_01813000_05180000 =
    some (.dst plainHdr { scope := 0, mode := 3, didx := 19, base := .g 20, sz := 3, off := 0 }) ∧
  decode 0xC8000000_80000000_00000000 = some (.csig plainHdr 1 0) ∧
  decode 0xC8010000_29000C00_00000000 = some (.ctest plainHdr 5 2 3) ∧
  decode 0x70010000_11060000_00000000 = some (.mtsv plainHdr 1 0x106)

/-- Scalar and control instructions, OP 0x00 to 0x32: decoding the word of a well-formed instruction gives it back. -/
def Obligations.ScalarAndControlRoundTrip : Prop := roundTrips 0x00 0x32

/-- Memory, copy, exchange, queue-pair, launch and privileged instructions, OP 0x40 to 0x70: the same. -/
def Obligations.MemoryAndSystemRoundTrip : Prop := roundTrips 0x40 0x70

/-- Vector instructions, OP 0x80 to 0x8C, the X-stream's special registers, OP 0xBF, and the tile, matrix and continuity
instructions, OP 0xC0 to 0xC8: the same. -/
def Obligations.VectorAndMatrixRoundTrip : Prop := roundTrips 0x80 0xC8

/-- A word decodes to a well-formed instruction whose encoding it is, so two words never decode to one instruction, and every
decoded word has 96 bits. -/
def Obligations.DecodedWordsAreEncodings : Prop :=
  ∀ (n : Nat) (i : Instr), decode n = some i → i.wf = true ∧ encode i = n ∧ n < 2 ^ 96

/-! ### Steps -/

/-- A step runs the instruction that a stream fetches: where the schedule names the stream, it is the next of its core to issue, no
other core's write of the cycle comes first, and no error class or overdue safe point stands before it. A compute core decodes the
word of its slot, which it may fetch (06 R147); a Welwick core the 16 bytes at 16 times its PC, whose last four are zero (19 R421).
The step is `exec` of that instruction at the state in which the stream issues, its earlier LM stores applied where the
instruction reads LM (07 R168); a stream that then stands halted stops the watchdog (17 R391). That a turn is named by the schedule
is the model's choice (notes/assumptions/10), and so is the fault where an engine named memory that is not there
(notes/assumptions/12). -/
def Obligations.StepRunsDecodedInstruction : Prop :=
  ∀ (s : State) (n : Nat) (x : Bool) (us : List Turn) (i : Instr),
    s.schedule = .issue n x :: us → (s.core n).mayIssue x = true →
    let v := { s with schedule := us }
    let t := v.atIssue n x
    (x = false → v.foremost n = n ∧ t.errorDue n = none ∧ t.overdue n = false) →
    (isHub n = false → s.slotBarred n x = false →
      decode (tget 0 ((s.core n).stream x).pc (s.core n).code).toNat = some i →
      step s = checkHole (watchHalt n (exec i (t.ordered i)))) ∧
    (isHub n = true → x = false → ∀ (pg : TlbEntry) (u w : State) (b : Nat),
      let va := 16 * (s.core n).a.pc
      t.reaches va true false pg u → paPeer (pg.addr va) = s.peerid →
      u.covers (homeOf (paLocal (pg.addr va))) (u.vecOf Config.hubDie) = true →
      u.homeGet 0 (u.ctxOf n) false va (paLocal (pg.addr va)) 16 = (b, w) → b < 2 ^ 96 → decode b = some i →
      step s = checkHole (watchHalt n (exec i (w.ordered i))))

/-- A word that decodes to nothing traps ILLEGAL, cause 0x01, in the stream that fetched it (05 R131 step 1); task-level code at
slot 3,840 or above traps PRIVILEGED, cause 0x03, whatever stands there, and TINFO is the slot (06 R147). The turn that the schedule
names (notes/assumptions/10) and the step's own stop at memory that no stack holds (notes/assumptions/12) are the model's choices. -/
def Obligations.StepTrapsBeforeIssue : Prop :=
  ∀ (s : State) (n : Nat) (x : Bool) (us : List Turn),
    s.schedule = .issue n x :: us → isHub n = false → (s.core n).mayIssue x = true →
    let v := { s with schedule := us }
    let t := v.atIssue n x
    let pc := ((s.core n).stream x).pc
    (x = false → v.foremost n = n ∧ t.errorDue n = none ∧ t.overdue n = false) →
    ((s.core n).level = .t → 3840 ≤ pc → step s = checkHole (watchHalt n (.next (t.trapOn n x 0x03 0 0 pc)))) ∧
    (s.slotBarred n x = false → decode (tget 0 pc (s.core n).code).toNat = none →
      step s = checkHole (watchHalt n (.next (t.trapOn n x 0x01 0 0 0))))

/-- The reset values that the register tables give: TVECDEF 0xF00, ERRSIZE 10, CBSIZE 0x4000, CUTTMO 0x10000, LPDOM with D = 1,
LCTL 0x1F; PORTSTAT of a port is OWN alone, as the configuration has it; ISLFREQ of a cluster of the partition is SET 1,600, CAP
1,800 and CUR 1,600, and of any other zero; every other device register of the tables but PARTINFO is zero; no task runs; memory
reads as zero and every full/empty bit is empty; CLDCTL.BUSY, REELCTL.BUSY and READY are clear. That memory reads as zero before
stage 1 has cleared it is the model's choice (notes/assumptions/1). -/
def Obligations.ResetRegisterValues : Prop :=
  (∀ n, n ∉ [0x101, 0x109, 0x111, 0x114, 0x201, 0x203, 0x262, 0x272, 0x281] → State.reset.regValue n = 0) ∧
  State.reset.regValue 0x101 = 10 ∧ State.reset.regValue 0x109 = 0xF00 ∧ State.reset.regValue 0x111 = 0x4000 ∧
  State.reset.regValue 0x114 = 0x10000 ∧ State.reset.regValue 0x201 = 1 ∧ State.reset.regValue 0x203 = 0x1F ∧
  (∀ p, { State.reset with portsel := p }.regValue 0x272 = if Config.ownPort p then 2 else 0) ∧
  (∀ cl, { State.reset with islsel := cl }.regValue 0x281 =
    if State.reset.ownDie (cl / 32) then 1600 + 2 ^ 16 * 1800 + 2 ^ 32 * 1600 else 0) ∧
  (∀ n, (State.reset.core n).task = none) ∧ (∀ a n, State.reset.memRd a n = 0) ∧ (∀ w, tget false w State.reset.full = false)

/-- The memory of the reset state has the canonical form. -/
def Obligations.ResetMemoryIsCanonical : Prop := Memory.wf State.reset

/-- Every step keeps the canonical form of memory, from any state, reached or not. -/
def Obligations.StepKeepsMemoryCanonical : Prop :=
  ∀ s t : State, Memory.wf s → step s = .next t → Memory.wf t

/-- No instruction and no event ends a run: in every state each of them answers a next state; only the step's own check of an
address that no stack holds stops the machine, which is the model's choice (notes/assumptions/12). -/
def Obligations.EveryInstructionAnswersNext : Prop :=
  (∀ (i : Instr) (s : State), ∃ t, exec i s = .next t) ∧
  ∀ s : State, (∃ t, step s = .next t) ∨ ∃ a, step s = .fault (.noSuchMemory a)

/-- Reading memory after a write: the bytes written stand at their addresses, every other byte is as before, and the canonical
form is kept. -/
def Obligations.MemoryReadsWhatWasWritten : Prop :=
  ∀ (s : State) (a : Nat) (bs : List Byte),
    (∀ k, k < bs.length → tget 0 (a + k) (s.memPut a bs).mem = bs.getD k 0) ∧
    (∀ b, b < a ∨ a + bs.length ≤ b → tget 0 b (s.memPut a bs).mem = tget 0 b s.mem) ∧
    (Memory.wf s → Memory.wf (s.memPut a bs))

/-! ### Issue and time -/

/-- 05 R131, R132: an instruction that steps 1 to 3 refuse traps whatever its guard; W waits while a result is outstanding; a pending
guard is waited for; a guard read too early traps STALL_SHORT; and where the guard fails the instruction only retires. An
instruction that has passed these steps and waits does not make them again: what it read of its guard stands, and W, and where it is
not taken lane by lane its guard too, make no difference to what it does to its stream. 05 R113: an instruction whose needs are not
all met stays where it is and pops, pushes and writes nothing; with them met it goes on, unless CCTL.CHK finds a source read too
early (05 R116). -/
def Obligations.IssueStepsComeFirst : Prop :=
  (∀ (i : Instr) (s : State), i.side ≠ .event →
     (∀ c, s.refusal i = some c → exec i s = .next (s.trapOn s.cur.core s.cur.x c 0 0 0)) ∧
     (s.refusal i = none → s.passed = false → i.hdr.w = true → s.busy = true → exec i s = stall s) ∧
     (s.refusal i = none → s.passed = false → (i.hdr.w && s.busy) = false → i.hdr.gpred ≠ 0 →
       s.me.pendingReg s.cur.x (s.guardReg i.hdr) = true → exec i s = stall s) ∧
     (s.refusal i = none → s.passed = false → (i.hdr.w && s.busy) = false →
       (i.hdr.gpred != 0 && s.me.pendingReg s.cur.x (s.guardReg i.hdr)) = false →
       (∀ r, s.tooEarly [s.guardReg i.hdr] = some r →
         exec i s = .next (s.trapOn s.cur.core s.cur.x 0x04 0 0 (2 + 8 * i.hdr.gpred.toNat))) ∧
       (s.tooEarly [s.guardReg i.hdr] = none → i.perLane = false → s.guard i.hdr = false →
         exec i s = retire i.hdr s))) ∧
  (∀ (i : Instr) (s t : State), i.side ≠ .event → s.issues i → exec i s = .next t → t.st.waitFrom.isSome = true →
     t.passed = true ∧ t.laneMask i.hdr = s.laneMask i.hdr) ∧
  (∀ (op fn b : Nat) (h k : Hdr) (i j : Instr) (s : State), candidate op fn h b = some i → candidate op fn k b = some j →
     k.stall = h.stall → (k.gneg = h.gneg ∧ k.gpred = h.gpred ∨ i.perLane = false ∧ s.st.guarded.isSome = true) →
     s.refusal i = none → s.refusal j = none → s.passed = true →
     ∃ t u, exec i s = .next t ∧ exec j s = .next u ∧ u.st = t.st) ∧
  (∀ (n : Needs) (s : State) (k : State → Out),
     (s.met n = false → ∃ t, withNeeds n s k = .next t ∧ s.waited t ∧ s.onlyMe t ∧
       { t.me with a := s.me.a, x := s.me.x } = s.me ∧ (∀ y, (t.me.stream y).landings = (s.me.stream y).landings ∧
         (t.me.stream y).lmq = (s.me.stream y).lmq ∧ (t.me.stream y).loops = (s.me.stream y).loops)) ∧
     (s.met n = true → (∀ r, s.tooEarly n.reads = some r → withNeeds n s k = trap 0x04 0 0 (regInfo r) s) ∧
       (s.tooEarly n.reads = none → withNeeds n s k = k s)))

/-- 05 R131 steps 1 to 3, 16 R358: on a compute core the first of ILLEGAL, WRONG_STREAM and PRIVILEGED that applies is raised,
and else nothing is: level T runs no privileged instruction, level S no TLBINV and no MTSV to a device register but ERRSW. -/
def Obligations.PrivilegeAndStreamChecks : Prop :=
  (∀ (i : Instr) (s : State), isHub s.cur.core = false → i.side ≠ .event →
    s.refusal i =
      if i.wfFor s.cur.x = false ∨ svHere s.cur.core i = false then some 0x01
      else if i.side = .a ∧ s.cur.x = true ∨ i.side = .x ∧ s.cur.x = false then some 0x02
      else if i.privileged = true ∧ s.me.level = .t ∨ hostOnly i = true ∧ s.me.level = .s then some 0x03
      else none) ∧
  ∀ i : Instr, hostOnly i = true ↔
    (∃ h g n, i = .mtsv h g n ∧ svDevice n.toNat = true ∧ n ≠ 0x106) ∨ (∃ h a b w, i = .tlbinvPage h a b w) ∨
      (∃ h b w, i = .tlbinvSpace h b w) ∨ ∃ h w, i = .tlbinvAll h w

/-- 05 R133: the all-zero word is NOP, its DST, SA and SB are zero, both streams may execute it, and it only retires: the stream's
next slot is the next of its store or where the back edge of its innermost loop leads, the next instruction issues no earlier
than cycle t + 1 + n, and no register, queue or memory changes. -/
def Obligations.NopOnlyRetires : Prop :=
  decode 0 = some (.nop plainHdr) ∧ (∀ n h, decode n = some (.nop h) → n % 2 ^ 70 = 0) ∧
  ∀ (h : Hdr) (s : State), (Instr.nop h).side = .both ∧ (s.issues (.nop h) →
    ∃ t, exec (.nop h) s = .next t ∧ s.wentOn t h ∧ s.onlyMe t ∧
      t.me.g = s.me.g ∧ t.me.s = s.me.s ∧ t.me.v = s.me.v ∧ t.me.pa = s.me.pa ∧ t.me.px = s.me.px ∧ t.me.t = s.me.t ∧
      t.me.lm = s.me.lm ∧ t.me.aq = s.me.aq ∧ t.me.xq = s.me.xq ∧ t.me.bqa = s.me.bqa ∧ t.me.bqx = s.me.bqx ∧
      t.st.loops = (if s.me.level = .s then s.st.loops else (backEdge s.st.pc s.st.floor s.st.loops).1))

/-- 06 R149, R150: a loop record with trip count c that is innermost above the floor, in a nest where no other record above the
floor ends at the same slot, sends control back c - 1 times, and at the c-th completion of its last slot it is popped and
control falls through. -/
def Obligations.LoopRunsItsTripCount : Prop :=
  ∀ (r : LoopRec) (rs : List LoopRec) (floor c k : Nat), floor ≤ rs.length → 1 ≤ c →
    (∀ q ∈ rs, q.last ≠ r.last) →
    let after (k : Nat) : List LoopRec := (fun ls => (backEdge r.last floor ls).1)^[k] ({ r with rem := c } :: rs)
    (k < c → after k = { r with rem := c - k } :: rs) ∧ after c = rs ∧
    (k + 1 < c → (backEdge r.last floor (after k)).2 = some r.start) ∧
    (k + 1 = c → (backEdge r.last floor (after k)).2 = none)

/-- 05 R105, R107, R108: a result of latency L written in cycle t to a register with no other write outstanding is read by an
instruction of cycle t + L or later, and an earlier one reads the old value; of two writes of one stream to one register the
later in program order stands, whatever their latencies; p0 reads as all ones and is never written. -/
def Obligations.ResultsLandInOrder : Prop :=
  (∀ (s : State) (i lat u : Nat) (v : Word), 1 ≤ lat → (∀ y, ∀ l ∈ (s.me.stream y).landings, l.dst ≠ .g i) →
    let t := s.writeFixed (.g i) 1 v.toNat lat
    (s.now + lat ≤ u → (t.me.at' u).reg (.g i) = v.toNat) ∧
    (1 < lat → u < s.now + lat → (t.me.at' u).reg (.g i) = s.me.reg (.g i))) ∧
  (∀ (s : State) (i la lb : Nat) (a b : Word), 1 ≤ la → 1 ≤ lb → (s.me.pends.filter (fun p => p.x == s.cur.x)) = [] →
    ((s.writeFixed (.g i) 1 a.toNat la).writeFixed (.g i) 1 b.toNat lb).me.comes s.cur.x (.g i) = b.toNat) ∧
  ∀ (c : Core) (m v : Nat), c.reg (.pa 0) = 1 ∧ c.reg (.px 0) = 2 ^ 128 - 1 ∧ c.setReg (.pa 0) m v = c ∧ c.setReg (.px 0) m v = c

/-- 05 R107 and R109, RESULT_LANDS and PENDING_RESULT_WRITTEN: the results of a stream that are due land: a register all of whose
results are due holds what it was to hold, one with none due is as before; a pending result whose values have arrived, and
before which no fixed-latency write to its registers is outstanding, is written, and its registers are pending no more. -/
def Obligations.ResultsAreWritten : Prop :=
  ∀ (s : State) (n : Nat),
    (∀ x, ∃ t, exec (.resultLands n x) s = .next t ∧ (∀ m, m ≠ n → t.core m = s.core m) ∧ t.mem = s.mem ∧
      (∀ l ∈ ((t.core n).stream x).landings, (s.core n).cyc ≤ l.lands) ∧
      (∀ r, (s.core n).pendingReg x r = false →
        (∀ l ∈ ((s.core n).stream x).landings, l.dst = r → l.lands < (s.core n).cyc) →
        1 ≤ (s.core n).cyc → (t.core n).reg r = (s.core n).comes x r) ∧
      (∀ r, 1 ≤ (s.core n).cyc → (∀ l ∈ ((s.core n).stream x).landings, l.dst = r → (s.core n).cyc ≤ l.lands) →
        (t.core n).reg r = (s.core n).reg r)) ∧
    (∀ (p : Pending) (r : Nat) (v : Word), (s.core n).pends = [p] → p.outs = [(.g r, some v.toNat)] →
      (∀ l ∈ ((s.core n).stream p.x).landings, l.dst = .g r → l.lands < (s.core n).cyc) →
      ((s.core n).stream (!p.x)).landings = [] →
      ∃ t, exec (.pendingResultWritten n p.id) s = .next t ∧ (t.core n).pends = [] ∧
        (t.core n).reg (.g r) = v.toNat ∧ (t.core n).absent (.g r) = false ∧ t.mem = s.mem)

/-! ### Scalar instructions (06 R139 to R146) -/

/-- 06 R140: OP 0x00, with its sources read, SA popped before SB, and its result at its destination. -/
def Obligations.IntegerArithmeticResults : Prop :=
  ∀ (s : State) (h : Hdr) (d a b : Desc),
    let x := (s.takes a b).1
    let y := (s.takes a b).2
    ∀ e ∈ ([(.add h d a b, x + y), (.sub h d a b, x - y), (.mul h d a b, x * y),
        (.mulhs h d a b, ((x.signExtend 128 * y.signExtend 128) >>> 64).setWidth 64),
        (.mulhz h d a b, ((x.setWidth 128 * y.setWidth 128) >>> 64).setWidth 64), (.and h d a b, x &&& y),
        (.or h d a b, x ||| y), (.xor h d a b, x ^^^ y), (.andn h d a b, x &&& ~~~y), (.shl h d a b, x <<< (y.toNat % 64)),
        (.shr h d a b, x >>> (y.toNat % 64)), (.sar h d a b, x.sshiftRight (y.toNat % 64)),
        (.rot h d a b, (x >>> (y.toNat % 64)) ||| (x <<< ((64 - y.toNat % 64) % 64)))] : List (Instr × Word)),
      s.issues e.1 → s.serves (s.needs2 d a b) → ∃ t, exec e.1 s = .next t ∧ s.wentOn t h ∧ t.holds d e.2

/-- 06 R141 to R143: extensions, the bit field, minimum and maximum, saturating sums, the divisions, which never trap on their
values, and the compares, whose result is 1 where the relation holds and else 0. -/
def Obligations.FieldDivisionAndCompareResults : Prop :=
  ∀ (s : State) (h : Hdr) (d a b : Desc),
    let x := (s.takes a b).1
    let y := (s.takes a b).2
    let n := y.toNat
    ∀ e ∈ ([(.sext h d a b, (x <<< (64 - n)).sshiftRight (64 - n)), (.zext h d a b, (x <<< (64 - n)) >>> (64 - n)),
        (.bfx h d a b, (x >>> (n % 64)) &&& BitVec.ofNat 64 (2 ^ (n / 64) - 1)),
        (.mins h d a b, if x.slt y then x else y), (.maxs h d a b, if x.slt y then y else x),
        (.minz h d a b, if x.ult y then x else y), (.maxz h d a b, if x.ult y then y else x),
        (.addsat h d a b, BitVec.ofInt 64 (max (-2 ^ 63) (min (2 ^ 63 - 1) (x.toInt + y.toInt)))),
        (.subsat h d a b, BitVec.ofInt 64 (max (-2 ^ 63) (min (2 ^ 63 - 1) (x.toInt - y.toInt)))),
        (.divs h d a b, if y = 0 then BitVec.allOnes 64 else x.sdiv y), (.rems h d a b, if y = 0 then x else x.srem y),
        (.divz h d a b, if y = 0 then BitVec.allOnes 64 else x / y), (.remz h d a b, if y = 0 then x else x % y),
        (.cmpeq h d a b, if x = y then 1 else 0), (.cmpne h d a b, if x = y then 0 else 1),
        (.cmplts h d a b, if x.slt y then 1 else 0), (.cmples h d a b, if x.sle y then 1 else 0),
        (.cmpltz h d a b, if x.ult y then 1 else 0), (.cmplez h d a b, if x.ule y then 1 else 0)] : List (Instr × Word)),
      s.issues e.1 → s.serves (s.needs2 d a b) → ∃ t, exec e.1 s = .next t ∧ s.wentOn t h ∧ t.holds d e.2

/-- 06 R141: MOV copies its source; CLZ, CTZ and POPC count bits; MOVK and BFI replace a field of the old destination. -/
def Obligations.MoveAndCountResults : Prop :=
  ∀ (s : State) (h : Hdr) (d a b : Desc),
    let x := (s.take a).1
    let n := (dstNeeds s.cur.x d).and (srcNeeds s.cur.x a)
    (s.issues (.mov h d a) → s.serves n → ∃ t, exec (.mov h d a) s = .next t ∧ s.wentOn t h ∧ t.holds d x) ∧
    (s.issues (.clz h d a) → s.serves n → ∃ t c, exec (.clz h d a) s = .next t ∧ s.wentOn t h ∧
      t.holds d (BitVec.ofNat 64 c) ∧ c ≤ 64 ∧ (∀ i, 64 - c ≤ i → x.getLsbD i = false) ∧
      (c < 64 → x.getLsbD (63 - c) = true)) ∧
    (s.issues (.ctz h d a) → s.serves n → ∃ t c, exec (.ctz h d a) s = .next t ∧ s.wentOn t h ∧
      t.holds d (BitVec.ofNat 64 c) ∧ c ≤ 64 ∧ (∀ i, i < c → x.getLsbD i = false) ∧ (c < 64 → x.getLsbD c = true)) ∧
    (s.issues (.popc h d a) → s.serves n → ∃ t, exec (.popc h d a) s = .next t ∧ s.wentOn t h ∧
      t.holds d (BitVec.ofNat 64 ((List.range 64).countP (fun i => x.getLsbD i)))) ∧
    (let m := (((dstNeeds s.cur.x d).and (srcNeeds s.cur.x d)).and (srcNeeds s.cur.x a)).and (srcNeeds s.cur.x b)
     let old := (s.take d).1
     let y := (s.takes a b).2.toNat
     (s.issues (.movk h d a b) → s.serves m → ∃ t v, exec (.movk h d a b) s = .next t ∧ s.wentOn t h ∧ t.holds d v ∧
       ∀ i, i < 64 → v.getLsbD i = if 16 * y ≤ i ∧ i < 16 * y + 16 then x.getLsbD (i - 16 * y) else old.getLsbD i) ∧
     (s.issues (.bfi h d a b) → s.serves m → ∃ t v, exec (.bfi h d a b) s = .next t ∧ s.wentOn t h ∧ t.holds d v ∧
       ∀ i, i < 64 → v.getLsbD i =
         if y % 64 ≤ i ∧ i < y % 64 + y / 64 then (s.takes a b).1.getLsbD (i - y % 64) else old.getLsbD i))

/-- 06 R144 to R146: predicate logic works on every bit, one in the A-stream and 128 in the X-stream; a branch-outcome port takes
bit 0, and p0 stays all ones. LEA and LEAX compute base, shifted index and offset; the special registers of 05 R110 are read,
and of them the key context is written. -/
def Obligations.PredicateAddressAndSpecialResults : Prop :=
  (∀ (s : State) (h : Hdr) (d : Desc) (a b : BitVec 4),
     let r (i : BitVec 4) : Reg := if s.cur.x then .px i.toNat else .pa i.toNat
     let w := if s.cur.x then 128 else 1
     let bits (i : BitVec 4) (k : Nat) : Bool := (s.me.reg (r i)).testBit k
     let n (l : List Reg) : Needs := (dstNeeds s.cur.x d).and (needs l [])
     ∀ e ∈ ([(.pand h d (.p a) (.p b), [r a, r b], fun k => bits a k && bits b k),
         (.por h d (.p a) (.p b), [r a, r b], fun k => bits a k || bits b k),
         (.pxor h d (.p a) (.p b), [r a, r b], fun k => bits a k ^^ bits b k),
         (.pnot h d (.p a), [r a, r a], fun k => !bits a k)] : List (Instr × List Reg × (Nat → Bool))),
       s.issues e.1 → s.serves (n e.2.1) →
       ∃ t, exec e.1 s = .next t ∧ s.wentOn t h ∧
         (∀ i, d = .p i → i ≠ 0 → ∀ k, k < w → (t.me.comes t.cur.x (r i)).testBit k = e.2.2 k) ∧
         (∀ c, d = .port c → ((t.me.fifo c.toNat).entries.getLast?).map Prod.snd = some (if e.2.2 0 then 1 else 0))) ∧
  (∀ (s : State) (h : Hdr),
     (∀ (d a b : BitVec 6) (sh : BitVec 3) (off : BitVec 32) (nob : Bool),
       let g (i : BitVec 6) : Word := BitVec.ofNat 64 (s.me.reg (.g i.toNat))
       let n := needs ([Reg.g a.toNat] ++ (if nob then [] else [Reg.g b.toNat])) [Reg.g d.toNat]
       (s.issues (.lea h d a b sh nob off) → s.serves n → ∃ t, exec (.lea h d a b sh nob off) s = .next t ∧ s.wentOn t h ∧
         t.gets (.g d.toNat)
           (g a + (if nob then 0 else g b * BitVec.ofNat 64 (2 ^ sh.toNat)) + off.signExtend 64).toNat) ∧
       (s.issues (.leax h d a b sh nob off) → s.serves n → ∃ t, exec (.leax h d a b sh nob off) s = .next t ∧ s.wentOn t h ∧
         t.gets (.g d.toNat)
           (g a + (if nob then 0 else ((g b).setWidth 32).signExtend 64 * BitVec.ofNat 64 (2 ^ sh.toNat)) +
             off.signExtend 64).toNat)) ∧
     (∀ (r n : BitVec 6), s.issues (.rdsr h r n) → s.serves (needs [] [.g r.toNat]) →
       ∃ t v, exec (.rdsr h r n) s = .next t ∧ s.wentOn t h ∧ t.gets (.g r.toNat) v ∧
         (n = 0 → v = (BitVec.ofNat 64 (s.me.cyc - (s.me.task.elim 0 Task.cyc0))).toNat) ∧
         (n = 1 → v = s.dcyc % 2 ^ 64) ∧ (n = 2 → v = (s.me.task.elim 0 Task.errc) % 2 ^ 16) ∧
         (n = 3 → v = (s.me.a.rets.length + s.me.a.spilled) % 2 ^ 16) ∧ (n = 4 → v = s.me.a.loops.length % 8)) ∧
     (∀ (r : BitVec 4) (n : BitVec 6), s.issues (.rdsx h r n) →
       s.serves (needs (if 0x10 ≤ n.toNat ∧ n.toNat ≤ 0x12 then [Reg.key n.toNat] else []) [.s r.toNat]) →
       ∃ t v, exec (.rdsx h r n) s = .next t ∧ s.wentOn t h ∧ t.gets (.s r.toNat) v ∧
         (n = 0 → v = (BitVec.ofNat 64 (s.me.cyc - (s.me.task.elim 0 Task.cyc0))).toNat) ∧
         (n = 3 → v = (s.me.x.rets.length + s.me.x.spilled) % 2 ^ 16) ∧ (n = 4 → v = s.me.x.loops.length % 8) ∧
         (n = 0x13 → v = s.me.vflags.toNat) ∧
         (n = 0x10 ∨ n = 0x11 ∨ n = 0x12 → v = s.me.reg (.key n.toNat))) ∧
     (∀ (r n : BitVec 6), s.issues (.wrsr h r n) → s.serves (needs [.g r.toNat] []) →
       ∃ t, exec (.wrsr h r n) s = .next t ∧ s.wentOn t h ∧ s.onlyMe t ∧ s.me.sameBut t.me []) ∧
     (∀ (r : BitVec 4) (n : BitVec 6), s.issues (.wrsx h r n) → s.serves (needs [.s r.toNat] []) →
       ∃ t, exec (.wrsx h r n) s = .next t ∧ s.wentOn t h ∧
         (n = 0x10 ∨ n = 0x11 ∨ n = 0x12 → s.me.pendingReg true (.key n.toNat) = false →
           t.gets (.key n.toNat) (s.me.reg (.s r.toNat) % 2 ^ 32) ∧ s.me.sameBut t.me [.key n.toNat]) ∧
         (n = 0 ∨ n = 3 ∨ n = 4 ∨ n = 0x13 → s.me.sameBut t.me [] ∧ t.me.vflags = s.me.vflags)))

/-- The frame of the scalar instructions of OP 0x00 to 0x11 and 0xBF: no memory, no local memory, no other core and no device
register changes where no source is read too early (then they trap, 05 R116); every register but the destination comes to hold
what it would have held; and a queue that no operand names stays as it is. -/
def Obligations.ScalarFrame : Prop :=
  ∀ (s t : State) (h : Hdr) (d a b : Desc) (r n ra rb : BitVec 6) (q : BitVec 4) (sh : BitVec 3) (nob : Bool) (o : BitVec 32),
    let two : List (Hdr → Desc → Desc → Desc → Instr) :=
      [.add, .sub, .mul, .mulhs, .mulhz, .and, .or, .xor, .andn, .shl, .shr, .sar, .rot, .movk, .sext, .zext, .bfx, .bfi, .mins,
       .maxs, .minz, .maxz, .cmpeq, .cmpne, .cmplts, .cmples, .cmpltz, .cmplez, .pand, .por, .pxor, .addsat, .subsat, .divs,
       .divz, .rems, .remz]
    let one : List (Hdr → Desc → Desc → Instr) := [.mov, .clz, .ctz, .popc, .pnot]
    let dst := (regOf s.cur.x d).toList
    ∀ e ∈ two.map (fun f => (f h d a b, dst, [d, a, b])) ++ one.map (fun f => (f h d a, dst, [d, a])) ++
        ([(.nop h, [], []), (.lea h r ra rb sh nob o, [.g r.toNat], []), (.leax h r ra rb sh nob o, [.g r.toNat], []),
          (.rdsr h r n, [.g r.toNat], []), (.wrsr h r n, [], []), (.rdsx h q n, [.s q.toNat], []),
          (.wrsx h q n, [.key n.toNat], [])] : List (Instr × List Reg × List Desc)),
      s.issues e.1 → (∀ r, s.tooEarly [r] = none) → exec e.1 s = .next t →
      s.onlyMe t ∧ s.me.onlyRegs t.me ∧ s.me.sameBut t.me e.2.1 ∧ t.me.vflags = s.me.vflags ∧
      ∀ k, (∀ c ∈ e.2.2, ¬namesPort c k) →
        (k < 4 → t.me.fifo k = s.me.fifo k) ∧ (k = 4 → t.me.mail = s.me.mail) ∧ (k = 5 → t.me.inbox = s.me.inbox)

/-! ### Control flow (06 R147 to R157, R160, R163) -/

/-- 06 R148: BR and JMP transfer; BRQ and BRQN pop a bit and transfer where it is 1, or 0. The target is modulo the store's
slots, on a Welwick core g[56:4] for JMP (19 R421); the next issue is no earlier than cycle t + 3 + n where control is transferred,
and no register changes. A transfer ends the loops of the running routine that do not contain its target, from the innermost on,
up to the first that does (06 R150). -/
def Obligations.BranchResults : Prop :=
  (∀ (dest floor : Nat) (ls : List LoopRec), ∃ k, dropLoops dest floor ls = ls.drop k ∧
    (∀ j (hj : j < ls.length), j < k → floor < ls.length - j ∧ ¬((ls[j]).start ≤ dest ∧ dest ≤ (ls[j]).last)) ∧
    (∀ hk : k < ls.length, ls.length - k ≤ floor ∨ (ls[k]).start ≤ dest ∧ dest ≤ (ls[k]).last)) ∧
  ∀ (s : State) (h : Hdr) (off : BitVec 19) (q r : Desc),
    let dest := ((((s.st.pc : Int) + off.toInt) % (s.wrap : Int))).toNat
    let taken (t : State) (d : Nat) : Prop :=
      s.wentTo t h d ∧ t.st.loops = dropLoops d s.st.floor s.st.loops ∧ s.onlyMe t ∧ s.me.onlyRegs t.me ∧ s.me.sameBut t.me []
    let passed (t : State) : Prop := s.wentOn t h ∧ s.onlyMe t ∧ s.me.onlyRegs t.me ∧ s.me.sameBut t.me []
    let popped (t : State) : Prop := ∀ k, namesPort q k → ∃ e, (s.me.fifo k).entries = e :: (t.me.fifo k).entries
    (s.issues (.br h off) → ∃ t, exec (.br h off) s = .next t ∧ taken t dest) ∧
    (s.issues (.jmp h r) → s.serves (srcNeeds s.cur.x r) →
      ∃ t, exec (.jmp h r) s = .next t ∧
        taken t (if isHub s.cur.core then (s.take r).1.toNat / 16 % 2 ^ 53 else (s.take r).1.toNat % 4096)) ∧
    (s.issues (.brq h q off) → s.serves (srcNeeds s.cur.x q) →
      ∃ t, exec (.brq h q off) s = .next t ∧ popped t ∧ (if (s.take q).1.getLsbD 0 then taken t dest else passed t)) ∧
    (s.issues (.brqn h q off) → s.serves (srcNeeds s.cur.x q) →
      ∃ t, exec (.brqn h q off) s = .next t ∧ popped t ∧ (if (s.take q).1.getLsbD 0 then passed t else taken t dest))

/-- 06 R149, R151: LOOP opens a counted loop, skips it for a count of 0, and traps LOOP_DEPTH with four active loops and ILLEGAL
past the store's end; BREAKL ends the innermost loop above the floor and traps LOOP_DEPTH with none. -/
def Obligations.LoopInstructionResults : Prop :=
  ∀ (s : State) (h : Hdr) (n : Desc) (off : BitVec 19),
    let last := s.st.pc + off.toNat
    let c := (s.take n).1.toNat % 2 ^ 32
    let trapped (t : State) (cause : Nat) : Prop := t = s.trapOn s.cur.core s.cur.x cause 0 0 0
    (s.issues (.loop h n off) → s.serves (srcNeeds s.cur.x n) → ∃ t, exec (.loop h n off) s = .next t ∧
      (s.wrap ≤ last → trapped t 0x01) ∧
      (last < s.wrap → c = 0 → s.wentTo t h ((last + 1) % s.wrap) ∧ t.st.loops = s.st.loops ∧ s.onlyMe t) ∧
      (last < s.wrap → c ≠ 0 → 4 ≤ s.st.loops.length → trapped t 0x0A) ∧
      (last < s.wrap → c ≠ 0 → s.st.loops.length < 4 →
        t.cur = s.cur ∧ t.st.pc = s.st.pc + 1 ∧ t.st.ready = s.now + 1 + h.stall.toNat ∧ s.onlyMe t ∧
        t.st.loops = { start := s.st.pc + 1, last := last, rem := c } :: s.st.loops ∧ t.st.floor = s.st.floor)) ∧
    (s.issues (.breakl h) → ∃ t, exec (.breakl h) s = .next t ∧
      (s.st.loops.length ≤ s.st.floor → trapped t 0x0A) ∧
      (∀ r rs, s.st.loops = r :: rs → s.st.floor ≤ rs.length →
        s.wentTo t h ((r.last + 1) % s.wrap) ∧ t.st.loops = rs ∧ s.onlyMe t))

/-- 06 R152: calls and returns. A call pushes the next slot and the floor, and the floor rises to the number of active loops; a
full store first spills its oldest entry to the spill area, and traps CALL_DEPTH with that full; a return ends its routine's
loops and takes the newest entry, or refills the one spilled last; with none it traps RET_EMPTY. The spill area lies in LM; on a
Welwick core at the VA in WSPILL, where a refill asks the home and waits for its answer (19 R421). A count above that of the area
counts as full, the model's choice (notes/assumptions/75), as are the 12-bit slots of a Welwick core's spill (notes/assumptions/26). -/
def Obligations.CallAndReturnResults : Prop :=
  ∀ (s : State) (h : Hdr) (off : BitVec 19) (r : Desc),
    let hub := isHub s.cur.core
    let wrap : Nat := if hub then 2 ^ 53 else 4096
    let dest : Nat := ((((s.st.pc : Int) + off.toInt) % (wrap : Int))).toNat
    let target (v : Nat) : Nat := if hub then v / 16 % 2 ^ 53 else v % 4096
    let sv := (s.me.svGet (if hub then 0x23 else if s.cur.x then 0xA else 0x9)).toNat
    let base := if hub then sv / 8 % 2 ^ 54 * 8 else sv % 2 ^ 16
    let count := if hub then sv / 2 ^ 57 % 2 ^ 7 else sv / 2 ^ 16 % 2 ^ 16
    let k := s.st.spilled
    let slot := base + 8 * k
    let entry : RetEntry := { slot := (s.st.pc + 1) % wrap, floor := s.st.floor }
    let word (o : RetEntry) : List Byte := leBytes (o.slot % 2 ^ 12 + 2 ^ 12 * (o.floor % 8)) 8
    let spilt (t : State) (d : Nat) : Prop :=
      s.wentTo t h d ∧ t.st.rets = entry :: s.st.rets.dropLast ∧ t.st.floor = s.st.loops.length ∧ t.st.spilled = k + 1
    let called (t : State) (d : Nat) : Prop :=
      (s.st.rets.length < 16 → s.wentTo t h d ∧ t.st.rets = entry :: s.st.rets ∧ t.st.floor = s.st.loops.length ∧
        t.st.loops = s.st.loops ∧ t.st.spilled = k ∧ t.st.lmq = s.st.lmq ∧ s.onlyMe t) ∧
      (16 ≤ s.st.rets.length → count ≤ k → t = s.trapOn s.cur.core s.cur.x 0x08 0 0 0) ∧
      (∀ o, s.st.rets.getLast? = some o → 16 ≤ s.st.rets.length → k < count →
        (hub = false → s.me.lmBlocked slot 8 true = false →
          spilt t d ∧ t.st.lmq = s.st.lmq ++ [{ cyc := s.now, addr := slot, bytes := word o }]) ∧
        (∀ pg u, hub = true → s.reaches slot false true pg u →
          spilt t d ∧ u.requests t (pg.addr slot) (.store (word o)) ∧ t.mem = (u.markDirty pg).mem))
    let returned (t : State) (slot floor : Nat) (rs : List RetEntry) : Prop :=
      let mine := s.st.loops.drop (s.st.loops.length - s.st.floor)
      s.wentTo t h slot ∧ t.st.rets = rs ∧ t.st.floor = min floor mine.length ∧
      t.st.loops = dropLoops slot (min floor mine.length) mine ∧ s.onlyMe t
    let refilled (t : State) (w : Nat) : Prop := returned t (w % 2 ^ 12) (w / 2 ^ 12 % 8) [] ∧ t.st.spilled = k - 1
    (s.issues (.call h off) → ∃ t, exec (.call h off) s = .next t ∧ called t dest) ∧
    (s.issues (.calli h r) → s.serves (srcNeeds s.cur.x r) →
      ∃ t, exec (.calli h r) s = .next t ∧ called t (target (s.take r).1.toNat)) ∧
    (s.issues (.ret h) → ∃ t, exec (.ret h) s = .next t ∧
      (∀ e es, s.st.rets = e :: es → returned t e.slot e.floor es ∧ t.st.spilled = k) ∧
      (s.st.rets = [] → k = 0 → t = s.trapOn s.cur.core s.cur.x 0x09 0 0 0) ∧
      (hub = false → s.st.rets = [] → 0 < k → s.me.lmBlocked (base + 8 * (k - 1)) 8 false = false →
        refilled t (s.me.lmRd s.cur.x (base + 8 * (k - 1)) 8)) ∧
      (hub = true → s.st.rets = [] → 0 < k →
        (∀ ok v, s.st.stage = .answered ok v → refilled t v) ∧
        (∀ pg u, s.st.stage = .start → s.reaches (base + 8 * (k - 1)) true false pg u →
          s.waited t ∧ u.requests t (pg.addr (base + 8 * (k - 1))) (.sync 0 true true 0) ∧
          ∃ q, t.reqs.getLast? = some q ∧ t.st.stage = .request q.id)))

/-- 06 R153, R154: XGO starts an idle X-stream at r[11:0] with empty stores, and waits for a running one; XEND makes it idle
once no result of it is outstanding. The registers stay. That the X-stream issues no earlier than the next cycle is the model's
choice (notes/assumptions/31). -/
def Obligations.StreamStartAndEnd : Prop :=
  ∀ (s : State) (h : Hdr) (r : Desc),
    (s.issues (.xgo h r) → s.serves (srcNeeds s.cur.x r) → ∃ t, exec (.xgo h r) s = .next t ∧ s.onlyMe t ∧
      (s.me.x.run = true → s.waited t ∧ t.me.x = s.me.x) ∧
      (s.me.x.run = false → s.cur.x = false ∧ s.wentOn t h ∧ t.me.x.run = true ∧ t.me.x.pc = (s.take r).1.toNat % 4096 ∧
        t.me.x.loops = [] ∧ t.me.x.rets = [] ∧ t.me.x.floor = 0 ∧ s.now < t.me.x.ready ∧ s.me.sameBut t.me [] ∧
        t.me.aq = s.me.aq ∧ t.me.bqa = s.me.bqa ∧ t.me.lm = s.me.lm)) ∧
    (s.issues (.xend h) → ∃ t, exec (.xend h) s = .next t ∧ s.onlyMe t ∧
      (s.busy = true → s.waited t) ∧
      (s.busy = false → t.me.x.run = false ∧ t.me.x.loops = [] ∧ t.me.x.rets = [] ∧ t.me.x.spilled = 0 ∧
        s.me.sameBut t.me [] ∧ t.me.lm = s.me.lm))

/-- 06 R155, R161, R162, 11 R289, 16 R369: TEND waits, and the task is ending: its end is an event, which comes when all that R155
names is done, and the results it waits for are written (notes/assumptions/47, the model's choice). A Welwick core's TEND releases
at device scope and ends its fetching (notes/assumptions/26, the model's choice). SAFEPT restarts the watchdog where no pre-emption
request is pending or the core is at level S, and else waits, holding its live masks, read at each try (notes/assumptions/81, the
model's choice), once the X-stream is quiet and no gang instruction of the core is queued; reserved bits of the masks trap ILLEGAL. -/
def Obligations.TaskEndAndSafePoint : Prop :=
  (∀ (s : State) (h : Hdr), isHub s.cur.core = true → s.issues (.tend h) → s.sending s.cur.core = false → s.releases 5 →
    ∃ t, exec (.tend h) s = .next t ∧ t.st.run = false ∧ t.st.pc = s.st.pc ∧ t.mem = s.mem ∧ s.me.sameBut t.me []) ∧
  ∀ (s : State) (h : Hdr) (slot : BitVec 8) (lmx : BitVec 10) (k : Task), isHub s.cur.core = false → s.me.task = some k →
    (s.issues (.tend h) → ∃ t, exec (.tend h) s = .next t ∧ s.waited t ∧ s.onlyMe t ∧
      t.me.task = some { k with ending := true }) ∧
    (s.issues (.safept h slot lmx) → s.serves { needs [] [] with lm := [(8 * slot.toNat, 16, false)] } →
      let m1 := s.constSlot slot.toNat
      let m2 := s.constSlot (slot.toNat + 1)
      ∃ t, exec (.safept h slot lmx) s = .next t ∧
        (m2.toNat / 2 ^ 58 ≠ 0 → t = s.trapOn s.cur.core s.cur.x 0x01 0 0 0) ∧
        (m2.toNat / 2 ^ 58 = 0 → s.me.level = .s → s.wentOn t h ∧ s.onlyMe t ∧ s.me.sameBut t.me [] ∧
          t.me.task = some { k with watchHeld := some 0 }) ∧
        (m2.toNat / 2 ^ 58 = 0 → s.me.level ≠ .s → k.preempt = false → s.wentOn t h ∧ s.onlyMe t ∧ s.me.sameBut t.me [] ∧
          t.me.task = some { k with watch := some s.now }) ∧
        (m2.toNat / 2 ^ 58 = 0 → s.me.level ≠ .s → k.preempt = true → s.waited t ∧ s.onlyMe t ∧
          ∃ b, t.me.task = some { k with watch := none, safe := b } ∧ (b = none ∨ b = some (m1, m2, lmx.toNat)) ∧
            (s.me.x.run = false → s.me.x.halted = false → s.queued s.cur.core = [] →
              tget none (s.cur.core % 8) (s.gang (gangOf s.cur.core)).arrivals = none → b = some (m1, m2, lmx.toNat))))

/-- 06 R163, 17 R390, R391, 08 R215: TRAP raises USER_TRAP and BRK raises DEBUG with the code, the saved slot that of the
instruction; with a debugger attached the stream of BRK halts, the watchdog stops, and the root of a take launch is told of the
suspension. That BRK then retires and halts after itself is the model's choice (notes/assumptions/29). -/
def Obligations.TrapInstructionsRaise : Prop :=
  ∀ (s : State) (h : Hdr) (code : BitVec 16),
    (s.issues (.trap h code) → ∃ t, exec (.trap h code) s = .next t ∧ t = s.trapOn s.cur.core s.cur.x 0x06 code.toNat 0 0 ∧
      (isHub s.cur.core = false → s.me.level = .t →
        t.me.level = .s ∧ t.me.svGet (if s.cur.x then 3 else 2) =
          BitVec.ofNat 64 (s.st.pc + if s.cur.x ∧ s.me.x.run then 4096 else 0) ∧
        (t.me.svGet 4).toNat = 0x06 + (if s.cur.x then 256 else 0) + 65536 * code.toNat ∧ t.me.svGet 5 = 0)) ∧
    (s.issues (.brk h code) → bitAt s.dbgctl.toNat 0 = false →
      exec (.brk h code) s = .next (s.trapOn s.cur.core s.cur.x 0x07 code.toNat 0 0)) ∧
    (s.issues (.brk h code) → bitAt s.dbgctl.toNat 0 = true →
      ∃ t, exec (.brk h code) s = .next t ∧ s.wentOn t h ∧ t.st.halted = true ∧ (∀ k, t.me.task = some k → k.watch = none) ∧
        t.mem = s.mem ∧ (∀ n, n ≠ s.cur.core → t.core n = s.core n) ∧ ((∀ r ∈ s.runs, r.takeLv = none) → s.onlyMe t) ∧
        (∀ (r : Run) (k : Task), s.runs = [r] → s.me.task = some k → k.run = r.id → r.takeLv.isSome = true → r.go = true →
          r.retired = false → r.aborted = false → s.suspended r = false →
          t.sentTo (s.rootPeer r) (.suspend r.cgrp (s.nextCut r.id) r.dIdx)))

/-- 06 R156, R157, R160: TRYPOP and TRYPUSH never wait on their queue and report in a predicate whether they took or gave an
entry; PUSHB pushes the bit that its mode derives; CLRP makes a register absent once the stream's writes of it have landed. That a
TRYPOP which fails asks no room at a port destination is the model's choice (notes/assumptions/30), and so is that a TRYPUSH which
fails has popped its source (notes/assumptions/29). -/
def Obligations.QueueAndPresenceResults : Prop :=
  ∀ (s : State) (h : Hdr) (d q a r : Desc) (p : BitVec 4) (m : Option Desc),
    let pr : Reg := if s.cur.x then .px p.toNat else .pa p.toNat
    let tells (t : State) (b : Bool) : Prop :=
      p ≠ 0 → t.gets pr (if b then (if s.cur.x then 2 ^ 128 - 1 else 1) else 0)
    (∀ k, namesPort q k → s.issues (.trypop h d q (.p p)) →
      (s.me.poppable k s.now = 0 → s.serves ((needs [] (regOf s.cur.x d).toList).and (needs [] [pr])) →
        ∃ t, exec (.trypop h d q (.p p)) s = .next t ∧ s.wentOn t h ∧ tells t false ∧ t.me.fifo k = s.me.fifo k ∧
          s.me.sameBut t.me [pr] ∧ s.onlyMe t) ∧
      (0 < s.me.poppable k s.now → s.serves ((dstNeeds s.cur.x d).and (needs [] [pr])) → regOf s.cur.x d ≠ some pr →
        ∃ t, exec (.trypop h d q (.p p)) s = .next t ∧ s.wentOn t h ∧ tells t true ∧ t.holds d (s.take q).1 ∧
          s.onlyMe t ∧ (k < 4 → ¬namesPort d k → ∃ e, (s.me.fifo k).entries = e :: (t.me.fifo k).entries))) ∧
    (∀ k, namesPort q k → s.issues (.trypush h q a (.p p)) →
      s.serves ((srcNeeds s.cur.x a).and (needs [] [pr])) →
      ∃ t, exec (.trypush h q a (.p p)) s = .next t ∧ s.wentOn t h ∧ tells t (s.me.room k s.now) ∧ s.onlyMe t ∧
        (s.me.room k s.now = true → t.holds q (s.take a).1) ∧
        (s.me.room k s.now = false → ¬namesPort a k → t.me.fifo k = s.me.fifo k)) ∧
    (s.issues (.pushb h q (.p p) m) → s.serves ((dstNeeds s.cur.x q).and (needs [pr] [])) →
      let v := s.me.reg pr
      let w := if s.cur.x then 128 else 1
      ∃ t b, exec (.pushb h q (.p p) m) s = .next t ∧ s.wentOn t h ∧ s.onlyMe t ∧ s.me.sameBut t.me [] ∧
        t.holds q (if b then 1 else 0) ∧
        (m = none ∨ m = some (.imm 0) → b = v.testBit 0) ∧
        (m = some (.imm 1) → (b = true ↔ ∃ i, i < w ∧ v.testBit i = true)) ∧
        (m = some (.imm 2) → (b = true ↔ ∀ i, i < w → v.testBit i = true))) ∧
    (∀ g, regOf s.cur.x r = some g → s.issues (.clrp h r) → s.serves (needs [] [g]) →
      ∃ t, exec (.clrp h r) s = .next t ∧ s.onlyMe t ∧
        (s.me.inFlight s.cur.x g s.now = true → s.waited t ∧ ∀ y, t.me.absent y = s.me.absent y) ∧
        (s.me.inFlight s.cur.x g s.now = false → s.wentOn t h ∧ t.me.absent g = true ∧ s.me.sameBut t.me [] ∧
          ∀ y, y ≠ g → t.me.absent y = s.me.absent y))

/-! ### Traps and privilege (16 R357 to R366, 19 R421) -/

/-- 16 R362: a trap of a compute core at level T saves both PCs, whether the X-stream ran, cause, information and predicates,
sets level S and goes on at TVEC three cycles later; registers, loops, return stores, queues and memory stay, and the
safe-point watchdog stops. -/
def Obligations.TrapEntrySavesAndVectors : Prop :=
  ∀ (s : State) (n : Nat) (x : Bool) (cause code mask info : Nat), isHub n = false → (s.core n).level = .t → cause < 256 →
    let c := s.core n
    let t := s.trapOn n x cause code mask info
    let d := t.core n
    d.level = .s ∧ d.a.pc = (c.svGet 1).toNat % 4096 ∧ d.a.ready = c.cyc + 3 ∧ d.svGet 2 = BitVec.ofNat 64 c.a.pc ∧
    d.svGet 3 = BitVec.ofNat 64 (c.x.pc + (if c.x.run then 4096 else 0)) ∧
    (d.svGet 4).toNat = cause + (if x then 256 else 0) + 65536 * (code % 65536) + 2 ^ 32 * (mask % 256) ∧
    d.svGet 5 = BitVec.ofNat 64 info ∧
    (∀ i, i < 64 → (d.svGet 8).getLsbD i = (decide (1 ≤ i ∧ i < 16) && tget false i c.pa)) ∧
    (∀ r, d.reg r = c.reg r) ∧ d.pends = c.pends ∧ d.aq = c.aq ∧ d.xq = c.xq ∧ d.bqa = c.bqa ∧ d.bqx = c.bqx ∧ d.lm = c.lm ∧
    (∀ y, (d.stream y).loops = (c.stream y).loops ∧ (d.stream y).rets = (c.stream y).rets ∧
      (d.stream y).landings = (c.stream y).landings ∧ (d.stream y).run = (c.stream y).run) ∧
    d.x.pc = c.x.pc ∧ (∀ k ∈ d.task, k.watch = none) ∧ t.mem = s.mem ∧ ∀ m, m ≠ n → t.core m = s.core m

/-- 16 R364, R371, 02 R430: a trap at level S and a write of 1 to SVABORT, by MTSV or as the event, save nothing, stop both streams,
write a DOUBLE_TRAP record with TPCA and TCAUSE as they stood, which is counted as lost where the ring is full, and abort the
launch: a domain of one device by an ABORT to itself, a larger one by a report to its device 0. -/
def Obligations.DoubleTrapAbortsTheLaunch : Prop :=
  ∀ (s : State) (n : Nat) (r : Run) (y : Story), isHub n = false →
    s.runOf n = some r → s.stories.find? (fun q => q.id == r.sb) = some y →
    let c := s.core n
    let m : AbortMsg := { sb := y.va, nth := y.nth, idx := r.idx }
    let ends (t : State) (code d0 : Nat) : Prop :=
      { t.core n with a := c.a, x := c.x } = c ∧
      (∀ z, let q := (t.core n).stream z; q.run = false ∧ q.pc = (c.stream z).pc ∧ q.loops = (c.stream z).loops ∧
        q.rets = (c.stream z).rets ∧ q.landings = (c.stream z).landings ∧ q.lmq = (c.stream z).lmq) ∧
      s.logs t 0x11 false code (s.ctxOf n) (c.svGet 2).toNat d0 (c.svGet 4).toNat ∧
      (r.d ≤ 1 → t.agenda = s.agenda ++ [.abort m]) ∧ (1 < r.d → t.sentTo (t.rootPeer r) (.abortReport m))
    (c.level = .s → ∀ x cause code mask info, ends (s.trapOn n x cause code mask info) cause 0) ∧
    (c.level = .s → ∃ t, exec (.svabort n) s = .next t ∧ ends t ((c.svGet 4).toNat % 256) 1) ∧
    (∀ (h : Hdr) (g : BitVec 6), s.cur.core = n → s.issues (.mtsv h g 0xB) → s.serves (needs [.g g.toNat] []) →
      (s.me.reg (.g g.toNat)).testBit 0 = true → ∃ t, exec (.mtsv h g 0xB) s = .next t ∧ ends t ((c.svGet 4).toNat % 256) 1)

/-- 19 R421: a trap of a Welwick core saves its PC in WTPC and goes on at WVEC at level H; RFT resumes at WTPC at level T. 16 R363:
on a compute core RFT restores p1 to p15 from TPRED, sets level T, and resumes the A-stream at TPCA and the X-stream at TPCX
where XRUN is 1, neither before cycle t + 3 + n (05 R114); no loop record or return address is popped; one past the trapping slot
the back-edge test is made. What a Welwick core's trap writes beside WTPC and its level after RFT are the model's choices
(notes/assumptions/26), and so is the slot that it keeps aside for the test (notes/assumptions/27). -/
def Obligations.ReturnFromTrapRestores : Prop :=
  (∀ (s : State) (n : Nat), isHub n = true →
     (∀ (cause code mask info : Nat), cause < 256 →
       let c := s.core n
       let d := (s.trapOn n false cause code mask info).core n
       d.level = .h ∧ d.a.pc = (c.svGet 0x20).toNat / 16 ∧ d.svGet 0x21 = BitVec.ofNat 64 (16 * c.a.pc) ∧
       (d.svGet 4).toNat = cause + 65536 * (code % 65536) + 2 ^ 32 * (mask % 256) ∧ d.svGet 5 = BitVec.ofNat 64 info ∧
       ∀ r, d.reg r = c.reg r) ∧
     (∀ h : Hdr, s.cur = { core := n, x := false } → s.issues (.rft h) →
       s.serves (needs [] ((upFrom 1 15).map Reg.pa)) → s.st.aside = none →
       ∃ t, exec (.rft h) s = .next t ∧ s.onlyMe t ∧ t.me.level = .t ∧ t.me.a.pc = (s.me.svGet 0x21).toNat / 16 % 2 ^ 53 ∧
         (∀ i, 1 ≤ i → i < 16 → t.me.comes false (.pa i) = if (s.me.svGet 8).getLsbD i then 1 else 0))) ∧
  (∀ (s : State) (h : Hdr), isHub s.cur.core = false → s.issues (.rft h) →
     s.serves (needs [] ((upFrom 1 15).map Reg.pa)) →
     let pc := (s.me.svGet 2).toNat % 4096
     let px := (s.me.svGet 3).toNat
     ∃ t, exec (.rft h) s = .next t ∧ t.cur = s.cur ∧ t.me.level = .t ∧ t.mem = s.mem ∧
       t.me.x.run = decide (px / 4096 % 2 = 1) ∧ (s.me.x.stage.ofGang = false → t.me.x.pc = px % 4096) ∧
       t.me.a.ready = s.now + 3 + h.stall.toNat ∧ s.now + 3 + h.stall.toNat ≤ t.me.x.ready ∧ t.me.a.rets = s.me.a.rets ∧
       t.me.x.loops = s.me.x.loops ∧
       t.me.x.rets = s.me.x.rets ∧
       (∀ i, 1 ≤ i → i < 16 → t.me.comes false (.pa i) = if (s.me.svGet 8).getLsbD i then 1 else 0) ∧
       (∀ slot g, s.me.a.aside = some (slot, g) → s.me.a.stage.ofGang = false →
         (pc = slot + 1 → t.me.a.pc = (backEdge slot s.me.a.floor s.me.a.loops).2.getD pc ∧
           t.me.a.loops = (backEdge slot s.me.a.floor s.me.a.loops).1) ∧
         (pc ≠ slot + 1 → t.me.a.pc = pc ∧ t.me.a.loops = s.me.a.loops)) ∧
       (s.me.a.aside = none → t.me.a.pc = pc ∧ t.me.a.loops = s.me.a.loops))

/-- 16 R359, R360, R365, 19 R422: MFSV reads and MTSV writes a supervisor register: a core-local one at once, of a device register
MTSV goes on once the write is applied; WAITI ends with a mailbox entry or a pending pre-emption request, and on a Welwick core
with a bit of INTPEND. -/
def Obligations.SupervisorRegisterResults : Prop :=
  ∀ (s : State) (h : Hdr) (g : BitVec 6) (n : BitVec 12),
    let v := BitVec.ofNat 64 (s.me.reg (.g g.toNat))
    (s.issues (.mfsv h g n) → s.serves (needs [] [.g g.toNat]) →
      ∃ t, exec (.mfsv h g n) s = .next t ∧ s.wentOn t h ∧
        (svDevice n.toNat = false → n ≠ 0xB → t.gets (.g g.toNat) (s.me.svGet n.toNat).toNat ∧ s.onlyMe t) ∧
        (svDevice n.toNat = true → t.gets (.g g.toNat) (s.regValue n.toNat % 2 ^ 64) ∧
          s.me.sameBut t.me [.g g.toNat] ∧ t.mem = s.mem)) ∧
    (s.issues (.mtsv h g n) → s.serves (needs [.g g.toNat] []) → svDevice n.toNat = false → n ≠ 0xB →
      ∃ t, exec (.mtsv h g n) s = .next t ∧ s.wentOn t h ∧ s.onlyMe t ∧ s.me.sameBut t.me [] ∧
        (∀ k, k ≠ n.toNat → t.me.svGet k = s.me.svGet k) ∧
        (n = 6 ∨ n = 7 → t.me.svGet n.toNat = v) ∧ (n = 4 ∨ n = 5 → t.me.svGet n.toNat = s.me.svGet n.toNat) ∧
        (n = 0 → t.me.svGet 0 = v &&& 1) ∧ (n = 2 → t.me.svGet 2 = v &&& 0xFFF) ∧ (n = 3 → t.me.svGet 3 = v &&& 0x1FFF) ∧
        (n = 8 → t.me.svGet 8 = v &&& 0xFFFE) ∧
        (n = 1 → t.me.svGet 1 = if (v &&& 0xFFF).toNat < 0xF00 then s.me.svGet 1 else v &&& 0xFFF)) ∧
    (s.issues (.mtsv h g n) → s.serves (needs [.g g.toNat] []) → svDevice n.toNat = true →
      ∃ t, exec (.mtsv h g n) s = .next t ∧
        (∀ u, s.devWrite (writerOf s.cur.core) n.toNat v = some u → u.cur = s.cur → u.me = s.me →
          s.wentOn t h ∧ t = { u with cores := t.cores }) ∧
        (s.devWrite (writerOf s.cur.core) n.toNat v = none → s.waited t ∧ s.onlyMe t)) ∧
    (s.issues (.waiti h) → ∃ t, exec (.waiti h) s = .next t ∧ s.onlyMe t ∧ s.me.sameBut t.me [] ∧
      if s.me.mail ≠ [] ∨ s.me.task.any Task.preempt = true ∨ (isHub s.cur.core = true ∧ s.intpend ≠ 0) then s.wentOn t h
      else s.waited t)

/-! ### Memory accesses (07, 09 R219 to R231, 18 R393 to R399) -/

/-- 18 R399: a page that translation and checks give allows the access; they change no core, no gang and no request. -/
def Obligations.TranslationChecksPermissions : Prop :=
  ∀ (s u : State) (va : Nat) (rd wr : Bool) (o : Reached),
    reach (s.asker s.cur.core) va rd wr (s.translateFor s.cur.core va) = (o, u) →
    u.cores = s.cores ∧ u.gangs = s.gangs ∧ u.cur = s.cur ∧ u.reqs = s.reqs ∧ u.agenda = s.agenda ∧ u.lines = s.lines ∧
    u.full = s.full ∧ u.sent = s.sent ∧ u.runs = s.runs ∧
    (∀ t, o = .page t → (rd = true → leafR t.leaf = true) ∧
      (wr = true → leafW t.leaf = true ∧ leafRop t.leaf = false) ∧ (s.me.level = .t → leafU t.leaf = true)) ∧
    (∀ c k i, o = .trap c k i → i = va ∧ (c = 0x16 ∨ c = 0x12 ∧ wr = true))

/-- 09 R220, R222: LL and LS without a mode: range before alignment, an order that is the model's choice (notes/assumptions/16), then
the load's value at its register with latency 3, where LL has not waited, or the bytes stored, seen by the stream's own loads at
once; the identity words stay. 07 R183, R186: a synchronising LL or LS, its release made, completes where its mode's condition
holds: one step moves the data and sets the full/empty bit; where it does not hold it waits; once it has waited 2^24 cycles since
its issue it traps FE_STALL. -/
def Obligations.LocalMemoryResults : Prop :=
  (∀ (s : State) (h : Hdr) (m : MForm), m.mode = 0 →
     let ea := s.addrOf m
     let n := szBytes m.sz
     let trapped (t : State) (cause : Nat) : Prop := t = s.trapOn s.cur.core s.cur.x cause 0 0 ea
     (s.issues (.ll h m) → s.serves (s.needsM m [] [.g m.didx.toNat]) → ∃ t, exec (.ll h m) s = .next t ∧
       (65536 < ea + n → trapped t 0x0D) ∧ (ea + n ≤ 65536 → ea % n ≠ 0 → trapped t 0x0E) ∧
       (ea + n ≤ 65536 → ea % n = 0 → s.me.lmBlocked ea n false = true → s.waited t ∧ s.onlyMe t) ∧
       (ea + n ≤ 65536 → ea % n = 0 → s.me.lmBlocked ea n false = false →
         let v := loaded n (szSigned m.sz) (s.me.lmRd s.cur.x ea n)
         s.wentOn t h ∧ t.gets (.g m.didx.toNat) v ∧ s.onlyMe t ∧
         s.me.sameBut t.me [.g m.didx.toNat] ∧ t.me.lm = s.me.lm ∧ t.st.lmq = s.st.lmq ∧
         (s.st.stage ≠ .waited → (∀ y, ∀ l ∈ (s.me.stream y).landings, l.dst ≠ .g m.didx.toNat) →
           ∀ u, (s.now + 3 ≤ u → (t.me.at' u).reg (.g m.didx.toNat) = v) ∧
             (u < s.now + 3 → (t.me.at' u).reg (.g m.didx.toNat) = s.me.reg (.g m.didx.toNat))))) ∧
     (s.issues (.ls h m) → s.serves (s.needsM m [.g m.didx.toNat] []) → ∃ t, exec (.ls h m) s = .next t ∧
       (65536 < ea + n → trapped t 0x0D) ∧ (ea + n ≤ 65536 → ea % n ≠ 0 → trapped t 0x0E) ∧
       (ea + n ≤ 65536 → ea % n = 0 → s.me.lmBlocked ea n true = true → s.waited t ∧ s.onlyMe t) ∧
       (ea + n ≤ 65536 → ea % n = 0 → s.me.lmBlocked ea n true = false →
         s.wentOn t h ∧ s.onlyMe t ∧ s.me.sameBut t.me [] ∧
         ∀ a, tget 0 a (t.me.lmView s.cur.x) =
           if ea ≤ a ∧ a < ea + n ∧ ¬(0x780 ≤ a ∧ a < 0x800) then BitVec.ofNat 8 (s.me.reg (.g m.didx.toNat) / 256 ^ (a - ea))
           else tget 0 a (s.me.lmView s.cur.x)))) ∧
  (∀ (s : State) (h : Hdr) (m : MForm) (sc : Nat),
     let ea := s.addrOf m
     let d := Reg.g m.didx.toNat
     let u := s.afterRelease sc
     let full := s.me.lmFullAt ea
     m.mode ≠ 0 → s.scopeOf s.cur.core m.scope = some sc → ea + 8 ≤ 65536 → ea % 8 = 0 →
     ((s.beginSync ea).feExpired = true → s.me.lmBlocked ea 8 false = false → s.me.lmBlocked ea 8 true = false →
       (s.issues (.ll h m) → s.serves (s.needsM m [] [d]) →
         exec (.ll h m) s = .next ((s.beginSync ea).trapOn s.cur.core s.cur.x 0x10 0 0 ea)) ∧
       (s.issues (.ls h m) → s.serves (s.needsM m [d] []) →
         exec (.ls h m) s = .next ((s.beginSync ea).trapOn s.cur.core s.cur.x 0x10 0 0 ea))) ∧
     ((s.beginSync ea).feExpired = false → s.releases sc → s.st.stage ≠ .lmWait ea →
     let ready (t : State) : Prop := s.wentOn t h ∧ t.mem = u.mem ∧
       (inIdent ea = false → t.me.lmFullAt ea = modeBit m.mode.toNat full) ∧
       (∀ a, a / 8 ≠ ea / 8 → t.me.lmFullAt a = s.me.lmFullAt a)
     (s.issues (.ll h m) → s.serves (s.needsM m [] [d]) → s.me.lmBlocked ea 8 false = false → ∃ t, exec (.ll h m) s = .next t ∧
       (modeMet m.mode.toNat full = true → u.acqBusy = false → ready t ∧ t.gets d (s.me.lmRd s.cur.x ea 8)) ∧
       (modeMet m.mode.toNat full = false → u.waited t ∧ t.st.stage = .lmWait ea)) ∧
     (s.issues (.ls h m) → s.serves (s.needsM m [d] []) → s.me.lmBlocked ea 8 true = false → ∃ t, exec (.ls h m) s = .next t ∧
       (modeMet m.mode.toNat full = true → u.acqBusy = false → ready t ∧ (inIdent ea = false →
         ∀ k, k < 8 → tget 0 (ea + k) t.me.lm = BitVec.ofNat 8 (s.me.reg d / 256 ^ k))) ∧
       (modeMet m.mode.toNat full = false → u.waited t ∧ t.st.stage = .lmWait ea))))

/-- 09 R220, R223, R224: LD, LDC and ST of memory of the device's own: alignment first, then translation; a load waits for its
home's answer, LDC only from a read-only page; a store outside the caches goes to its home with the register's bytes, behind the
dirty bytes of its line, and no byte of memory changes before it gets there but the page's dirty bits. With CL = 1 (18 R401) a load
takes the bytes of its cluster's line where the line is there and holds all of them and no access of the stream to them is under
way, and else asks the home; a store of WP 0 puts its bytes into the line and makes them dirty, one of WP 1 goes to the home too, and
one that finds no line and is not of WP 0 goes to the home. Whether the line is still there is a free value. -/
def Obligations.DeviceLoadAndStoreResults : Prop :=
  ∀ (s u : State) (h : Hdr) (m : MForm) (pg : TlbEntry),
    let ea := s.addrOf m
    let n := szBytes m.sz
    let d := Reg.g m.didx.toNat
    let pa := pg.addr ea
    ∀ e ∈ ([(.ld h m, false), (.ldc h m, true)] : List (Instr × Bool)),
      (s.issues e.1 → s.serves (s.needsM m [] [d]) →
        (ea % n ≠ 0 → exec e.1 s = .next (s.trapOn s.cur.core s.cur.x 0x0E 0 0 ea)) ∧
        (ea % n = 0 → s.reaches ea true false pg u → e.2 = true → leafRop pg.leaf = false →
          exec e.1 s = .next (u.trapOn s.cur.core s.cur.x 0x11 0 0 ea)) ∧
        (ea % n = 0 → s.reaches ea true false pg u → (e.2 = true → leafRop pg.leaf = true) → paPeer pa = s.peerid →
          s.takeRun s.cur.core = none → ∃ t, exec e.1 s = .next t ∧ s.wentOn t h ∧ t.mem = u.mem ∧
            t.me.pendingReg s.cur.x d = true ∧ (∀ r, r ≠ d → t.me.comes s.cur.x r = s.me.comes s.cur.x r) ∧
            (leafCl pg.leaf ≠ 1 ∨ e.2 = true ∨ s.meOwner.cluster = none → t.awaitsAnswer [d] pa (.load n (szSigned m.sz) e.2)) ∧
            (∀ cl, leafCl pg.leaf = 1 → e.2 = false → s.meOwner.cluster = some cl →
              let all (l : CacheLine) : Prop := lineBits pa n &&& l.valid = lineBits pa n
              (∀ l, (u.lookLine cl pa).1 = some l → all l → u.ownInFlight pa n = false → t.reqs = (u.lookLine cl pa).2.reqs ∧
                t.gets d (loaded n (szSigned m.sz) (leNat (tgets 0 (pa % 64) n l.data)))) ∧
              ((∀ l, (u.lookLine cl pa).1 = some l → ¬all l) ∨ u.ownInFlight pa n = true →
                t.awaitsAnswer [d] pa (.load n (szSigned m.sz) false))))) ∧
      (s.issues (.st h m) → s.serves (s.needsM m [d] []) →
        (ea % n ≠ 0 → exec (.st h m) s = .next (s.trapOn s.cur.core s.cur.x 0x0E 0 0 ea)) ∧
        (ea % n = 0 → s.reaches ea false true pg u → paPeer pa = s.peerid → s.takeRun s.cur.core = none →
          ∃ t, exec (.st h m) s = .next t ∧ s.wentOn t h ∧ t.mem = (u.markDirty pg).mem ∧ s.me.sameBut t.me [] ∧
            (leafCl pg.leaf ≠ 1 ∨ s.meOwner.cluster = none →
              ((u.markDirty pg).flushDirty pa n).requests t pa (.store (leBytes (s.me.reg d) n))) ∧
            (∀ cl, leafCl pg.leaf = 1 → s.meOwner.cluster = some cl →
              let sent : Prop := ∃ q, t.reqs.getLast? = some q ∧ q.pa = pa ∧ q.owner = s.meOwner ∧ q.kind = .store (leBytes (s.me.reg d) n)
              (leafWp pg.leaf = 0 → ∃ l, t.lineAt cl pa = some l ∧ l.core = s.cur.core ∧ l.x = s.cur.x ∧
                lineBits pa n &&& l.valid &&& l.dirty = lineBits pa n ∧
                ∀ k, k < n → tget 0 (pa % 64 + k) l.data = BitVec.ofNat 8 (s.me.reg d / 256 ^ k)) ∧
              (leafWp pg.leaf = 1 → sent) ∧
              (leafWp pg.leaf ≠ 0 → (u.markDirty pg).lineAt cl pa = none → sent))))

/-- 08 R194 to R199, R205, R210, 09 R230: in a take launch a store or a non-returning atomic to a published page of the device, or to
another device of the cut group, becomes one deferred record with the task's next sequence number, the rule, the bytes and
their mask; one beyond 2^32 in the take is not sent, but counted and recorded. Another device's memory outside the cut group traps
TAKE_TARGET, and so does every access to it outside a take launch; a load of it traps TAKE_READ where its page is not published, and
else waits for the cut before the take to close, then for the target's answer. DST outside a take launch traps LEVEL_MISMATCH
before any other check, with TINFO 0, the model's choice (notes/assumptions/16). -/
def Obligations.DeferredWritesBecomeRecords : Prop :=
  (∀ (s u : State) (h : Hdr) (m : MForm) (pg : TlbEntry),
    let ea := s.addrOf m
    let n := szBytes m.sz
    let d := Reg.g m.didx.toNat
    let pa := pg.addr ea
    let trapped (i : Instr) (cause : Nat) : Prop := exec i s = .next (u.trapOn s.cur.core s.cur.x cause 0 0 ea)
    ea % n = 0 → paPeer pa ≠ s.peerid →
    (s.takeRun s.cur.core = none →
      (s.issues (.ld h m) → s.serves (s.needsM m [] [d]) → s.reaches ea true false pg u → trapped (.ld h m) 0x14) ∧
      (s.issues (.ldc h m) → s.serves (s.needsM m [] [d]) → s.reaches ea true false pg u → leafRop pg.leaf = true →
        trapped (.ldc h m) 0x14) ∧
      (s.issues (.st h m) → s.serves (s.needsM m [d] []) → s.reaches ea false true pg u → trapped (.st h m) 0x14) ∧
      (∀ i ∈ [.atadd h m, .atmin h m, .atmax h m, .ator h m, .atand h m], s.issues i → s.serves (s.needsM m [d] []) →
        s.reaches ea true true pg u → trapped i 0x14)) ∧
    (∀ r, s.takeRun s.cur.core = some r → s.reaches ea true false pg u →
      (s.issues (.ldc h m) → s.serves (s.needsM m [] [d]) → leafRop pg.leaf = true → trapped (.ldc h m) 0x13) ∧
      (s.issues (.ld h m) → s.serves (s.needsM m [] [d]) →
        (leafPub pg.leaf = false → trapped (.ld h m) 0x13) ∧
        (leafPub pg.leaf = true → ∃ t, exec (.ld h m) s = .next t ∧
          (u.takeWait s.cur.core false true = true → s.waited t) ∧
          (u.takeWait s.cur.core false true = false → u.reachable (paPeer pa) = true → s.wentOn t h ∧ t.mem = u.mem ∧
            t.me.pendingReg s.cur.x d = true ∧
            (leafCl pg.leaf ≠ 1 → t.awaitsAnswer [d] pa (.load n (szSigned m.sz) false))) ∧
          (u.takeWait s.cur.core false true = false → u.reachable (paPeer pa) = false → s.wentOn t h ∧ t.gets d 0 ∧
            u.logs t 0x02 true (u.portFor s.cur.core (paPeer pa)) (u.ctxOf s.cur.core) ea (paPeer pa) 3))))) ∧
  ∀ (s u : State) (h : Hdr) (m : MForm) (pg : TlbEntry) (k : Task),
    let ea := s.addrOf m
    let n := szBytes m.sz
    let d := Reg.g m.didx.toNat
    let pa := pg.addr ea
    let off := pa % 8
    ∀ e ∈ ([(.st h m, 0, false, false), (.dst h m, m.mode.toNat, szSigned m.sz, paPeer pa = s.peerid ∧ leafPub pg.leaf = false),
        (.atadd h m, 2, bitAt m.mode.toNat 0, true), (.atmin h m, 5, bitAt m.mode.toNat 0, true),
        (.atmax h m, 4, bitAt m.mode.toNat 0, true), (.ator h m, 6, bitAt m.mode.toNat 0, true),
        (.atand h m, 7, bitAt m.mode.toNat 0, true)] : List (Instr × Nat × Bool × Bool)),
      s.issues e.1 → s.serves (s.needsM m [d] []) → ea % n = 0 → s.me.task = some k →
      (s.takeRun s.cur.core = none → e.1 = .dst h m → exec e.1 s = .next (s.trapOn s.cur.core s.cur.x 0x05 0 0 0)) ∧
      (∀ r, s.takeRun s.cur.core = some r → s.reaches ea e.2.2.2 true pg u →
        (paPeer pa ≠ s.peerid → u.inGroup r (paPeer pa) = false →
          exec e.1 s = .next (u.trapOn s.cur.core s.cur.x 0x14 0 0 ea)) ∧
        (k.seq < 2 ^ 32 → (paPeer pa = s.peerid ∧ leafPub pg.leaf = true ∨ paPeer pa ≠ s.peerid ∧ u.inGroup r (paPeer pa) = true) →
          (e.1 = .dst h m → e.2.2.2 = false) →
          ∃ t q, exec e.1 s = .next t ∧ s.wentOn t h ∧ t.sent = u.sent ++ [q] ∧ t.mem = (u.markDirty pg).mem ∧
            q.peer = paPeer pa ∧ q.lpa = paLocal pa / 8 * 8 ∧ q.rule.toNat = e.2.1 % 8 ∧ q.seq = k.seq ∧ q.take = k.take ∧
            q.swid = k.wid ∧ q.len = 0 ∧ q.mask.toNat = (2 ^ n - 1) * 2 ^ off ∧
            (∀ i, i < n → q.data.getD (off + i) 0 = BitVec.ofNat 8 (s.me.reg d / 256 ^ i)) ∧
            t.me.task = some { k with seq := k.seq + 1 } ∧ s.me.sameBut t.me []) ∧
        (2 ^ 32 ≤ k.seq → (paPeer pa = s.peerid ∧ leafPub pg.leaf = true ∨ paPeer pa ≠ s.peerid ∧ u.inGroup r (paPeer pa) = true) →
          (e.1 = .dst h m → e.2.2.2 = false) →
          ∃ t k', exec e.1 s = .next t ∧ s.wentOn t h ∧ t.sent = u.sent ∧ t.agenda = u.agenda ∧ t.outbox = u.outbox ∧
            (u.markDirty pg).logs t 0x04 true 1 (s.ctxOf s.cur.core) 0 1 0 ∧
            (let key := 2 * r.cgrp + k.take % 2; tget 0 key t.overrun = tget 0 key s.overrun + 1) ∧
            t.me.task = some k' ∧ k'.seq = k.seq + 1 ∧ k'.take = k.take ∧ s.me.sameBut t.me []))

/-- 09 R226 to R228, 07 R182, 08 R194, R196: a synchronising access of a page without FE traps FE_PAGE; without a mode and without
TRY it is a plain access at its home; any other is released, sent to its home and waits there, and once the home has answered it
ends with the loaded value and, in a TRY form, the outcome in the next register. That its stream stays at the instruction until the
home has answered is the model's choice (notes/assumptions/15). On another device, and on a published page in a take launch, it traps
and so does a returning atomic: TAKE_SYNC in a take launch, else TAKE_TARGET. -/
def Obligations.SynchronisingAccessResults : Prop :=
  (∀ (s u : State) (h : Hdr) (m : MForm) (pg : TlbEntry),
    let ea := s.addrOf m
    let d := Reg.g m.didx.toNat
    let d1 := Reg.g (m.didx.toNat + 1)
    ∀ i ∈ [.axadd h m, .axmin h m, .axmax h m, .axor h m, .axand h m, .axchg h m, .acas h m],
      s.issues i → s.serves (s.needsM m (if i = .acas h m then [d, d1] else [d]) [d]) → ea % szBytes m.sz = 0 →
      s.reaches ea true true pg u →
      (paPeer (pg.addr ea) ≠ s.peerid →
        exec i s = .next (u.trapOn s.cur.core s.cur.x (if (s.takeRun s.cur.core).isSome then 0x15 else 0x14) 0 0 ea)) ∧
      (paPeer (pg.addr ea) = s.peerid → leafPub pg.leaf = true → (s.takeRun s.cur.core).isSome = true →
        exec i s = .next (u.trapOn s.cur.core s.cur.x 0x15 0 0 ea))) ∧
  ∀ (s u : State) (h : Hdr) (m : MForm) (pg : TlbEntry) (sc : Nat),
    let ea := s.addrOf m
    let d := Reg.g m.didx.toNat
    let d1 := Reg.g (m.didx.toNat + 1)
    let mode := m.mode.toNat
    ∀ e ∈ ([(.ldfe h m, true, false), (.stfe h m, false, false), (.tryldfe h m, true, true), (.trystfe h m, false, true)] :
        List (Instr × Bool × Bool)),
      let isLoad := e.2.1
      let tr := e.2.2
      let wr := !isLoad || mode == 2 || mode == 5
      s.issues e.1 →
      s.serves (s.needsM m (if isLoad then [] else [d]) ((if isLoad then [d] else []) ++ (if tr then [d1] else []))) →
      s.scopeOf s.cur.core m.scope = some sc →
      (s.st.stage = .start → ea % 8 ≠ 0 → exec e.1 s = .next (s.trapOn s.cur.core s.cur.x 0x0E 0 0 ea)) ∧
      (s.st.stage = .start → ea % 8 = 0 → s.reaches ea true wr pg u → leafFe pg.leaf = false →
        exec e.1 s = .next (u.trapOn s.cur.core s.cur.x 0x0F 0 0 ea)) ∧
      (s.st.stage = .start → ea % 8 = 0 → s.reaches ea true wr pg u → leafFe pg.leaf = true →
        (paPeer (pg.addr ea) ≠ s.peerid →
          exec e.1 s = .next (u.trapOn s.cur.core s.cur.x (if (s.takeRun s.cur.core).isSome then 0x15 else 0x14) 0 0 ea)) ∧
        (paPeer (pg.addr ea) = s.peerid → leafPub pg.leaf = true → (s.takeRun s.cur.core).isSome = true →
          exec e.1 s = .next (u.trapOn s.cur.core s.cur.x 0x15 0 0 ea))) ∧
      (s.st.stage = .start → ea % 8 = 0 → s.reaches ea true wr pg u → leafFe pg.leaf = true →
        paPeer (pg.addr ea) = s.peerid → s.takeRun s.cur.core = none →
        (mode = 0 → tr = false → ∃ t, exec e.1 s = .next t ∧ s.wentOn t h ∧
          (isLoad = true → t.awaitsAnswer [d] (pg.addr ea) (.load 8 false false)) ∧
          (isLoad = false → ∃ r, t.reqs.getLast? = some r ∧ r.pa = pg.addr ea ∧ r.owner = s.meOwner ∧
            r.kind = .store (leBytes (s.me.reg d) 8) ∧ t.me.pends = s.me.pends)) ∧
        (mode ≠ 0 ∨ tr = true → mode = 0 ∨ (if isLoad then u else u.markDirty pg).releases sc →
          ∃ t r, exec e.1 s = .next t ∧ s.waited t ∧
          t.reqs.getLast? = some r ∧ t.st.stage = .request r.id ∧ r.pa = pg.addr ea ∧ r.owner = s.meOwner ∧
          r.kind = .sync mode isLoad tr (BitVec.ofNat 64 (s.me.reg d)))) ∧
      (∀ ok v, s.st.stage = .answered ok v → (tr = false → ok = true) → v < 2 ^ 64 → s.acqBusy = false →
        ∃ t, exec e.1 s = .next t ∧ s.wentOn t h ∧ t.mem = s.mem ∧
          (mode ≠ 0 → ok = true → 4 ≤ sc → t.st.carried = t.vecOf (dieOf s.cur.core)) ∧
          (isLoad = true → ok = true → t.gets d v) ∧ (tr = true → t.gets d1 (if ok then 1 else 0)) ∧
          ∀ r, r ≠ d → r ≠ d1 → t.me.comes s.cur.x r = s.me.comes s.cur.x r)

/-- 09 R228: an atomic of memory of the device's own goes to its home with its operation, size and operand; a returning one leaves
its register pending on the old value, and a non-returning one leaves every register as it was. -/
def Obligations.AtomicsGoToTheirHome : Prop :=
  ∀ (s u : State) (h : Hdr) (m : MForm) (pg : TlbEntry),
    let ea := s.addrOf m
    let n := szBytes m.sz
    let d := Reg.g m.didx.toNat
    let d1 := Reg.g (m.didx.toNat + 1)
    let sgn := bitAt m.mode.toNat 0
    let low (r : Reg) : Nat := s.me.reg r % 2 ^ (8 * n)
    ea % n = 0 → s.reaches ea true true pg u → paPeer (pg.addr ea) = s.peerid → s.takeRun s.cur.core = none →
    (∀ e ∈ ([(.atadd h m, 0), (.atmin h m, 1), (.atmax h m, 2), (.ator h m, 3), (.atand h m, 4)] : List (Instr × Nat)),
      s.issues e.1 → s.serves (s.needsM m [d] []) →
      ∃ t r, exec e.1 s = .next t ∧ s.wentOn t h ∧ t.reqs.getLast? = some r ∧ r.pa = pg.addr ea ∧ r.pend = none ∧
        r.kind = .atomic e.2 n sgn false (low d) 0 ∧ t.me.pends = s.me.pends ∧ s.me.sameBut t.me [] ∧
        t.mem = (u.markDirty pg).mem) ∧
    (∀ e ∈ ([(.axadd h m, 0), (.axmin h m, 1), (.axmax h m, 2), (.axor h m, 3), (.axand h m, 4), (.axchg h m, 5)] :
        List (Instr × Nat)),
      s.issues e.1 → s.serves (s.needsM m [d] [d]) →
      ∃ t, exec e.1 s = .next t ∧ s.wentOn t h ∧ t.awaitsAnswer [d] (pg.addr ea) (.atomic e.2 n sgn true (low d) 0) ∧
        t.mem = (u.markDirty pg).mem) ∧
    (s.issues (.acas h m) → s.serves (s.needsM m [d, d1] [d]) →
      ∃ t, exec (.acas h m) s = .next t ∧ s.wentOn t h ∧
        t.awaitsAnswer [d] (pg.addr ea) (.atomic 6 n sgn true (low d) (low d1)) ∧ t.mem = (u.markDirty pg).mem)

/-- 07 R172 to R179, 09 R229: REL, ACQ, FENCE and FENCE.ax complete at a scope once nothing they wait for is outstanding. A release
from die scope on carries the die's vector in later stores and sends a horizon to every home; an acquire takes what the
stream's loads have seen into the die's vector and leaves no clean byte in the cluster's cache; after a fence the stream's stores
carry what it took too (07 R176); a scope that names no level traps
LEVEL_MISMATCH. That a release waits for the stream's earlier loads too is the model's reading (notes/assumptions/21). -/
def Obligations.FenceResults : Prop :=
  ∀ (s : State) (h : Hdr) (f : BitVec 5),
    (s.scopeOf s.cur.core f = none → ∀ i ∈ [.fence h f, .rel h f, .acq h f, .fenceAx h f], s.issues i →
      exec i s = .next (s.trapOn s.cur.core s.cur.x 0x05 0 0 f.toNat)) ∧
    (∀ sc, s.scopeOf s.cur.core f = some sc →
      let clean (t : State) : Prop := ∀ cl, s.meOwner.cluster = some cl → ∀ l ∈ t.lines, l.cluster = cl → l.valid = l.dirty ∧ l.dirty ≠ 0
      let took (t : State) : Prop := t.st.carried = t.vecOf (dieOf s.cur.core) ∧
        ∀ k, k < 64 → tget 0 k s.st.seen ≤ tget 0 (64 * dieOf s.cur.core + k) t.vec
      let releasedTo (t : State) : Prop :=
        s.st.stage ≠ .released → 4 ≤ sc → t.st.carried = t.vecOf (dieOf s.cur.core) ∧
          (∀ k, k ∈ s.dies → ∃ a b, .horizonMessage k (dieOf s.cur.core) a b ∈ t.agenda)
      (s.issues (.rel h f) → s.releases sc → ∃ t, exec (.rel h f) s = .next t ∧ s.wentOn t h ∧ releasedTo t ∧
        s.me.sameBut t.me [] ∧ t.mem = s.mem ∧ (s.st.stage ≠ .released → t.st.lmq = [])) ∧
      (s.issues (.acq h f) → s.acqBusy = false → ∃ t, exec (.acq h f) s = .next t ∧ s.wentOn t h ∧
        s.me.sameBut t.me [] ∧ t.mem = s.mem ∧ (4 ≤ sc → clean t ∧
          ∀ k, k < 64 → tget 0 k s.st.seen ≤ tget 0 (64 * dieOf s.cur.core + k) t.vec)) ∧
      (s.issues (.fence h f) → s.releases sc → (4 ≤ sc → (s.afterRelease sc).ownReqs s.meOwner = []) →
        (s.afterRelease sc).acqBusy = false → ∃ t, exec (.fence h f) s = .next t ∧ s.wentOn t h ∧
        s.me.sameBut t.me [] ∧ t.mem = s.mem ∧ (4 ≤ sc → clean t ∧ took t)) ∧
      (s.issues (.fenceAx h f) → sc ≤ 1 → ∃ t, exec (.fenceAx h f) s = .next t ∧ s.wentOn t h ∧ s.me.sameBut t.me [] ∧
        t.mem = s.mem ∧ t.me.a.lmq = [] ∧ t.me.x.lmq = []) ∧
      (let v := s.setMe ((s.me.lmFlush false).lmFlush true)
       s.issues (.fenceAx h f) → 1 < sc → v.releases sc → (4 ≤ sc → (v.afterRelease sc).ownReqs s.meOwner = []) →
        (v.afterRelease sc).acqBusy = false → ∃ t, exec (.fenceAx h f) s = .next t ∧ s.wentOn t h ∧
        s.me.sameBut t.me [] ∧ t.mem = s.mem ∧ t.me.a.lmq = [] ∧ t.me.x.lmq = []))

/-- 09 R230 to R232, 08 R207, R208: DST of unpublished memory of the device's own is the access of its rule; RDSUM of a reduce
aperture leaves eight registers pending on its lanes; CUTA arrives at the task's cut, and moves on to the next take once the
cut before it is closed and no hold stands; CUTW ends when the cut before the task's take is closed; CUTST reads the status word.
Outside a take launch the cut instructions trap LEVEL_MISMATCH and RDSUM traps TAKE_TARGET, which for RDSUM comes before the other
checks, the model's choice (notes/assumptions/16). -/
def Obligations.CutInstructionResults : Prop :=
  ∀ (s u : State) (h : Hdr) (m : MForm) (pg : TlbEntry) (g : BitVec 6),
    let ea := s.addrOf m
    let n := szBytes m.sz
    let d := Reg.g m.didx.toNat
    let ds := (List.range 8).map (fun i => Reg.g (m.didx.toNat + i))
    (s.takeRun s.cur.core = none →
      (∀ i ∈ [.cuta h, .cutw h], s.issues i → exec i s = .next (s.trapOn s.cur.core s.cur.x 0x05 0 0 0)) ∧
      (s.issues (.cutst h g) → s.serves (needs [] [.g g.toNat]) →
        exec (.cutst h g) s = .next (s.trapOn s.cur.core s.cur.x 0x05 0 0 0)) ∧
      (s.issues (.rdsum h m) → s.serves (s.needsM m [] ds) →
        exec (.rdsum h m) s = .next (s.trapOn s.cur.core s.cur.x 0x14 0 0 ea))) ∧
    (∀ (r : Run) (k : Task), s.takeRun s.cur.core = some r → s.me.task = some k →
      (s.issues (.dst h m) → s.serves (s.needsM m [d] []) → ea % n = 0 → paPeer (pg.addr ea) = s.peerid →
        leafPub pg.leaf = false → s.reaches ea (decide (2 ≤ m.mode.toNat)) true pg u →
        s.takeWait s.cur.core true false = false → ∃ t, exec (.dst h m) s = .next t ∧ s.wentOn t h ∧
          t.sent = u.sent ∧ s.me.sameBut t.me [] ∧ t.mem = (u.markDirty pg).mem ∧
          (2 ≤ m.mode.toNat → ∃ q op, t.reqs.getLast? = some q ∧ q.pa = pg.addr ea ∧
            q.kind = .atomic op n (szSigned m.sz || n == 8) false (s.me.reg d % 2 ^ (8 * n)) 0 ∧
            (m.mode = 2 ∨ m.mode = 3 → op = 0) ∧ (m.mode = 4 → op = 2) ∧ (m.mode = 5 → op = 1) ∧ (m.mode = 6 → op = 3) ∧
            (m.mode = 7 → op = 4)) ∧
          (m.mode.toNat < 2 → leafCl pg.leaf ≠ 1 →
            ((u.markDirty pg).flushDirty (pg.addr ea) n).requests t (pg.addr ea)
              (.store (leBytes (s.me.reg d % 2 ^ (8 * n)) n)))) ∧
      (s.issues (.rdsum h m) → s.serves (s.needsM m [] ds) → ea % 64 = 0 → s.reaches ea true false pg u →
        u.aperture (paPeer (pg.addr ea)) = true → u.takeWait s.cur.core false true = false →
        ∃ t, exec (.rdsum h m) s = .next t ∧ s.wentOn t h ∧ t.awaitsAnswer ds (pg.addr ea) .rdsum ∧ t.mem = u.mem) ∧
      (s.issues (.cutst h g) → s.serves (needs [] [.g g.toNat]) → ∃ t, exec (.cutst h g) s = .next t ∧ s.wentOn t h ∧
        t.gets (.g g.toNat) s.cutst.toNat ∧ s.onlyMe t) ∧
      (s.issues (.cutw h) → ∃ t, exec (.cutw h) s = .next t ∧
        (s.cutOpen r.id (prevTake k.take) = true → s.waited t ∧ s.onlyMe t) ∧
        (s.cutOpen r.id (prevTake k.take) = false → s.acqBusy = false → s.wentOn t h ∧ s.me.sameBut t.me [])) ∧
      (s.issues (.cuta h) → s.st.stage = .cutArrived k.take → ∃ t, exec (.cuta h) s = .next t ∧
        (s.cutOpen r.id (prevTake k.take) = true ∨ s.cutHeld k.take = true → s.waited t ∧ t.me.task = some k) ∧
        (s.cutOpen r.id (prevTake k.take) = false → s.cutHeld k.take = false → s.wentOn t h ∧ s.me.sameBut t.me [] ∧
          t.me.task = some { k with take := (k.take + 1) % 2 ^ 32, seq := 0 })) ∧
      (s.issues (.cuta h) → s.st.stage ≠ .cutArrived k.take → s.enginesBusy s.cur.core = false → s.releases 8 →
        ∃ t, exec (.cuta h) s = .next t ∧ (∃ c ∈ t.cuts, c.run = r.id ∧ c.n = k.take ∧ s.cur.core ∈ c.tasks)))

/-- 16 R366, 18 R408, R409: TLBINV releases and acquires at device scope and sends the invalidation to every die and the hub; with
WAIT it ends when the invalidation has; a die that receives it takes its vector and drops every entry it hits; SDSTAT.PEND falls
when every die has dropped its entries and what had translated through them is done. The hub's die index 32, and which accesses the
completion waits for beyond those that R409 names, are the model's choices (notes/assumptions/7, 24). -/
def Obligations.InvalidationResults : Prop :=
  ∀ (s : State) (h : Hdr) (gv gs : BitVec 6) (wait : Bool),
    let v (g : BitVec 6) : Nat := s.me.reg (.g g.toNat)
    let u := s.afterRelease 5
    (∀ e ∈ ([(.tlbinvPage h gv gs wait, [Reg.g gv.toNat, Reg.g gs.toNat], 0, v gs % 2 ^ 16, v gv),
        (.tlbinvSpace h gs wait, [Reg.g gs.toNat], 1, v gs % 2 ^ 16, 0), (.tlbinvAll h wait, [], 2, 0, 0)] :
        List (Instr × List Reg × Nat × Nat × Nat)),
      s.issues e.1 → s.serves (needs e.2.1 []) →
      (∀ id, s.st.stage = .tlbSent id → ∃ t, exec e.1 s = .next t ∧
        if s.invals.any (fun w => w.id == id) then s.waited t else s.wentOn t h) ∧
      (s.st.stage = .start → s.releases 5 → u.ownReqs s.meOwner = [] → ∃ t w, exec e.1 s = .next t ∧
        t.invals = s.invals ++ [w] ∧ w.msg.kind = e.2.2.1 ∧ w.msg.space = e.2.2.2.1 ∧ w.msg.va = e.2.2.2.2 ∧
        (∀ k, k ∈ s.dies ∨ k = Config.hubDie → k ∈ w.dies ∧ .invalidationMessage k w.msg ∈ t.agenda) ∧
        t.sdstat = min (s.sdstat + 1) 0xFFFF ∧
        (if wait then t.st.stage = .tlbSent w.id ∧ t.st.pc = s.st.pc else s.wentOn t h))) ∧
    (∀ (die : Nat) (m : Inval), (∃ w ∈ s.invals, w.id = m.id ∧ die ∈ w.dies) →
      ∃ t, exec (.invalidationMessage die m) s = .next t ∧ (∀ e ∈ t.tlb, placeDie e.place = die → Inval.hitsTlb m e = false) ∧
        (∀ e ∈ t.walks, e.die = die → Inval.hitsWalk m e = false) ∧ (∀ w ∈ t.invals, w.id = m.id → die ∉ w.dies) ∧
        ∀ e, e ∈ m.vec → e.2 ≤ tget 0 (64 * die + e.1) t.vec) ∧
    (∀ w : InvalRun, s.invals = [w] → w.dies = [] → w.reqs = [] → w.nmcs = [] →
      (∀ q ∈ w.dones, s.donePending q = false) → s.concernedLater w.msg = false →
      ∃ t, exec (.invalidationComplete w.id) s = .next t ∧ t.invals = [] ∧ t.sdstat = s.sdstat - 1 ∧ t.mem = s.mem)

/-- 07 R168 to R175, R181 to R186: what a home does. A write in its turn, whose chain and vector the home covers, puts its bytes
into memory and no others; a load is answered with what stands there; an atomic puts its new value and answers the old; a
synchronising access moves its data and sets the bit in one step, fails in a TRY form, and else is listed. A horizon message
raises its home's horizon once the die's writes up to it are applied, and never lowers it; a refused access goes again when its
delay is over; one that has waited 2^24 cycles traps FE_STALL and its request is withdrawn, leaving no more than an empty place in
its die's chain. -/
def Obligations.HomesPerformRequests : Prop :=
  (∀ (s : State) (r : Req), s.reqs.find? (fun q => q.id == r.id) = some r → s.homeReady r = true → paPeer r.pa = s.peerid →
     let a := paLocal r.pa
     (∀ bs, r.kind = .store bs → s.badIn a bs.length = false → ∃ t, exec (.homeWriteApply r.id) s = .next t ∧
       (∀ k, k < bs.length → tget 0 (a + k) t.mem = bs.getD k 0) ∧
       (∀ b, b < a ∨ a + bs.length ≤ b → tget 0 b t.mem = tget 0 b s.mem) ∧ t.cores = s.cores ∧ t.full = s.full ∧
       (r.seq ≠ 0 → tget 0 (64 * homeOf a + r.die) t.chain = r.seq) ∧ ∀ q ∈ t.reqs, q.id ≠ r.id) ∧
     (∀ n sgn ro x core id p, r.kind = .load n sgn ro → r.owner = .stream core x → r.pend = some id → s.badIn a n = false → n ≤ 8 →
       (s.core core).pends = [p] → p.id = id → (∀ o ∈ p.outs, o.2 = none) → ∃ t, exec (.homeLoadAnswer r.id) s = .next t ∧
         t.mem = s.mem ∧ (∀ q ∈ t.reqs, q.id ≠ r.id) ∧
         (t.core core).pends = [{ p with outs := p.outs.map (fun o => (o.1, some (loaded n sgn (s.memRd a n)))) }]) ∧
     (∀ op n sgn ret v c core x, r.kind = .atomic op n sgn ret v c → r.owner = .stream core x → s.badIn a n = false → 1 ≤ n →
       n ≤ 8 → v < 2 ^ (8 * n) → c < 2 ^ (8 * n) → ∃ t, exec (.homeLoadAnswer r.id) s = .next t ∧
         (let old := BitVec.ofNat (8 * n) (s.memRd a n)
          let w := BitVec.ofNat (8 * n) v
          let new := BitVec.ofNat (8 * n) (t.memRd a n)
          (op = 0 → new = old + w) ∧ (op = 1 → new = if (if sgn then old.sle w else old.ule w) then old else w) ∧
          (op = 2 → new = if (if sgn then old.sle w else old.ule w) then w else old) ∧ (op = 3 → new = old ||| w) ∧
          (op = 4 → new = old &&& w) ∧ (op = 5 → new = w) ∧
          (op = 6 → new = if old = w then BitVec.ofNat (8 * n) c else old)) ∧
         (∀ id p, ret = true → r.pend = some id → (s.core core).pends = [p] → p.id = id → (∀ o ∈ p.outs, o.2 = none) →
           (t.core core).pends = [{ p with outs := p.outs.map (fun o => (o.1, some (loaded n sgn (s.memRd a n)))) }]) ∧
         (∀ b, b < a ∨ a + n ≤ b → tget 0 b t.mem = tget 0 b s.mem)) ∧
     (∀ mode isLoad tr v core, r.kind = .sync mode isLoad tr v → r.owner = .stream core false → a % 8 = 0 →
       (s.core core).a.stage = .request r.id → s.badIn a 8 = false → (∀ q ∈ s.reqs, q.st ≠ .listed) →
       let full := tget false (a / 8) s.full
       ∃ t, exec (.homeLoadAnswer r.id) s = .next t ∧
         (modeMet mode full = true → tget false (a / 8) t.full = modeBit mode full ∧ (∀ q ∈ t.reqs, q.id ≠ r.id) ∧
           (isLoad = true → t.mem = s.mem ∧ (t.core core).a.stage = .answered true (s.memRd a 8)) ∧
           (isLoad = false → t.memRd a 8 = v.toNat ∧ (t.core core).a.stage = .answered true 0)) ∧
         (modeMet mode full = false → t.full = s.full ∧ t.mem = s.mem ∧
           (tr = true → (t.core core).a.stage = .answered false 0 ∧ ∀ q ∈ t.reqs, q.id ≠ r.id) ∧
           (tr = false → ∃ q ∈ t.reqs, q.id = r.id ∧ q.st = .listed)))) ∧
  (∀ s : State,
     (∀ home die hz last, ∃ t, exec (.horizonMessage home die hz last) s = .next t ∧ t.mem = s.mem ∧ t.cores = s.cores ∧
       (last ≤ tget 0 (64 * home + die) s.chain →
         tget 0 (64 * home + die) t.hor = max hz (tget 0 (64 * home + die) s.hor)) ∧
       (tget 0 (64 * home + die) s.chain < last → t = s) ∧
       ∀ k, k ≠ 64 * home + die → tget 0 k t.hor = tget 0 k s.hor) ∧
     (∀ (r : Req) (due : Nat), s.reqs = [r] → r.st = .backoff due → ∃ t, exec (.retryBackoff r.id) s = .next t ∧
       (due ≤ s.dcyc → t.reqs = [{ r with st := .flight }]) ∧ (s.dcyc < due → t = s)) ∧
     (∀ (n : Nat) (r : Req) (mode : Nat) (isLoad : Bool) (v : Word) (since : Nat), isHub n = false → (s.core n).level = .t →
       (s.core n).a.stage = .request r.id → s.reqs = [r] → r.kind = .sync mode isLoad false v →
       (s.core n).a.waitFrom = some since → since + 2 ^ 24 ≤ (s.core n).cyc → (s.core n).runnable false = true →
       ∃ t, exec (.feStall n) s = .next t ∧ (r.seq = 0 → t.reqs = []) ∧
         (r.seq ≠ 0 → t.reqs = [{ r with kind := .store [], pend := none }]) ∧ (t.core n).level = .s ∧ (t.core n).svGet 4 = 0x10 ∧
         (t.core n).svGet 5 = BitVec.ofNat 64 r.va ∧ t.mem = s.mem))

/-! ### Sends, the mailbox and copies (05 R112, 06 R158, R159, 09 R233 to R241) -/

/-- 06 R158, R159, 05 R112: a send to a core of the launch leaves with the value read at issue, and to any other core traps
SEND_TARGET; on arrival it writes its g or v register and makes it present, or appends a word to the inbox, or is held where that
is full; a late one is dropped with a SEND_LATE record and changes no core; a held one, and a held mailbox entry, is placed once
there is room. -/
def Obligations.SendsAndMailboxResults : Prop :=
  ∀ s : State,
    (∀ (h : Hdr) (t : BitVec 6) (f : BitVec 2) (i : BitVec 5) (a : Desc) (av : BitVec 5),
      ∀ e ∈ ([(.send h (.remote t f i) a, (srcNeeds s.cur.x a).and (needs [.g t.toNat] []), Reg.g t.toNat, (s.take a).1.toNat),
          (.vsend h (.remote t f i) (.v av), needs [.s t.toNat, .v av.toNat] [], Reg.s t.toNat, s.me.reg (.v av.toNat))] :
          List (Instr × Needs × Reg × Nat)),
        s.issues e.1 → s.serves e.2.1 →
        let dst := s.me.reg e.2.2.1 % 2 ^ 15
        (s.fellow s.cur.core dst = none → exec e.1 s = .next (s.trapOn s.cur.core s.cur.x 0x0B 0 0 dst)) ∧
        (∀ k, s.fellow s.cur.core dst = some k → ∃ u m, exec e.1 s = .next u ∧ s.wentOn u h ∧
          u.agenda = s.agenda ++ [.sendArrival m] ∧ m.dst = dst ∧ m.run = k.run ∧ m.wid = k.wid ∧ m.file = f ∧ m.index = i ∧
          m.value = e.2.2.2 ∧ s.me.sameBut u.me [] ∧ u.mem = s.mem)) ∧
    (∀ m : SendMsg,
      (s.awaits m.dst m.run m.wid = false → ∃ t, exec (.sendArrival m) s = .next t ∧ t.cores = s.cores ∧
        s.logs t 0x08 false 0 m.ctx 0 (m.dst + 2 ^ 16 * m.file.toNat + 2 ^ 18 * m.index.toNat) 0) ∧
      (s.awaits m.dst m.run m.wid = true → s.behindHeld m = false → ∃ t, exec (.sendArrival m) s = .next t ∧
        t.mem = s.mem ∧ (∀ n, n ≠ m.dst → t.core n = s.core n) ∧
        (m.file = 0 → (t.core m.dst).reg (.g (32 + m.index.toNat)) = m.value % 2 ^ 64 ∧
          (t.core m.dst).absent (.g (32 + m.index.toNat)) = false) ∧
        (m.file = 1 → m.value < 2 ^ 1024 → (t.core m.dst).reg (.v m.index.toNat) = m.value ∧
          (t.core m.dst).absent (.v m.index.toNat) = false) ∧
        (m.file = 2 → (s.core m.dst).inbox.length < 32 →
          (t.core m.dst).inbox = (s.core m.dst).inbox ++ [BitVec.ofNat 64 m.value]) ∧
        (m.file = 2 → 32 ≤ (s.core m.dst).inbox.length → (t.core m.dst).inbox = (s.core m.dst).inbox ∧
          (t.core m.dst).held = (s.core m.dst).held ++ [m]))) ∧
    (∀ n m ms, (s.core n).held = m :: ms → (s.core n).inbox.length < 32 → ∃ t, exec (.heldSendDelivery n) s = .next t ∧
      (t.core n).inbox = (s.core n).inbox ++ [BitVec.ofNat 64 m.value] ∧ (t.core n).held = ms) ∧
    (∀ n ws es, (s.core n).heldMail = (none, ws) :: es → (s.core n).mail.length < 16 →
      ∃ t, exec (.mailboxPlacement n) s = .next t ∧ (t.core n).mail = (s.core n).mail ++ [ws] ∧ (t.core n).heldMail = es)

/-- 09 R233 to R240: CPY waits for its channel, traps LEVEL_MISMATCH for a rule or a multicast outside a take launch and
COPY_SHAPE for a record that is misaligned or breaks its checks, and else starts its copy; an element moves its bytes between
device and local memory; a clipped copy places its clip box in the mailbox; completion frees the channel and writes the word of
moved and faulted elements, full. An element of a load copy lands after the LM stores that its core's streams have queued (07 R165).
That a misaligned record raises COPY_SHAPE is the model's choice (notes/assumptions/57), and so is when a copy's full/empty word
changes (notes/assumptions/58). -/
def Obligations.CopyResults : Prop :=
  ∀ s : State,
    (∀ (h : Hdr) (f : CpyForm) (r : CopyRun) (pg : TlbEntry) (u : State) (sc : Nat),
      let a := s.me.reg (.g f.gs.toNat) % 2 ^ 16
      let shape := readShape (s.me.lmView false) a f (s.me.reg (.g f.gc.toNat) % 2 ^ 16)
        (BitVec.ofNat 64 (s.me.reg (.g f.gm.toNat)))
      s.issues (.cpy h f) →
      s.serves (needs ([Reg.g f.gs.toNat] ++ (if f.cw then [.g f.gc.toNat] else []) ++ (if f.mc then [.g f.gm.toNat] else [])) []) →
      ((tget none f.ch.toNat s.me.copies).isSome = true → ∃ t, exec (.cpy h f) s = .next t ∧ s.waited t ∧ s.onlyMe t) ∧
      (tget none f.ch.toNat s.me.copies = none →
        (s.takeRun s.cur.core = none → (f.mc = true ∨ f.rule ≠ 0) →
          exec (.cpy h f) s = .next (s.trapOn s.cur.core s.cur.x 0x05 0 0 f.scope.toNat)) ∧
        (f.mc = false → f.rule = 0 → a % 16 ≠ 0 ∨ 65536 < a + 128 →
          exec (.cpy h f) s = .next (s.trapOn s.cur.core s.cur.x 0x17 0 0 a)) ∧
        (f.mc = false → f.rule = 0 → a % 16 = 0 → a + 128 ≤ 65536 → s.me.lmBlocked a 128 false = false →
          ((f.acq || f.rel) = true → s.scopeOf s.cur.core f.scope = some sc) →
          (shape = none → exec (.cpy h f) s = .next (s.trapOn s.cur.core s.cur.x 0x17 0 0 a)) ∧
          (shape = some r → reachEngine (s.engineAsker s.cur.core) r.va (!f.dir) f.dir
              (s.translate (s.engineAsker s.cur.core) r.va) = (.page pg, u) →
            paPeer (pg.addr r.va) = s.peerid → (f.acq = true → u.releases sc) →
            ∃ t q, exec (.cpy h f) s = .next t ∧ s.wentOn t h ∧ tget none f.ch.toNat t.me.copies = some q ∧
              q.va = r.va ∧ q.dims = r.dims ∧ q.dlm = r.dlm ∧ q.esz = r.esz ∧ q.moved = 0 ∧ q.faulted = 0 ∧
              s.me.sameBut t.me [] ∧ t.mem = u.mem ∧ (f.acq = false → t.me.lm = s.me.lm))))) ∧
    (∀ (n ch : Nat) (r : CopyRun) (pg : TlbEntry) (u : State),
      tget none ch (s.core n).copies = some r → r.next < dimsTotal r.dims → r.form.mc = false →
      s.elementPage n r (r.vaAt r.next) = some (some pg, u) → paPeer (pg.addr (r.vaAt r.next)) = s.peerid →
      let va := r.vaAt r.next
      let pa := paLocal (pg.addr va)
      let off := r.lmAt r.next
      (r.form.dir = false → r.gran = none → u.takeWait n true ((u.copyTake r).isSome && leafPub pg.leaf) = false →
        u.covers (homeOf pa) r.vec = true → u.badIn pa r.esz = false →
        ∃ t q, exec (.copyElement n ch) s = .next t ∧ tget none ch (t.core n).copies = some q ∧ q.moved = r.moved + 1 ∧
          r.next < q.next ∧ t.mem = u.mem ∧ ∀ a, tget 0 a (t.core n).lm =
            if off ≤ a ∧ a < off + r.esz ∧ ¬(0x780 ≤ a ∧ a < 0x800) then tget 0 (pa + (a - off)) u.mem
            else tget 0 a ((s.core n).arrival).lm) ∧
      (r.form.dir = true → r.gran = none → u.copyTake r = none → leafRop pg.leaf = false →
        u.takeWait n true false = false →
        ∃ t q w, exec (.copyElement n ch) s = .next t ∧ tget none ch (t.core n).copies = some q ∧ q.moved = r.moved + 1 ∧
          t.mem = (u.markDirty pg).mem ∧ (t.core n).lm = (s.core n).lm ∧ t.reqs.getLast? = some w ∧
          w.pa = s.peerid * 2 ^ 45 + pa ∧ w.kind = .store (tgets 0 off r.esz (s.core n).lm) ∧ w.owner = .copy n ch)) ∧
    (∀ (n ch : Nat) (r : CopyRun), tget none ch (s.core n).copies = some r → s.copyWritten n ch r = true →
      (r.clipped = true → r.clipSt = 0 → s.copyReleases n r = true → (s.core n).mail.length < 16 → (s.core n).heldMail = [] → ch < 8 →
        ∃ t b w, exec (.clipBoxMessage n ch) s = .next t ∧ (t.core n).mail = (s.core n).mail ++ [w :: b] ∧
          (b.map BitVec.toNat).drop 3 = [0, 0, 0, 0] ∧ w.toNat % 2 ^ 8 = 1 ∧ w.toNat / 2 ^ 8 % 8 = ch ∧
          tget none ch (t.core n).copies = some { r with clipSt := 2 } ∧ t.mem = s.mem) ∧
      (r.clipped = false ∧ s.copyReleases n r = true ∨ r.clipped = true ∧ r.clipSt = 2 → r.fault1 = none → r.ropHeld = none →
        ∃ t, exec (.copyComplete n ch) s = .next t ∧ tget none ch (t.core n).copies = none ∧ t.mem = s.mem ∧
          (r.form.cw = false → (t.core n).lm = (s.core n).lm) ∧
          (r.form.cw = true → inIdent r.cword = false → r.cword % 8 = 0 → r.moved < 2 ^ 32 → r.faulted < 2 ^ 32 →
            rdLe (t.core n).lm r.cword 8 = r.moved + 2 ^ 32 * r.faulted ∧ (t.core n).lmFullAt r.cword = true)))

/-! ### Near-memory commands (09 R242 to R247) -/

/-- 09 R242 to R247: NMC waits for a place, traps NMC_RECORD for a record that breaks its checks or pages of several stacks, and
TAKE_TARGET for pages of another device; else its command is queued at the stack. A granule writes its sixteen elements and nothing
else, those of R244's formulas, each step exact and rounded once, a fill those of its constant, in its turn among the writes of its
die (07 R171); a held granule writes nothing and is counted. Completion writes the record, and its word full, once what its release
waits for is done (07 R177, R189); NFENCE waits for the core's commands. That a misaligned record raises NMC_RECORD is the model's
choice (notes/assumptions/57), and so is what it does with a record on a held page (notes/assumptions/59). -/
def Obligations.NearMemoryResults : Prop :=
  ∀ s : State,
    (∀ (h : Hdr) (gr : BitVec 6) (acq rel : Bool) (f : BitVec 5) (sc : Nat) (c : NmcCmd) (ps : List (Nat × TlbEntry)) (u w : State)
      (pg : TlbEntry) (k : Nat),
      let i : Instr := .nmc h gr acq rel f
      let n := s.cur.core
      let a := s.me.reg (.g gr.toNat) % 2 ^ 16
      let busy := 16 ≤ (s.nmcs.filter (fun d => d.core == n)).length ∨ s.me.lmBlocked a 64 false = true
      s.issues i → s.serves (needs [.g gr.toNat] []) → ((acq || rel) = true → s.scopeOf n f = some sc) →
      (busy → ∃ t, exec i s = .next t ∧ s.waited t ∧ s.onlyMe t) ∧
      (¬busy → a % 64 ≠ 0 ∨ readNmc (s.me.lmView false) a = none → exec i s = .next (s.trapOn n s.cur.x 0x18 0 0 a)) ∧
      (¬busy → a % 64 = 0 → readNmc (s.me.lmView false) a = some c → walkArrays (s.engineAsker n) c.ng c.arrays [] s = (.ok ps, u) →
        reachEngine (u.engineAsker u.cur.core) c.doneVa false true (u.translate (u.engineAsker u.cur.core) c.doneVa) = (.page pg, w) →
        (∀ p, (ps ++ [(c.doneVa, pg)]).find? (fun p => paPeer p.2.pbase != w.peerid) = some p →
          exec i s = .next (w.trapOn n s.cur.x 0x14 0 0 p.1)) ∧
        ((∀ p ∈ ps ++ [(c.doneVa, pg)], paPeer p.2.pbase = w.peerid) →
          (∃ p ∈ ps, ∃ q ∈ ps, homeOf (paLocal p.2.pbase) ≠ homeOf (paLocal q.2.pbase)) →
          exec i s = .next (w.trapOn n s.cur.x 0x18 0 0 a)) ∧
        ((∀ p ∈ ps ++ [(c.doneVa, pg)], paPeer p.2.pbase = w.peerid) → ps ≠ [] →
        (∀ p ∈ ps, homeOf (paLocal p.2.pbase) = k) → w.takeWait n true false = false → (acq = true → w.releases sc) →
        ∃ t q, exec i s = .next t ∧ s.wentOn t h ∧ t.nmcs = s.nmcs ++ [q] ∧ q.core = n ∧ q.stack = k ∧ q.opc = c.opc ∧
          q.ng = c.ng ∧ q.next = 0 ∧ q.donePa = paLocal (pg.addr c.doneVa) ∧ s.me.sameBut t.me [] ∧
          (acq = false → t.me.lm = s.me.lm)))) ∧
    (∀ (h : Hdr) (f : BitVec 5) (sc : Nat), s.issues (.nfence h f) → s.scopeOf s.cur.core f = some sc →
      (s.nmcs.any (fun c => c.core == s.cur.core) = true → ∃ t, exec (.nfence h f) s = .next t ∧ s.waited t ∧ s.onlyMe t) ∧
      (s.nmcs.any (fun c => c.core == s.cur.core) = false → s.releases sc →
        ∃ t, exec (.nfence h f) s = .next t ∧ s.wentOn t h ∧ s.me.sameBut t.me [] ∧ t.mem = s.mem)) ∧
    (∀ (id : Nat) (c : NmcCmd), s.nmcs.find? (fun d => d.id == id) = some c → s.nmcFirst c = true →
      let vp := c.addrP + 64 * c.next
      let vg := c.addrG + 64 * c.next
      let vm := c.addrM + 64 * c.next
      let pp := c.paOf vp
      let pm := c.paOf vm
      let rs := granuleOf c (s.memRd pp 64) (if 2 ≤ c.opc then s.memRd (c.paOf vg) 64 else 0)
        (if c.opc = 4 then s.memRd pm 64 else 0)
      let ex (v : Nat) : Ex := decodeF 0 v
      let one : Ex := .fin false 1 0
      let products (a b d e : Ex) : Nat := (toF 0 false .rne ((a.mul b).1.add (d.mul e).1).1).1
      let a := ex c.a.toNat
      let b := ex c.b.toNat
      let old (x j : Nat) : Ex := ex (s.memRd (x + 4 * j) 4)
      (c.next < c.ng → s.reqs.any (fun r => c.after.contains r.id) = false → s.covers c.stack c.vec = true → s.nmcFree c = true →
        (c.heldAt vp = (false, false) → (c.opc = 4 → c.heldAt vm = (false, false) ∧ (pp + 64 ≤ pm ∨ pm + 64 ≤ pp)) →
          (∀ a ∈ [pp, c.paOf vg, pm], s.badIn a 64 = false) →
          ∃ t d, exec (.nmcGranule id) s = .next t ∧ t.nmcs.find? (fun e => e.id == id) = some d ∧ d.next = c.next + 1 ∧
            d.ndone = c.ndone + 1 ∧
            (∀ j, j < 16 → t.memRd (pp + 4 * j) 4 = (rs.getD j (0, 0, [])).1 % 2 ^ 32 ∧
              (c.opc = 0 → t.memRd (pp + 4 * j) 4 = c.a.toNat) ∧
              (c.opc = 1 → t.memRd (pp + 4 * j) 4 = (toF 0 false .rne (a.mul (old pp j)).1).1) ∧
              (c.opc = 2 → t.memRd (pp + 4 * j) 4 = products a (old (c.paOf vg) j) b (old pp j)) ∧
              (c.opc = 3 → t.memRd (pp + 4 * j) 4 =
                products one (old pp j) a.neg (ex (products b (old pp j) one (old (c.paOf vg) j)))) ∧
              (c.opc = 4 → t.memRd (pm + 4 * j) 4 = products b (old pm j) one (old (c.paOf vg) j) ∧
                t.memRd (pp + 4 * j) 4 = products one (old pp j) a.neg (ex (t.memRd (pm + 4 * j) 4))) ∧
              (c.opc = 4 → t.memRd (pm + 4 * j) 4 = (rs.getD j (0, 0, [])).2.1 % 2 ^ 32)) ∧
            (∀ b, b < pp ∨ pp + 64 ≤ b → (c.opc = 4 → b < pm ∨ pm + 64 ≤ b) → tget 0 b t.mem = tget 0 b s.mem)) ∧
        (c.heldAt vp ≠ (false, false) → ∃ t d, exec (.nmcGranule id) s = .next t ∧ t.mem = s.mem ∧
          t.nmcs.find? (fun e => e.id == id) = some d ∧ d.next = c.next + 1 ∧ d.nheld = c.nheld + 1 ∧ d.ndone = c.ndone)) ∧
      (c.ng ≤ c.next → s.engineFree c.stack c.donePa = true → (c.rel = true → s.nmcHeld c = false) → c.doneRop = false →
        c.donePub = false → c.rop1 = none → c.pub1 = none → c.donePa % 8 = 0 →
        (∀ q ∈ s.reqs, q.st ≠ .listed) →
        ∃ t, exec (.nmcComplete id) s = .next t ∧ (∀ d ∈ t.nmcs, d.id ≠ id) ∧
          t.memRd c.donePa 8 = (if c.nskip = 0 then 1 else 2) ∧ t.memRd (c.donePa + 8) 4 = c.ndone % 2 ^ 32 ∧
          t.memRd (c.donePa + 12) 4 = c.nskip % 2 ^ 32 ∧ t.memRd (c.donePa + 16) 8 = c.fskip % 2 ^ 64 ∧
          t.memRd (c.donePa + 24) 8 = c.ctr.toNat ∧ t.memRd (c.donePa + 32) 4 = c.nheld % 2 ^ 32 ∧
          (c.doneFe = true → tget false (c.donePa / 8) t.full = true) ∧
          (∀ b, b < c.donePa / 8 * 8 ∨ c.donePa + 64 ≤ b → tget 0 b t.mem = tget 0 b s.mem)))

/-! ### Exchange sends and barriers (13 R322 to R337) -/

/-- 13 R327 to R331: an exchange send that its call sheet does not grant traps SLOT_NOT_GRANTED, one whose slot is past traps
SLOT_MISSED, one that is early waits with the target and the values read at issue, and in its slot it leaves, to land hops + 1
cycles later in its register or its eight words of LM; a late one is dropped with a SEND_LATE record (16 R428). XBAR arrives once,
and ends after the release that every task of the group has arrived at, which gives each what the releases of the arrivals ordered.
The wait goes by the router clock, the model's choice (notes/assumptions/61), as is the barrier's scope where a group spans several
clusters (notes/assumptions/76). -/
def Obligations.ExchangeResults : Prop :=
  ∀ s : State,
    (∀ (h : Hdr) (tr src : BitVec 6) (f : BitVec 2) (ix : BitVec 5) (d : Desc) (slot : BitVec 10) (off : BitVec 16),
      let n := s.cur.core
      let srcs := (List.range 8).map (fun j => Reg.g (src.toNat + j))
      let word (q : Reg) : Word := BitVec.ofNat 64 (s.me.reg q)
      ∀ e ∈ ([(.xsend h (.remote tr f ix) src slot, needs [.g tr.toNat, .g src.toNat] [], s.me.reg (.g tr.toNat) % 2 ^ 15, none,
            ix, [word (.g src.toNat)]),
          (.xsendLm h d src slot off, (srcNeeds false d).and (needs srcs []), (s.take d).1.toNat % 2 ^ 15, some off.toNat, 0,
            srcs.map word)] : List (Instr × Needs × Nat × Option Nat × BitVec 5 × List Word)),
        s.issues e.1 →
        let k := slot.toNat
        let early (dst : Nat) (data : List Word) : Prop :=
          ∃ t, exec e.1 s = .next t ∧ s.waited t ∧ s.onlyMe t ∧ t.st.stage = .slotWait dst data
        let leaves (dst : Nat) (data : List Word) : Prop :=
          ∃ t m, exec e.1 s = .next t ∧ s.wentOn t h ∧ t.agenda = s.agenda ++ [.xsendLanding m] ∧ m.dst = dst ∧
            m.lm = e.2.2.2.1 ∧ m.index = e.2.2.2.2.1 ∧ m.data = data ∧
            m.lands = (s.me.xbarAt).getD 0 + k + hops n dst + 1 ∧ s.me.sameBut t.me [] ∧ t.mem = s.mem
        let dst := e.2.2.1
        let data := e.2.2.2.2.2
        ((∀ u w, s.st.stage ≠ .slotWait u w) → s.serves e.2.1 →
          (s.granted n k dst = false → exec e.1 s = .next (s.trapOn n s.cur.x 0x1D 0 0 (k + 2 ^ 32 * dst))) ∧
          (s.granted n k dst = true → k < s.slotCount n →
            exec e.1 s = .next (s.trapOn n s.cur.x 0x1C 0 0 (k + 2 ^ 32 * dst))) ∧
          (s.granted n k dst = true → s.slotCount n < k → early dst data) ∧
          (s.granted n k dst = true → s.slotCount n = k → leaves dst data)) ∧
        (∀ u w, s.st.stage = .slotWait u w → (s.slotCount n < k → early u w) ∧ (k ≤ s.slotCount n → leaves u w))) ∧
    (∀ m : XMsg,
      (s.dcyc < m.lands → exec (.xsendLanding m) s = .next s) ∧
      (m.lands ≤ s.dcyc → s.awaits m.dst m.run m.wid = false → ∃ t, exec (.xsendLanding m) s = .next t ∧ t.cores = s.cores ∧
        s.logs t 0x08 false 1 m.ctx 0 (m.dst + (m.lm.elim (2 ^ 18 * m.index.toNat) (2 ^ 32 * ·))) 0) ∧
      (m.lands ≤ s.dcyc → s.awaits m.dst m.run m.wid = true → ∃ t, exec (.xsendLanding m) s = .next t ∧ t.mem = s.mem ∧
        (∀ k, k ≠ m.dst → t.core k = s.core k) ∧
        (m.lm = none → (t.core m.dst).reg (.g (32 + m.index.toNat)) = (m.data.headD 0).toNat ∧
          (t.core m.dst).absent (.g (32 + m.index.toNat)) = false) ∧
        (∀ off j, m.lm = some off → off % 8 = 0 → m.data.length = 8 → j < 8 → inIdent (off + 8 * j) = false →
          rdLe (t.core m.dst).lm (off + 8 * j) 8 = (m.data.getD j 0).toNat ∧ (t.core m.dst).lmFullAt (off + 8 * j) = true))) ∧
    (∀ (h : Hdr) (r : Run) (k : Task), s.issues (.xbar h) → s.runOf s.cur.core = some r → s.me.task = some k →
      let n := s.cur.core
      (r.sheet = none → exec (.xbar h) s = .next (s.trapOn n s.cur.x 0x1D 0 0 0)) ∧
      (r.sheet ≠ none → s.st.stage ≠ .xbarArrived → s.releases (r.xbarScope k.group) → ∃ t, exec (.xbar h) s = .next t ∧ s.waited t ∧
        t.st.stage = .xbarArrived ∧ n ∈ (t.xgroup r.id k.group).arrived ∧ t.mem = s.mem) ∧
      (r.sheet ≠ none → s.st.stage = .xbarArrived → n ∈ (s.xgroup r.id k.group).arrived →
        ∃ t, exec (.xbar h) s = .next t ∧ s.waited t ∧ s.onlyMe t) ∧
      (r.sheet ≠ none → s.st.stage = .xbarArrived → n ∉ (s.xgroup r.id k.group).arrived → s.acqBusy = false →
        ∃ t, exec (.xbar h) s = .next t ∧ s.wentOn t h ∧ s.me.sameBut t.me [] ∧ t.mem = s.mem)) ∧
    (∀ (r : Run) (c : Sheet) (group : Nat), s.run? r.id = some r → r.sheet = some c → (s.xgroup r.id group).arrived ≠ [] →
      let live := (s.tasksOf r).filter (fun e => e.2.group == group)
      ((∃ e ∈ live, e.1 ∉ (s.xgroup r.id group).arrived) → exec (.xbarRelease r.id group) s = .next s) ∧
      ((∀ e ∈ live, e.1 ∈ (s.xgroup r.id group).arrived) → s.landingDue r.id = false →
        (∀ at0, (s.xgroup r.id group).released = some at0 → at0 + c.phaseEnd ≤ s.dcyc) →
        ∃ t, exec (.xbarRelease r.id group) s = .next t ∧ (t.xgroup r.id group).arrived = [] ∧
          (t.xgroup r.id group).released = some s.dcyc ∧ (∀ e ∈ live, (t.core e.1).xbarAt = some s.dcyc ∧
            ∀ v ∈ (s.xgroup r.id group).vec, v.2 ≤ tget 0 v.1 (t.core e.1).a.seen) ∧ t.mem = s.mem))

/-- 13 R332 to R337: BARINIT binds an identifier and BARARR arrives at it once, each trapping BARRIER_STATE on an identifier that is
not free for it; the phase completes at its members when the last one has arrived, with the operation of their values; BARWAIT waits
for it, takes its value and frees the identifier, and traps on a mismatch or after 2^24 cycles. A completed phase gives each member on
the device what the releases of the arrivals ordered. That a mismatch leaves the identifier arrived, and the kinds that name the
messages between devices, are the model's choices (notes/assumptions/60), as is the scope where the members span several clusters
(notes/assumptions/76). -/
def Obligations.BarrierResults : Prop :=
  ∀ s : State,
    let n := s.cur.core
    (∀ (h : Hdr) (bid : BitVec 11) (f : BitVec 5) (r : Run) (k : Task), s.issues (.barinit h bid f) → s.runOf n = some r →
      s.me.task = some k →
      let l := f.toNat % 16
      let ok := f.toNat < 16 ∧ ∃ e, r.levels[l]? = some e ∧ e.bar = true ∧ e.bind ≠ 0
      (¬ok → exec (.barinit h bid f) s = .next (s.trapOn n s.cur.x 0x05 0 0 f.toNat)) ∧
      (ok → (s.me.bar bid.toNat).arrived = true → exec (.barinit h bid f) s = .next (s.trapOn n s.cur.x 0x1E 0 0 bid.toNat)) ∧
      (ok → (s.me.bar bid.toNat).arrived = false → ∃ t, exec (.barinit h bid f) s = .next t ∧ s.wentOn t h ∧ s.onlyMe t ∧
        t.me.bar bid.toNat = { BarEntry.unbound with bound := true, level := l, key := k.wid.toNat / 2 ^ loOf r.levels (l + 1) } ∧
        (∀ b, b ≠ bid.toNat → t.me.bar b = s.me.bar b) ∧ s.me.sameBut t.me [])) ∧
    (∀ (h : Hdr) (bid : BitVec 11) (gm : BitVec 6) (anc : BitVec 3), s.issues (.barinitDom h bid gm anc) →
      s.serves (needs [.g gm.toNat] []) →
      let off := s.me.reg (.g gm.toNat) % 2 ^ 16
      let size := ancSize anc.toNat
      let first := n / size * size
      let mask := s.me.lmRd false off 128
      (off % 8 ≠ 0 → exec (.barinitDom h bid gm anc) s = .next (s.trapOn n s.cur.x 0x0E 0 0 off)) ∧
      (off % 8 = 0 → off + 128 ≤ 65536 → s.me.lmBlocked off 128 false = false →
        ((s.me.bar bid.toNat).arrived = true ∨ bitAt mask (n - first) = false ∨ 2 ^ size ≤ mask →
          exec (.barinitDom h bid gm anc) s = .next (s.trapOn n s.cur.x 0x1E 0 0 bid.toNat)) ∧
        ((s.me.bar bid.toNat).arrived = false → bitAt mask (n - first) = true → mask < 2 ^ size →
          (∀ j, j < size → bitAt mask j = true → (s.fellow n (first + j)).isSome = true) →
          ∃ t, exec (.barinitDom h bid gm anc) s = .next t ∧ s.wentOn t h ∧ s.onlyMe t ∧ s.me.sameBut t.me [] ∧
            t.me.bar bid.toNat = { BarEntry.unbound with
              bound := true, dom := true, level := anc.toNat, key := first, mask := BitVec.ofNat 1024 mask,
              asLevel := (s.runOf n).bind (fun r => s.asLevel r ((s.me.task.map Task.wid).getD 0) anc.toNat first mask) }))) ∧
    (∀ (h : Hdr) (bid : BitVec 11) (opc : BitVec 3) (v : BitVec 6) (r : Run), s.issues (.bararr h bid opc v) →
      s.serves (needs (if opc = 0 then [] else [.g v.toNat]) []) → s.runOf n = some r →
      let e := s.me.bar bid.toNat
      let x : Word := if opc = 0 then 0 else BitVec.ofNat 64 (s.me.reg (.g v.toNat))
      let ec := e.canon r.levels ((s.me.task.map Task.wid).getD 0)
      let i0 := (s.barInsts.find? (fun b => b.is r.id bid.toNat ec)).getD (newInst r.id bid.toNat ec)
      let b := { i0 with cores := i0.cores ++ [(n, opc.toNat, x)],
                         vec := vmax i0.vec ((s.afterRelease (s.barScope n e)).vecOf (dieOf n)) }
      let m := barMerge (b.cores.map (fun a => (a.2.1, false, a.2.2)))
      (e.bound = false ∨ e.arrived = true → exec (.bararr h bid opc v) s = .next (s.trapOn n s.cur.x 0x1E 0 0 bid.toNat)) ∧
      (e.bound = true → e.arrived = false → s.releases (s.barScope n e) →
        ∃ t, exec (.bararr h bid opc v) s = .next t ∧ s.wentOn t h ∧ s.me.sameBut t.me [] ∧ (t.me.bar bid.toNat).arrived = true ∧
          (b.sentUp = true ∨ s.missing r b = true ∨ s.begun r b = false → b ∈ t.barInsts ∧ (t.me.bar bid.toNat).done = false) ∧
          (b.sentUp = false → s.missing r b = false → s.begun r b = true → (r.barDevices b).length ≤ 1 →
            (t.me.bar bid.toNat).done = true ∧ (t.me.bar bid.toNat).mismatch = m.2.1 ∧ (t.me.bar bid.toNat).value = m.2.2 ∧
            ∀ v ∈ b.vec, v.2 ≤ tget 0 v.1 t.me.a.seen))) ∧
    (∀ (h : Hdr) (bid : BitVec 11) (d : BitVec 6) (res : Bool), s.issues (.barwait h bid d res) →
      s.serves (needs [] (if res then [.g d.toNat] else [])) →
      let e := s.me.bar bid.toNat
      (e.arrived = false → exec (.barwait h bid d res) s = .next (s.trapOn n s.cur.x 0x1E 0 0 bid.toNat)) ∧
      (e.arrived = true → e.done = false →
        (s.feExpired = false → ∃ t, exec (.barwait h bid d res) s = .next t ∧ s.waited t ∧ s.onlyMe t ∧
          t.st.stage = .barWait bid.toNat) ∧
        (s.feExpired = true → exec (.barwait h bid d res) s = .next (s.trapOn n s.cur.x 0x1F 0 0 bid.toNat))) ∧
      (e.arrived = true → e.done = true → e.mismatch = true →
        exec (.barwait h bid d res) s = .next (s.trapOn n s.cur.x 0x20 0 0 bid.toNat)) ∧
      (e.arrived = true → e.done = true → e.mismatch = false → s.acqBusy = false →
        ∃ t, exec (.barwait h bid d res) s = .next t ∧ s.wentOn t h ∧ t.mem = s.mem ∧
          t.me.bar bid.toNat = { e with arrived := false, done := false, opc := 0, value := 0 } ∧
          s.me.sameBut t.me (if res then [.g d.toNat] else []) ∧ (res = true → t.gets (.g d.toNat) e.value.toNat))) ∧
    (∀ core b : Nat, (s.core core).a.stage = .barWait b →
      let t := { s with cur := { core := core, x := false } }
      t.feExpired = true → (s.core core).runnable false = true → ((s.core core).bar b).done = false →
      exec (.barStall core) s = .next (t.trapOn core false 0x1F 0 0 b)) ∧
    (∀ (m : BarMsg) (r : Run), s.runOfMsg m.sb m.nth m.idx = some r →
      let e : BarEntry := { BarEntry.unbound with level := m.level, key := m.parent }
      let b := (s.barInsts.find? (fun b => b.is r.id m.bid e)).getD (newInst r.id m.bid e)
      let b' := { b with remote := b.remote.filter (fun x => x.1 != m.dev) ++ [(m.dev, m.opc, m.mismatch, m.value)] }
      let all := (r.barDevices b').all (fun i => b'.remote.any (fun x => x.1 == i))
      ∃ t, exec (.barrierArrivalMessage m) s = .next t ∧
        (m.kind = 0 → all = false → b' ∈ t.barInsts) ∧
        (m.kind = 0 → all = true → ∀ p ∈ s.barPeers r b', ∃ q, q.kind = 1 ∧ q.bid = m.bid ∧
          q.value = (barMerge (b'.remote.map Prod.snd)).2.2 ∧ q.mismatch = (barMerge (b'.remote.map Prod.snd)).2.1 ∧
          t.sentTo p (.barrierArrivalMessage q)) ∧
        (m.kind = 1 → ∀ a ∈ b.cores, (s.core a.1).task.any (fun k => k.run == r.id) = true →
          ((t.core a.1).bar m.bid).done = true ∧ ((t.core a.1).bar m.bid).value = m.value ∧
          ((t.core a.1).bar m.bid).mismatch = m.mismatch)) ∧
    (∀ vs : List Word, vs ≠ [] →
      (barMerge (vs.map (fun v => (1, false, v)))).2.2 = vs.foldl (· ||| ·) 0 ∧
      (barMerge (vs.map (fun v => (2, false, v)))).2.2 = vs.foldl (· + ·) 0 ∧
      (let m := (barMerge (vs.map (fun v => (3, false, v)))).2.2
       m ∈ vs ∧ ∀ v ∈ vs, v.toInt ≤ m.toInt) ∧
      (let m := (barMerge (vs.map (fun v => (4, false, v)))).2.2
       m ∈ vs ∧ ∀ v ∈ vs, m.toInt ≤ v.toInt))

/-! ### Queue pairs (13 R340 to R349) -/

/-- 13 R340 to R349, 08 R194, R199, R210, R214: QTRIG adds to a trigger counter after its release, QWAIT waits until one has reached a
value; QPOST traps for a queue pair without a valid context of the task's space, for a bad entry and for a source on another device
that the task may not read, waits while the ring is full or the cut before its take is open, and else appends the entry. An entry
starts when its counter has reached its threshold, reads its source word by word, and its events raise their counters in ring order;
a write to a peer that cannot be reached is lost with one record. A word that arrives is stored or added, and a pull read answers
the line of a published page. What the device keeps in a context, the trap for a context it cannot keep them in, and a lost write's
counters are the model's choices (notes/assumptions/62), as are a source that no longer translates (notes/assumptions/63) and the
ring order of events of different entries (notes/assumptions/93). -/
def Obligations.QueuePairResults : Prop :=
  ∀ s : State,
    let n := s.cur.core
    (∀ (h : Hdr) (cnt : BitVec 10) (g : BitVec 6) (f : BitVec 5), s.serves (needs [.g g.toNat] []) →
      (s.scopeOf n f = none → ∀ i ∈ [.qtrig h cnt g f, .qwait h cnt g f], s.issues i →
        exec i s = .next (s.trapOn n s.cur.x 0x05 0 0 f.toNat)) ∧
      (∀ sc, s.scopeOf n f = some sc →
        (s.issues (.qtrig h cnt g f) → s.releases sc → ∃ t, exec (.qtrig h cnt g f) s = .next t ∧ s.wentOn t h ∧
          tget 0 cnt.toNat t.trig = tget 0 cnt.toNat s.trig + BitVec.ofNat 64 (s.me.reg (.g g.toNat)) ∧
          (∀ k, k ≠ cnt.toNat → tget 0 k t.trig = tget 0 k s.trig) ∧ s.me.sameBut t.me [] ∧ t.mem = s.mem) ∧
        (s.issues (.qwait h cnt g f) → (tget 0 cnt.toNat s.trig).toNat < s.me.reg (.g g.toNat) →
          ∃ t, exec (.qwait h cnt g f) s = .next t ∧ s.waited t ∧ s.onlyMe t) ∧
        (s.issues (.qwait h cnt g f) → s.me.reg (.g g.toNat) ≤ (tget 0 cnt.toNat s.trig).toNat → s.acqBusy = false →
          ∃ t, exec (.qwait h cnt g f) s = .next t ∧ s.wentOn t h ∧ t.trig = s.trig ∧ s.me.sameBut t.me [] ∧ t.mem = s.mem))) ∧
    (∀ (h : Hdr) (qpn : BitVec 8) (ge : BitVec 6) (acq rel : Bool) (f : BitVec 5) (sc : Nat) (u v w : State) (c : QpContext)
      (e : QpEntry) (ps : List (Nat × TlbEntry)) (va : Nat) (page : Option TlbEntry),
      let i : Instr := .qpost h qpn ge acq rel f
      let q := qpn.toNat
      let a := s.me.reg (.g ge.toNat) % 2 ^ 16
      s.issues i → s.serves (needs [.g ge.toNat] []) → ((acq || rel) = true → s.scopeOf n f = some sc) →
      s.me.lmBlocked a 64 false = false →
      (s.qpContext n q = (.bad, u) → exec i s = .next (u.trapOn u.cur.core u.cur.x 0x1A 0 0 q)) ∧
      (s.qpContext n q = (.wait, u) → ∃ t, exec i s = .next t ∧ s.waited t ∧ t.qps = s.qps) ∧
      (s.qpContext n q = (.ok c, u) →
        (c.space ≠ (u.asker n).space → exec i s = .next (u.trapOn u.cur.core u.cur.x 0x1A 0 0 q)) ∧
        (c.space = (u.asker n).space →
          (a % 64 ≠ 0 ∨ readQpEntry (u.me.lmView false) a = none → exec i s = .next (u.trapOn u.cur.core u.cur.x 0x1B 0 0 a)) ∧
          (a % 64 = 0 → readQpEntry (u.me.lmView false) a = some e →
            walkPages (u.engineAsker n) true false (e.laddr + e.len) e.laddr [] (e.len / 4096 + 2) u = (.ok ps, v) →
            (∀ p ∈ ps.find? (fun p => paPeer p.2.pbase != v.peerid && (v.takeRun n == none || !leafPub p.2.leaf)),
              exec i s = .next (v.trapOn v.cur.core v.cur.x (if v.takeRun n = none then 0x14 else 0x13) 0 0 p.1)) ∧
            ((∀ p ∈ ps, paPeer p.2.pbase ≠ v.peerid → v.takeRun n ≠ none ∧ leafPub p.2.leaf = true) →
              v.ringPage n q c = (.page va page, w) →
              (c.size ≤ (tget [] q s.qps).length ∨ (∃ x ∈ c.writes va page [] [], w.engineFree Config.hubDie x.2.1 = false) →
                ∃ t, exec i s = .next t ∧ s.waited t ∧ t.qps = s.qps) ∧
              ((tget [] q s.qps).length < c.size → (∀ x ∈ c.writes va page [] [], w.engineFree Config.hubDie x.2.1 = true) →
                (acq = true → w.releases sc) →
                ∃ t p, exec i s = .next t ∧ s.wentOn t h ∧ tget [] q t.qps = tget [] q s.qps ++ [p] ∧ p.phase = 0 ∧ p.pos = 0 ∧
                  p.opc = e.opc ∧ p.red = e.red ∧ p.trig = e.trig ∧ p.thresh = e.thresh ∧ p.laddr = e.laddr ∧ p.raddr = e.raddr ∧
                  p.len = e.len ∧ p.remote = c.remote ∧ tget 0 q t.qpTail = tget 0 q s.qpTail + 1 ∧ s.me.sameBut t.me [])))))) ∧
    (∀ (qp : Nat) (pre rest : List QpEntry) (e : QpEntry), tget [] qp s.qps = pre ++ e :: rest → (∀ p ∈ pre, e.phase < p.phase) →
      let put (t : State) (q : QpEntry) : Prop := tget [] qp t.qps = pre ++ q :: rest
      let up (t : State) (k : Nat) : Prop := ∀ j, tget 0 j t.trig =
        if j = k ∧ k < 1024 then tget 0 j s.trig + 1 else tget 0 j s.trig
      (e.phase = 0 → (tget 0 e.trig s.trig).toNat < e.thresh → exec (.qpEntryStart qp) s = .next s) ∧
      (e.phase = 0 → e.thresh ≤ (tget 0 e.trig s.trig).toNat → ∃ t, exec (.qpEntryStart qp) s = .next t ∧ put t { e with phase := 1 } ∧
        t.trig = s.trig ∧ t.mem = s.mem) ∧
      (e.phase = 1 → s.sourceWord e (e.laddr + e.pos) = none → exec (.srcReuse qp) s = .next s) ∧
      (∀ bs u, e.phase = 1 → s.sourceWord e (e.laddr + e.pos) = some (bs, u) →
        let d := { e with pos := e.pos + 8, data := e.data ++ bs }
        ∃ t, exec (.srcReuse qp) s = .next t ∧
        (d.pos < e.len → put t d ∧ t.trig = s.trig ∧ t.hostOut = u.hostOut ∧ t.mem = u.mem) ∧
        (e.len ≤ d.pos → put t { d with phase := 2, lost := u.qpLost d } ∧ up t e.evReuse ∧
          (u.qpLost d = false →
            t.hostOut = u.hostOut ++ [.qpWrite e.remote e.port (if e.port then u.wayTo e.core e.peer else none) e.raddr e.opc e.red e.evRemote e.rel d.data]) ∧
          (u.qpLost d = true → u.logs t 0x05 true 0 e.ctx e.raddr e.peer 0))) ∧
      (e.phase = 2 → ∃ t, exec (.localDone qp) s = .next t ∧ put t { e with phase := 3, data := [] } ∧ up t e.evLocal ∧ t.mem = s.mem) ∧
      (e.phase = 3 → pre = [] → ∃ t, exec (.allDone qp) s = .next t ∧ tget [] qp t.qps = rest ∧
        up t (if e.lost then 0xFFFF else e.evAll) ∧ t.mem = s.mem)) ∧
    (∀ (w : QpWrite) (x : Word) (pg : TlbEntry) (u : State) (add : Bool),
      let q : Asker := { die := Config.hubDie, cluster := none, space := w.space, user := false, core := w.ctx.core, eng := true,
                         ctx := w.ctx }
      let pa := paLocal (pg.addr w.addr)
      let v := u.markDirty pg
      w.data = [x] → reachEngine q w.addr add true (s.translate q w.addr) = (.page pg, u) → paPeer (pg.addr w.addr) = s.peerid →
      leafRop pg.leaf = false → leafPub pg.leaf = false → v.badIn pa 8 = false → u.engineFree Config.hubDie pa = true →
      ∃ t, exec (if add then .writeReduce w else .write w) s = .next t ∧
        t.memRd pa 8 = (if add then (v.memRd pa 8 + x.toNat) % 2 ^ 64 else x.toNat) ∧
        (∀ b, b < pa ∨ pa + 8 ≤ b → tget 0 b t.mem = tget 0 b v.mem) ∧
        (w.evRemote < 1024 → tget 0 w.evRemote t.trig = tget 0 w.evRemote s.trig + 1) ∧
        ∀ k, k ≠ w.evRemote → tget 0 k t.trig = tget 0 k s.trig) ∧
    (∀ lpa peer : Nat, (∀ c ∈ s.cuts, c.st ≠ .applying ∧ c.st ≠ .applied) → ∃ t, exec (.pullReadRequest lpa peer) s = .next t ∧
      (s.assigned lpa = true → s.published lpa = true → s.badIn (lpa / 64 * 64) 64 = false →
        t = { s with hostOut := s.hostOut ++ [.pullAnswer peer (tgets 0 (lpa / 64 * 64) 64 s.mem)] }) ∧
      (s.assigned lpa = false ∨ s.published lpa = false →
        t.hostOut.getLast? = some (.pullAnswer peer (List.replicate 64 0))))

/-! ### Vectors (10 R249 to R276) -/

/-- 10 R251 to R261, R268 to R273: floating, integer, logical and shift lanes, moves, permutes, broadcasts and the keyed generator
write the active lanes of vd and no other; compares and PRANGE write the bits of the active lanes of a predicate; VSEL and the
reductions write every lane, VREDMAX the largest active element, or the least value of its format where no lane is active. No other
register changes. Floating arithmetic and VREDSUM count each active element's events in VFLAGS, NaN only where no operand is one;
those without arithmetic events leave VFLAGS as it was. What rounding and the generator compute: 04 R86, the units of a grid to which
a value rounds in each mode; a finite value of a format is returned unchanged; 03 R79, what a value beyond the format, an infinity
and a NaN become, with their events; 04 R91, KM4 in words of 64 bits. -/
def Obligations.VectorLaneResults : Prop :=
  (∀ (m : Nat) (e q : Int) (draw : Nat),
    (q ≤ e → ∀ rm, roundUnits rm m e q = m * 2 ^ (e - q).toNat) ∧
    (e < q →
      let d := 2 ^ (q - e).toNat
      let z := roundUnits .rz m e q
      let u := roundUnits .rne m e q
      (z * d ≤ m ∧ m < (z + 1) * d) ∧ (2 * u * d ≤ 2 * m + d ∧ 2 * m ≤ 2 * u * d + d) ∧
      (2 * u * d = 2 * m + d ∨ 2 * m = 2 * u * d + d → u % 2 = 0) ∧
      roundUnits (.sr draw) m e q = m / d + if draw < m % d * 2 ^ 32 / d then 1 else 0)) ∧
  (∀ (f : Nat) (prop : Bool) (rm : Rm) (n : Bool) (m : Nat) (e : Int), f < 8 →
    let w := fmtWidth f
    let s := if n then 2 ^ (w - 1) else 0
    let top := [0x7F7FFFFF, 0x7F7F, 0x7BFF, 0x7B, 0x7E, 0x1F, 0x1F, 0x7].getD f 0
    let inf := [0x7F800000, 0x7F80, 0x7C00, 0x7C].getD f 0
    let ovf : Ev := { Ev.none with ovf := true, srs := (match rm with | .sr _ => true | _ => false) }
    (∀ c, c < 2 ^ w → (decodeF f c).isFin = true → toF f prop rm (decodeF f c) = (c, Ev.none)) ∧
    (m ≠ 0 → (decodeF f top).lt (.fin false (roundUnits rm m e (gridExp f m e)) (gridExp f m e)) = true →
      toF f prop rm (.fin n m e) =
        if f ≤ 2 ∧ rm ≠ .rz ∨ f = 3 ∧ prop = true then (s + inf, { ovf with inf := true })
        else if f = 4 ∧ prop = true then (0x7F, { ovf with nan := true })
        else (s + top, ovf)) ∧
    toF f prop rm (.inf n) =
      (if f ≤ 3 then (s + inf, Ev.none)
       else if f = 4 ∧ prop = true then (0x7F, { Ev.none with ovf := true, nan := true })
       else (s + top, { Ev.none with ovf := true })) ∧
    toF f prop rm .nan = ([0x7FC00000, 0x7FC0, 0x7E00, 0x7E, 0x7F].getD f 0, if f ≤ 4 then Ev.none else Ev.isNan)) ∧
  (∀ K c0 c1 : Word,
    let round (r : Nat) (p : Word × Word) : Word × Word :=
      let a := (p.1 ^^^ (K + BitVec.ofNat 64 r * 0x6A1D47C3B58E2F91)) * 0x8E3AF5D12B974C69
      let a := a ^^^ (a >>> 29)
      (p.2 ^^^ a, a)
    let p := round 3 (round 2 (round 1 (round 0 (c0, c1))))
    km4 K.toNat c0.toNat c1.toNat = (((p.1 ^^^ p.2) * 0xB4C71E935D2A60F7) >>> 32).toNat) ∧
  ∀ (s : State) (h : Hdr) (f : VForm) (k : BitVec 4),
    let w := fmtWidth f.fm
    let m := s.laneMask h
    let a (i : Nat) : Nat := elem (s.vecA f w) w i
    let b (i : Nat) : Nat := elem (s.vecB f w) w i
    let x (i : Nat) : Ex := decodeF f.fm (a i)
    let y (i : Nat) : Ex := decodeF f.fm (b i)
    let d (i : Nat) : Ex := decodeF f.fm (elem (s.me.reg f.vd) w i)
    let rnd (i : Nat) (v : Ex) : Nat × Ev := toF f.fm f.sp (s.laneRm f i) v
    let lo : Int := if isSignedFmt f.fm then -(2 ^ (w - 1) : Nat) else 0
    let hi : Int := if isSignedFmt f.fm then (2 ^ (w - 1) : Nat) - 1 else (2 ^ w : Nat) - 1
    let iv (v : Nat) : Int := intVal f.fm v
    let pick (j : Int) : Nat := if 0 ≤ j ∧ j < lanes w then a j.toNat else 0
    let key := s.me.keyCtx
    let draw (i j : Nat) : Nat := km4 key.1 (((s.scalarB f).toNat + i) % 2 ^ 64) (kmC1 key.2 2 j)
    (∀ e ∈ ([(.vadd h f, false, fun i => ((x i).add (y i)).1), (.vsub h f, false, fun i => ((x i).add (y i).neg).1),
        (.vmul h f, false, fun i => ((x i).mul (y i)).1), (.vfma h f, true, fun i => (((x i).mul (y i)).1.add (d i)).1),
        (.vfms h f, true, fun i => (((x i).mul (y i)).1.neg.add (d i)).1)] : List (Instr × Bool × (Nat → Ex))),
      let nans (i : Nat) : Bool := (x i).isNan || (y i).isNan || (e.2.1 && (d i).isNan)
      let ev (i : Nat) : Ev := if (e.2.2 i).isNan && !nans i then Ev.isNan else (rnd i (e.2.2 i)).2
      s.issues e.1 → s.serves (needsV h f true (if e.2.1 then [f.vd] else []) [f.vd]) → ∃ t, exec e.1 s = .next t ∧
        s.wentOn t h ∧ s.getsLanes t f.vd m w (fun i => (rnd i (e.2.2 i)).1) ∧ s.me.sameBut t.me [f.vd] ∧ s.onlyMe t ∧
        s.counts t (((List.range (lanes w)).filter (laneOn m w)).map ev)) ∧
    (∀ e ∈ ([(.vmin h f, fun i => if (x i).isNan || (y i).isNan then canonNan f.fm else if (y i).ltz (x i) then b i else a i),
        (.vmax h f, fun i => if (x i).isNan || (y i).isNan then canonNan f.fm else if (x i).ltz (y i) then b i else a i),
        (.vabs h f, fun i => a i % 2 ^ (w - 1)), (.vneg h f, fun i => a i + 2 ^ (w - 1)),
        (.viadd h f, fun i => a i + b i), (.visub h f, fun i => a i + 2 ^ w - b i), (.vimul h f, fun i => a i * b i),
        (.vimin h f, fun i => if iv (b i) < iv (a i) then b i else a i),
        (.vimax h f, fun i => if iv (a i) < iv (b i) then b i else a i),
        (.viabs h f, fun i => (iv (a i)).natAbs), (.vineg h f, fun i => 2 ^ w - a i),
        (.viadds h f, fun i => ofS (max lo (min hi (iv (a i) + iv (b i)))) w),
        (.visubs h f, fun i => ofS (max lo (min hi (iv (a i) - iv (b i)))) w),
        (.vand h f, fun i => a i &&& b i), (.vor h f, fun i => a i ||| b i), (.vxor h f, fun i => a i ^^^ b i),
        (.vandn h f, fun i => a i &&& (2 ^ w - 1 - b i)), (.vshl h f, fun i => a i * 2 ^ (b i % w)),
        (.vshr h f, fun i => a i / 2 ^ (b i % w)), (.vsar h f, fun i => ofS (toS (a i) w / 2 ^ (b i % w)) w),
        (.vbcast h f, fun _ => (s.scalarB f).toNat), (.vmov h f, fun i => a i), (.vlen h f, fun _ => 1024),
        (.vperm h f, fun i => pick (b i)), (.vbcastElement h f, fun _ => pick (s.scalarB f).toNat),
        (.vslide h f, fun i => pick (i + (s.scalarB f).toInt)),
        (.vrand h f, fun i => if w = 32 then draw i 0 else 2 ^ 32 * draw i 1 + draw i 0)] : List (Instr × (Nat → Nat))),
      s.issues e.1 → s.serves (needsV h f true [] [f.vd]) → ∃ t, exec e.1 s = .next t ∧ s.wentOn t h ∧
        s.getsLanes t f.vd m w e.2 ∧ s.me.sameBut t.me [f.vd] ∧ s.onlyMe t ∧ t.me.vflags = s.me.vflags) ∧
    (s.issues (.vmovPredicate h f) → s.serves (needsV h f true [] [f.vd]) → ∃ t, exec (.vmovPredicate h f) s = .next t ∧
      s.wentOn t h ∧ s.getsLanes t f.vd m 8 (fun i => if bitAt (s.vecA f 8) i then 1 else 0) ∧ s.me.sameBut t.me [f.vd] ∧
      s.onlyMe t ∧ t.me.vflags = s.me.vflags) ∧
    (let ws := fmtWidth f.sm
     let a (i : Nat) : Nat := elem (s.vecA f ws) ws i
     let b (i : Nat) : Nat := elem (s.vecB f ws) ws i
     ∀ e ∈ ([(.vcmpeq h f, fun i => eqV f.sm (a i) (b i)), (.vcmpne h f, fun i => !eqV f.sm (a i) (b i)),
        (.vcmplt h f, fun i => ltV f.sm (a i) (b i)), (.vcmple h f, fun i => ltV f.sm (a i) (b i) || eqV f.sm (a i) (b i)),
        (.vcmpun h f, fun i => (decodeF f.sm (a i)).isNan || (decodeF f.sm (b i)).isNan)] : List (Instr × (Nat → Bool))),
      s.issues e.1 → s.serves (needsV h f true [] [f.pd]) → ∃ t, exec e.1 s = .next t ∧ s.wentOn t h ∧
        (f.didx ≠ 0 → s.getsBits t f.pd m ws e.2) ∧ s.me.sameBut t.me [f.pd] ∧ s.onlyMe t ∧ t.me.vflags = s.me.vflags) ∧
    (f.sb = some (.s k) → s.issues (.prange h f) → s.serves (needsV h f true [.s (k.toNat + 1)] [f.pd]) →
      ∃ t, exec (.prange h f) s = .next t ∧ s.wentOn t h ∧ (f.didx ≠ 0 → s.getsBits t f.pd m w (fun j =>
        decide ((j : Int) < toS (s.me.reg (.s (k.toNat + 1))) 64 - toS (s.me.reg (.s k.toNat)) 64))) ∧
        s.me.sameBut t.me [f.pd] ∧ s.onlyMe t ∧ t.me.vflags = s.me.vflags) ∧
    (s.issues (.vsel h f) → s.serves (needsV h f false [] [f.vd]) → ∃ t, exec (.vsel h f) s = .next t ∧ s.wentOn t h ∧
      s.getsLanes t f.vd allOnes w (fun i => if laneOn m w i then a i else b i) ∧ s.me.sameBut t.me [f.vd] ∧ s.onlyMe t ∧
      t.me.vflags = s.me.vflags) ∧
    (let on := (List.range (lanes w)).filter (laneOn m w)
     s.issues (.vredmax h f) → s.serves (needsV h f false [] [f.vd]) → ∃ t r, exec (.vredmax h f) s = .next t ∧ s.wentOn t h ∧
      s.getsLanes t f.vd allOnes w (fun _ => r) ∧ s.me.sameBut t.me [f.vd] ∧ s.onlyMe t ∧ t.me.vflags = s.me.vflags ∧
      (isIntFmt f.fm = true → on ≠ [] → (∃ i ∈ on, r = a i) ∧ ∀ i ∈ on, iv (a i) ≤ iv r) ∧
      (isIntFmt f.fm = true → on = [] → iv r = lo) ∧
      (isIntFmt f.fm = false → (∃ i ∈ on, (x i).isNan = true) → r = canonNan f.fm) ∧
      (f.fm < 3 → (∀ i ∈ on, (x i).isNan = false) → on ≠ [] →
        (∃ i ∈ on, r = a i) ∧ ∀ i ∈ on, (decodeF f.fm r).ltz (x i) = false) ∧
      (f.fm < 3 → on = [] → r = [0xFF800000, 0xFF80, 0xFC00].getD f.fm 0)) ∧
    (let on := (List.range (lanes 32)).filter (laneOn m 32)
     let terms := on.map (fun i => Term.of (decodeF 0 (elem (s.vecA f 32) 32 i)))
     let sum := windowSum f.fm f.sp (s.laneRm f 0) terms
     s.issues (.vredsum h f) → s.serves (needsV h f false [] [f.vd]) → ∃ t, exec (.vredsum h f) s = .next t ∧ s.wentOn t h ∧
      s.getsLanes t f.vd allOnes w (fun _ => if on = [] then 0 else sum.1) ∧ s.me.sameBut t.me [f.vd] ∧ s.onlyMe t ∧
      s.counts t (if on = [] then [] else [sum.2]))

/-- 04 R92, R97, R100 to R102, 10 R262 to R267, R272, R274 to R276: VCVT converts the active elements, by blocks with their scales for
an MX format, and with error feedback leaves the error in vb; VMXDOT gives the rounded sum of its blocks to every lane; the special
functions write their active lanes and no other; VSTAT reads VFLAGS into the active elements, or sets the active bits of a predicate,
and VCLRF clears the counters of its mask; KSET writes the key context. Conversions, dot products and special functions count their
events in VFLAGS. The special cases of R97 are as its table has them. -/
def Obligations.VectorConversionResults : Prop :=
  (∀ e ∈ ([(0, 0x7F800000, 0x7F800000, Ev.none), (0, 0xFF800000, 0, Ev.none), (0, 0, 0x3F800000, Ev.none),
      (0, 0x80000000, 0x3F800000, Ev.none), (0, 0x43000000, 0x7F800000, { Ev.none with ovf := true, inf := true }),
      (1, 0x7F800000, 0x7F800000, Ev.none), (1, 0xFF800000, 0x7FC00000, Ev.isNan),
      (1, 0, 0xFF800000, { Ev.none with inf := true }), (1, 0x80000000, 0xFF800000, { Ev.none with inf := true }),
      (1, 0x3F800000, 0, Ev.none), (2, 0x7F800000, 0, Ev.none), (2, 0xFF800000, 0x80000000, Ev.none),
      (2, 0, 0x7F800000, { Ev.none with inf := true }), (2, 0x80000000, 0xFF800000, { Ev.none with inf := true }),
      (2, 1, 0x7F800000, { Ev.none with ovf := true, inf := true }), (3, 0x7F800000, 0, Ev.none),
      (3, 0xFF800000, 0x7FC00000, Ev.isNan), (3, 0, 0x7F800000, { Ev.none with inf := true }),
      (3, 0x80000000, 0xFF800000, { Ev.none with inf := true }), (4, 0x7F800000, 0x7F800000, Ev.none),
      (4, 0xFF800000, 0x7FC00000, Ev.isNan), (4, 0, 0, Ev.none), (4, 0x80000000, 0x80000000, Ev.none)] :
      List (Nat × Nat × Nat × Ev)), special e.1 (decodeF 0 e.2.1) = e.2.2) ∧
  (∀ fn, fn < 5 → special fn .nan = (0x7FC00000, Ev.none)) ∧
  (∀ fn m e, fn = 1 ∨ fn = 3 ∨ fn = 4 → m ≠ 0 → special fn (.fin true m e) = (0x7FC00000, Ev.isNan)) ∧
  ∀ (s : State) (h : Hdr) (f : VForm),
    let m := s.laneMask h
    let ws := fmtWidth f.sm
    let wd := fmtWidth f.fm
    let w := max ws wd
    let el (t : State) (r : Reg) (n i : Nat) : Nat := fld (t.me.comes s.cur.x r) (n * i) n
    (let kc := toS (s.scalarB f).toNat 16
     s.issues (.vcvt h f) → s.serves (needsV h f true (if isMxFmt f.sm then [nextV f.va] else [])
        (f.vd :: if isMxFmt f.fm then [nextV f.vd] else [])) → ∃ t, exec (.vcvt h f) s = .next t ∧ s.wentOn t h ∧ s.onlyMe t ∧
      s.me.sameBut t.me (f.vd :: if isMxFmt f.fm then [nextV f.vd] else []) ∧
      (isMxFmt f.fm = false → s.counts t (((List.range (lanes w)).filter (laneOn m w)).map (fun i =>
        (cvtTo f.fm kc f.sp (s.laneRm f i) (s.cvtElem f kc i)).2))) ∧
      (isMxFmt f.fm = false → ∀ i, i < lanes w →
        (laneOn m w i = true → el t f.vd wd i = (cvtTo f.fm kc f.sp (s.laneRm f i) (s.cvtElem f kc i)).1 % 2 ^ wd) ∧
        (laneOn m w i = false → el t f.vd wd i = el s f.vd wd i)) ∧
      (isMxFmt f.fm = true →
        let bl (j : Nat) := mxBlock (elemFmt f.fm) f.sp (fun i => s.laneRm f (32 * j + i))
          ((upFrom (32 * j) 32).map (fun i => if laneOn m ws i then s.cvtElem f 0 i else Ex.zero))
        let on (j : Nat) : Bool := (List.range 32).any (fun i => laneOn m ws (32 * j + i))
        s.counts t (((List.range (lanes ws / 32)).filter on).flatMap (fun j => (bl j).2.map Prod.snd)) ∧
        ∀ j, j < lanes ws / 32 →
          (on j = true → el t (nextV f.vd) 8 j = (bl j).1 % 2 ^ 8 ∧
            ∀ i, i < 32 → el t f.vd wd (32 * j + i) = ((bl j).2.getD i (0, Ev.none)).1 % 2 ^ wd) ∧
          (on j = false → el t (nextV f.vd) 8 j = el s (nextV f.vd) 8 j ∧
            ∀ i, i < 32 → el t f.vd wd (32 * j + i) = el s f.vd wd (32 * j + i)))) ∧
    (∀ eb : BitVec 5, f.sb = some (.v eb) → s.issues (.vcvtEf h f) →
      s.serves (needsV h f true [.v eb.toNat] [f.vd, .v eb.toNat]) →
      let r (i : Nat) := efLane f.fm f.sp (decodeF 0 (elem (s.me.reg f.va) 32 i)) (decodeF 0 (elem (s.me.reg (.v eb.toNat)) 32 i))
      ∃ t, exec (.vcvtEf h f) s = .next t ∧ s.wentOn t h ∧ s.onlyMe t ∧ s.me.sameBut t.me [f.vd, .v eb.toNat] ∧
        (∀ i, i < 32 → el t f.vd wd i = if laneOn m 32 i = true then (r i).1.1 % 2 ^ wd else el s f.vd wd i) ∧
        s.getsLanes t (.v eb.toNat) m 32 (fun i => (r i).2.1) ∧
        s.counts t (((List.range 32).filter (laneOn m 32)).flatMap (fun i => [(r i).1.2, (r i).2.2]))) ∧
    (∀ vb : BitVec 5, f.sb = some (.v vb) → s.issues (.vmxdot h f) →
      s.serves (needsV h f true [nextV f.va, nextV (.v vb.toNat), f.vd] [f.vd]) →
      let pair (i : Nat) : Ex × Ex := (decodeF (elemFmt f.sm) (elem (s.me.reg f.va) ws i),
        decodeF (elemFmt f.sm) (elem (s.me.reg (.v vb.toNat)) ws i))
      let term (j : Nat) : Term := blockTerm (elem (s.me.reg (nextV f.va)) 8 j) (elem (s.me.reg (nextV (.v vb.toNat))) 8 j)
        ((upFrom (32 * j) 32).map pair)
      let on := (List.range (1024 / (32 * ws))).filter (laneOn m 32)
      let sum := windowSum 0 f.sp (s.laneRm f 0) (Term.of (decodeF 0 (elem (s.me.reg f.vd) 32 0)) :: on.map term)
      ∃ t, exec (.vmxdot h f) s = .next t ∧ s.wentOn t h ∧ s.onlyMe t ∧ s.me.sameBut t.me [f.vd] ∧
        (on = [] → s.me.sameBut t.me [] ∧ s.counts t []) ∧
        (on ≠ [] → s.getsLanes t f.vd allOnes 32 (fun _ => sum.1) ∧ s.counts t [sum.2])) ∧
    (∀ e ∈ ([(.vexp2 h f, 0), (.vlog2 h f, 1), (.vrcp h f, 2), (.vrsqrt h f, 3), (.vsqrt h f, 4)] : List (Instr × Nat)),
      let r (i : Nat) := special e.2 (decodeF 0 (elem (s.vecA f 32) 32 i))
      s.issues e.1 → s.serves (needsV h f true [] [f.vd]) → ∃ t, exec e.1 s = .next t ∧ s.wentOn t h ∧ s.onlyMe t ∧
        s.me.sameBut t.me [f.vd] ∧ s.getsLanes t f.vd m 32 (fun i => (r i).1) ∧
        s.counts t (((List.range 32).filter (laneOn m 32)).map (fun i => (r i).2))) ∧
    (s.issues (.vstat h f) → s.serves (needsV h f true [] [f.vd]) → ∃ t, exec (.vstat h f) s = .next t ∧ s.wentOn t h ∧
      s.onlyMe t ∧ s.me.sameBut t.me [f.vd] ∧ t.me.vflags = s.me.vflags ∧
      s.getsLanes t f.vd m 64 (fun _ => s.me.vflags.toNat)) ∧
    (s.issues (.vstatPredicate h f) → s.serves (needsV h f true [] [f.pd]) → ∃ t, exec (.vstatPredicate h f) s = .next t ∧
      s.wentOn t h ∧ s.onlyMe t ∧ s.me.sameBut t.me [f.pd] ∧ t.me.vflags = s.me.vflags ∧
      (f.didx ≠ 0 → s.getsBits t f.pd m 8 (fun _ => (List.range 4).any
        (fun i => bitAt f.mask i && fld s.me.vflags.toNat (16 * i) 16 != 0)))) ∧
    (s.issues (.vclrf h f) → ∃ t, exec (.vclrf h f) s = .next t ∧ s.wentOn t h ∧ s.onlyMe t ∧ s.me.sameBut t.me [] ∧
      ∀ i, i < 4 → fld t.me.vflags.toNat (16 * i) 16 = if bitAt f.mask i then 0 else fld s.me.vflags.toNat (16 * i) 16) ∧
    (s.issues (.kset h f) →
      let keys (t : State) (a b : Nat) : Prop := t.me.reg (.key 0x10) = a / 2 ^ 32 ∧ t.me.reg (.key 0x11) = a % 2 ^ 32 ∧
        t.me.reg (.key 0x12) = b % 2 ^ 32 ∧ s.me.sameBut t.me [.key 0x10, .key 0x11, .key 0x12]
      (∀ i : BitVec 4, f.sb = some (.s i) → s.serves (needs [.s i.toNat, .s (i.toNat + 1)] []) →
        ∃ t, exec (.kset h f) s = .next t ∧ s.wentOn t h ∧ s.onlyMe t ∧
          keys t (s.me.reg (.s i.toNat)) (s.me.reg (.s (i.toNat + 1)))) ∧
      (∀ c : BitVec 8, f.sb = some (.const c) → s.serves { needs [] [] with lm := [(8 * c.toNat, 16, false)] } →
        ∃ t, exec (.kset h f) s = .next t ∧ s.wentOn t h ∧ s.onlyMe t ∧
          keys t (s.constSlot c.toNat).toNat (s.constSlot (c.toNat + 1)).toNat))

/-- 10 R271, 11 R281, R282, R308, R309: VLL, VLS, TLDL and TSTL trap MISALIGNED and LM_RANGE; they move the guard's bytes, or the
footprint of the tile's shape, between LM and their register and nothing else, and wait where a copy's watermark covers one of
those bytes (09 R236). TCFG sets a shape that it accepts and traps TILE_SHAPE for any other; TSTAT and TCLR of a tile read and
clear its counters. That MISALIGNED comes first (notes/assumptions/16), that the alignment trap is made whatever a vector guard
(notes/assumptions/49), that a guarded VLL does not read vd (notes/assumptions/88) and that TILE_SHAPE of TCFG has no mask
(notes/assumptions/51) are the model's choices. -/
def Obligations.VectorAndTileMemoryResults : Prop :=
  ∀ (s : State) (h : Hdr) (m : MForm) (tr : BitVec 3) (r : BitVec 4) (off : BitVec 19) (mask : BitVec 4),
    let n := s.cur.core
    let g := s.laneMask h
    let v := Reg.v m.didx.toNat
    let tl := Reg.t tr.toNat
    let base := BitVec.ofNat 64 (s.me.reg (.s r.toNat))
    let size := tcFoot (s.me.shape tr.toNat)
    let ctr := s.me.tileCtr tr.toNat
    (∀ e ∈ ([(.vll h m, s.needsM m [] [v], s.addrOf m, 128, false), (.vls h m, s.needsM m [v] [], s.addrOf m, 128, true),
        (.tldl h tr r off, needs [.s r.toNat] [tl], (base + off.signExtend 64).toNat, size, false),
        (.tstl h tr r off, needs [.s r.toNat, tl] [], (base + off.signExtend 64).toNat, size, true)] :
        List (Instr × Needs × Nat × Nat × Bool)),
      s.issues e.1 → s.serves e.2.1 →
      let ea := e.2.2.1
      let len := e.2.2.2.1
      (ea % 8 ≠ 0 → exec e.1 s = .next (s.trapOn n s.cur.x 0x0E 0 0 ea)) ∧
      (ea % 8 = 0 → 65536 < ea + len → exec e.1 s = .next (s.trapOn n s.cur.x 0x0D 0 0 ea)) ∧
      let blocked : Prop := ∃ j, j < len ∧ (e.1 = .vll h m ∨ e.1 = .vls h m → bitAt g j = true) ∧
        s.me.lmBlocked (ea + j) 1 e.2.2.2.2 = true
      (ea % 8 = 0 → ea + len ≤ 65536 → blocked →
        ∃ t, exec e.1 s = .next t ∧ s.waited t ∧ s.onlyMe t) ∧
      (ea % 8 = 0 → ea + len ≤ 65536 → ¬blocked → 0 < len → len ≤ 4096 →
        ∃ t, exec e.1 s = .next t ∧ s.wentOn t h ∧ s.onlyMe t ∧
          (e.1 = .vll h m → s.me.sameBut t.me [v] ∧ t.me.lm = s.me.lm ∧
            s.getsLanes t v g 8 (fun j => (tget 0 (ea + j) (s.me.lmView s.cur.x)).toNat)) ∧
          (e.1 = .vls h m → s.me.sameBut t.me [] ∧ s.storesLm t ea 128 (s.me.reg v) (bitAt g)) ∧
          (e.1 = .tldl h tr r off → s.me.sameBut t.me [tl] ∧ t.me.lm = s.me.lm ∧ ∀ j, j < 4096 →
            fld (t.me.comes s.cur.x tl) (8 * j) 8 =
              if j < len then (tget 0 (ea + j) (s.me.lmView s.cur.x)).toNat else fld (s.me.reg tl) (8 * j) 8) ∧
          (e.1 = .tstl h tr r off → s.me.sameBut t.me [] ∧ s.storesLm t ea len (s.me.reg tl) (fun _ => true)))) ∧
    (s.issues (.tcfg h tr r) → s.serves (needs [.s r.toNat] []) →
      (tcOk base = false → exec (.tcfg h tr r) s = .next (s.trapOn n s.cur.x 0x23 0 0 0)) ∧
      (tcOk base = true → ∃ t, exec (.tcfg h tr r) s = .next t ∧ s.wentOn t h ∧ s.onlyMe t ∧ s.me.sameBut t.me [] ∧
        t.me.shape tr.toNat = base ∧ ∀ k, k ≠ tr.toNat → t.me.shape k = s.me.shape k)) ∧
    (s.issues (.tstat h tr r) → s.serves (needs [] [.s r.toNat]) →
      (s.tileHeld n tr.toNat false = true → ∃ t, exec (.tstat h tr r) s = .next t ∧ s.waited t ∧ s.onlyMe t) ∧
      (s.tileHeld n tr.toNat false = false → ∃ t, exec (.tstat h tr r) s = .next t ∧ s.wentOn t h ∧ s.onlyMe t ∧
        t.gets (.s r.toNat) ctr.toNat ∧ s.me.sameBut t.me [.s r.toNat])) ∧
    (s.issues (.tclr h tr mask) →
      (s.readBlocked tl = true → ∃ t, exec (.tclr h tr mask) s = .next t ∧ s.waited t ∧ s.onlyMe t) ∧
      (s.readBlocked tl = false → ∃ t, exec (.tclr h tr mask) s = .next t ∧ s.wentOn t h ∧ s.onlyMe t ∧ s.me.sameBut t.me [] ∧
        (∀ i, i < 4 → fld (t.me.tileCtr tr.toNat).toNat (16 * i) 16 =
          if mask.getLsbD i then 0 else fld ctr.toNat (16 * i) 16) ∧
        ∀ k, k ≠ tr.toNat → t.me.tileCtr k = s.me.tileCtr k))

/-! ### Gangs (11 R283 to R309, 12 R311 to R321) -/

/-- 11 R283 to R285, R293, R308, 12 R314: a gang instruction below no GANG level traps LEVEL_MISMATCH; its X-stream arrives at the wired
barrier and waits there; when all eight have arrived it enters the matrix queue and all eight go on, unless the instructions differ
(GANG_MISMATCH), a tile breaks a shape rule (TILE_SHAPE) or a continuity check fails, which every stream takes as a trap at its next
try. TSTAT of a bank waits for the core's queued instructions. When a stream takes the trap, and TINFO 0 of LEVEL_MISMATCH, are the
model's choice (notes/assumptions/51), as are that a continuity check asks for its pages at user level (notes/assumptions/52) and
the mask where slot 0's own tile has no class (notes/assumptions/90). -/
def Obligations.GangArrivalResults : Prop :=
  ∀ (s : State) (h : Hdr) (f : GForm) (j : AForm) (ta tb : BitVec 3) (b1 : Bool) (r p : BitVec 4) (bl : BitVec 6) (rn : BitVec 7),
    let n := s.cur.core
    let gn := gangOf n
    let td := Reg.t j.td.toNat
    let opt (b : Bool) (k : BitVec 3) : List Reg := if b then [.t k.toNat] else []
    (∀ e ∈ ([(.wld h ta tb b1, Reg.t ta.toNat :: opt b1 tb, [], none, false),
        (.gmmaF h f, [Reg.t f.ta.toNat], [], none, false),
        (.gmmaB h f, Reg.t f.ta.toNat :: opt f.msk f.tm, [], none, false),
        (.gmmaO h f, Reg.t f.ta.toNat :: Reg.t f.tb.toNat :: opt f.msk f.tm, [], none, false),
        (.drain h j, [], [td], some j.sidx.toNat, false), (.drainAdd h j, [], [], some j.sidx.toNat, true),
        (.odrain h j, [], [], none, false), (.join h j, [], [], none, false), (.accld h j, [td], [], none, false),
        (.accst h j, [], [td], none, false), (.acccp h j, [], [], none, false), (.tclrBank h b1 r, [], [], none, false),
        (.csig h ta bl, [Reg.t ta.toNat], [], none, false), (.ctest h r p bl, [], [Reg.px p.toNat], some r.toNat, true),
        (.cstore h ta r bl, [Reg.t ta.toNat], [], some r.toNat, true), (.csheet h r rn, [], [Reg.s r.toNat], none, false),
        (.ccfg h r rn, [], [], some r.toNat, true)] : List (Instr × List Reg × List Reg × Option Nat × Bool)),
      let i := e.1
      let sr := if e.2.2.2.2 && n % 8 != 0 then none else e.2.2.2.1
      let u := s.gangArrive i sr
      let g := u.gang gn
      s.issues i → s.serves (needs (e.2.1 ++ (sr.map Reg.s).toList) e.2.2.1) →
      (s.belowGang n = false → exec i s = .next (s.trapOn n s.cur.x 0x05 0 0 0)) ∧
      (s.belowGang n = true →
        (∀ c k m v, s.st.stage = .gangTrap c k m v →
          exec i s = .next ((s.setSt { s.st with stage := .start }).trapOn n s.cur.x c k m v)) ∧
        (s.st.stage = .start → g.allArrived = none → ∃ t, exec i s = .next t ∧ s.waited t ∧ t.st.stage = .gangArrived ∧
          tget none (n % 8) (t.gang gn).arrivals = some (s.arrivalOf i sr) ∧ (t.gang gn).queue = (s.gang gn).queue) ∧
        (s.st.stage = .gangArrived → (s.gang gn).allArrived = none → ∃ t, exec i s = .next t ∧ s.waited t ∧ s.onlyMe t) ∧
        (∀ arr, s.st.stage = .start → g.allArrived = some arr →
          let a0 := slot0 arr
          let keys (a : Arrival) : List Nat := roleKeys (fun k => a.tcs.getD k 0) a.instr
          let fails (cause code mask info : Nat) : Prop := ∃ t, exec i s = .next t ∧ (t.gang gn).arrivals = [] ∧
            (t.gang gn).queue = (s.gang gn).queue ∧ ∀ k, k < 8 → (t.core (8 * gn + k)).x.stage = .gangTrap cause code mask info
          let enters (pages : List (Nat × TlbEntry)) : Prop := ∃ t o, exec i s = .next t ∧ (t.gang gn).arrivals = [] ∧
            (t.gang gn).queue = (s.gang gn).queue ++ [o] ∧ o.instr = gangBody i ∧ o.arr = arr ∧ o.sent = none ∧ o.pages = pages ∧
            t.cur = s.cur ∧ t.st.stage = .start ∧ (isHub n = false → t.st.pc = s.nextSlot) ∧ s.now + h.stall.toNat < t.st.ready ∧
            ∀ k, k < 8 → (t.core (8 * gn + k)).x.stage = .start
          let same : Prop := ∀ a ∈ arr, gangBody a.instr = gangBody i
          let fits : Prop := ∀ a ∈ arr, a.breach = false ∧ keys a = keys a0
          ((∃ a ∈ arr, gangBody a.instr ≠ gangBody a0.instr) → ∃ mask, fails 0x21 0 mask 0 ∧
            ∀ k, k < 8 → (bitAt mask k = true ↔ ∃ a, arr[k]? = some a ∧ gangBody a.instr ≠ gangBody a0.instr)) ∧
          (same → ¬fits → isCont i = false ∨ (s.gang gn).queue = [] → ∃ mask, fails 0x23 0 mask 0 ∧
            ∀ k, k < 8 → (bitAt mask k = true ↔ ∃ a, arr[k]? = some a ∧ (a.breach = true ∨ keys a ≠ keys a0))) ∧
          (same → fits → isCont i = false → (s.gang gn).queue.length < 16 → enters []) ∧
          (same → fits → isCont i = true → (s.gang gn).queue = [] →
            (∀ pages v, u.contCheck gn arr a0.instr = (.ok pages, v) → enters pages) ∧
            (∀ cause code info v, u.contCheck gn arr a0.instr = (.fail cause code info, v) → fails cause code 0xFF info))))) ∧
    (s.issues (.tstatBank h b1 r) → s.serves (needs [] [.s r.toNat]) →
      (s.belowGang n = false → exec (.tstatBank h b1 r) s = .next (s.trapOn n s.cur.x 0x05 0 0 0)) ∧
      (s.belowGang n = true → s.queued n ≠ [] → ∃ t, exec (.tstatBank h b1 r) s = .next t ∧ s.waited t ∧ s.onlyMe t) ∧
      (s.belowGang n = true → s.queued n = [] → ∃ t, exec (.tstatBank h b1 r) s = .next t ∧ s.wentOn t h ∧ s.onlyMe t ∧
        t.gets (.s r.toNat) (tget 0 (if b1 then 1 else 0) (s.gang gn).bctr).toNat ∧ s.me.sameBut t.me [.s r.toNat]))

/-- 11 R287, R292, R294 to R307, 12 R315, R318 to R321: the head of a matrix queue does its work and leaves: WLD keeps the tiles; GMMA.F
and GMMA.B write rounded sums to their rows and to no others and GMMA.O to the outer store, each counting its events in the bank's
set; drains and copies move rows between tiles, the outer store and the accumulator store, in an MX format by blocks with their
scales; CSIG sums a signature, CTEST compares it with the tile's entry and sets the sheet's bit and the predicate of all eight
cores, CSTORE writes the tile; a JOIN opens, takes one contribution for each slot, acknowledges it and closes over their sum; the
timeouts give up the barrier, the join and the contribution. What a window sum computes (04 R93): NaN and infinities as its rule has
them, −0 where every term is −0, and else the terms truncated at 2^(Emax − 87), summed exactly and rounded once. That the unit does
a continuity instruction as one step is the model's choice (notes/assumptions/52), as are the zero sign of a block term with fewer
than 32 products (notes/assumptions/80) and whose halts stop the counts of a join (notes/assumptions/51), and when a core counts as
being saved (notes/assumptions/89). -/
def Obligations.GangEngineResults : Prop :=
  (∀ (f : Nat) (prop : Bool) (rm : Rm) (ts : List Term) (l : Int), f ≤ 2 →
    let xs := ts.map Term.v
    let sum := windowSum f prop rm ts
    let both := Ex.inf false ∈ xs ∧ Ex.inf true ∈ xs
    let minus := 2 ^ (fmtWidth f - 1)
    let inf := [0x7F800000, 0x7F80, 0x7C00].getD f 0
    let units (x : Ex) : Int := match x with
      | .fin n m e =>
        let u : Nat := if l - 87 ≤ e then m * 2 ^ (e - (l - 87)).toNat else m / 2 ^ (l - 87 - e).toNat
        if n then -(u : Int) else u
      | _ => 0
    (Ex.nan ∈ xs ∨ both → sum.1 = [0x7FC00000, 0x7FC0, 0x7E00].getD f 0 ∧
      ((∃ t ∈ ts, t.made = true) ∨ both → sum.2 = Ev.isNan) ∧ ((∀ t ∈ ts, t.made = false) → ¬both → sum.2 = Ev.none)) ∧
    (Ex.nan ∉ xs → Ex.inf true ∉ xs → Ex.inf false ∈ xs → sum = (inf, Ev.none)) ∧
    (Ex.nan ∉ xs → Ex.inf false ∉ xs → Ex.inf true ∈ xs → sum = (minus + inf, Ev.none)) ∧
    ((∀ x ∈ xs, x.isZero = true) → sum = (if xs ≠ [] ∧ ∀ x ∈ xs, x.sign = true then minus else 0, Ev.none)) ∧
    ((∀ x ∈ xs, x.isFin = true) → (∃ x ∈ xs, x.isZero = false ∧ x.log = l) → (∀ x ∈ xs, x.isZero = false → x.log ≤ l) →
      let total := (xs.map units).sum
      sum = if total = 0 then (0, Ev.none) else toF f prop rm (.fin (decide (total < 0)) total.natAbs (l - 87)))) ∧
  ∀ (s : State) (gn : Nat) (o : GangOp) (rest : List GangOp), (s.gang gn).queue = o :: rest → (s.gang gn).arrivals = [] →
    let g := s.gang gn
    let arr := o.arr
    let tile (c : Core) (k : BitVec 3) : Nat := c.reg (.t k.toNat)
    let shape (a : Arrival) (k : BitVec 3) : Word := a.tcs.getD k.toNat 0
    let same (t : State) (bank row m : Nat) : Prop := ∀ k, k < 16384 * bank + 64 * row ∨ 16384 * bank + 64 * (row + m) ≤ k →
      tget 0 k (t.gang gn).acc = tget 0 k g.acc
    let done : Instr := .gangInstructionComplete gn
    (∀ h tw tm sp, o.instr = .wld h tw tm sp → ∃ t st, exec done s = .next t ∧ (t.gang gn).queue = rest ∧
      (t.gang gn).station = some st ∧ st.sparse = sp ∧ (t.gang gn).acc = g.acc ∧
      (sp = true → st.masks = arr.zipIdx.map (fun p => (shape p.1 tm, leBytes (tile (s.core (8 * gn + p.2)) tm) 4096))) ∧
      st.bands = arr.zipIdx.map (fun p => (shape p.1 tw, leBytes (tile (s.core (8 * gn + p.2)) tw) 4096))) ∧
    (∀ h (f : GForm) (st : Station) (cls : Nat), o.instr = .gmmaF h f ∨ o.instr = .gmmaB h f → g.station = some st →
      let ws := storedBands st.bands
      fmtClass (tcFmt (bandAt ws 0).1) = some cls →
      let xs := s.bandsOf gn arr f.ta.toNat
      let ms := if o.instr = .gmmaF h f then storedBands st.masks else s.bandsOf gn arr f.tm.toNat
      let kc := kcOf cls st.sparse
      let bank := if f.bank then 1 else 0
      let old (i k : Nat) : List Term :=
        if f.acc then [Term.of (decodeF 0 (g.accAt bank (f.accr.toNat + i) k).toNat)] else []
      let pair (i k q : Nat) : Ex × Ex := (acrossElem xs kc i q, acrossElem ws kc k q)
      let kept (k q : Nat) : Bool := !st.sparse || maskKeeps ms kc q k
      let fwd (i k : Nat) : List Term :=
        if cls = 1 then ((List.range (8 * kc)).filter (kept k)).map (fun q => Term.prod (pair i k q).1 (pair i k q).2)
        else (List.range (8 * kc / 32)).map (fun b => blockTerm (acrossScale xs kc i (32 * b)) (acrossScale ws kc k (32 * b))
          (((upFrom (32 * b) 32).filter (kept k)).map (pair i k)))
      let back (i k : Nat) : List Term := ((List.range 64).filter (fun n => !f.msk || maskKeeps ms 8 k n)).map (fun n =>
        if cls = 1 then Term.prod (acrossElem ws 8 n k) (acrossElem xs 8 i n)
        else blockTerm (acrossScale ws 8 n k) (acrossScale xs 8 i n) [(acrossElem ws 8 n k, acrossElem xs 8 i n)])
      let sum (i k : Nat) := windowSum 0 false (gangRm arr f.rm ((slot0 arr).tcs.getD f.ct.toNat 0) i k)
        (old i k ++ if o.instr = .gmmaF h f then fwd i k else back i k)
      ∃ t, exec done s = .next t ∧ (t.gang gn).queue = rest ∧ same t bank f.accr.toNat (f.mm1.toNat + 1) ∧
        (∀ i k, i ≤ f.mm1.toNat → k < 64 →
          ((t.gang gn).accAt bank (f.accr.toNat + i) k).toNat = (sum i k).1 % 2 ^ 32) ∧
        counted (tget 0 bank g.bctr) (tget 0 bank (t.gang gn).bctr)
          ((List.range (f.mm1.toNat + 1)).flatMap (fun i => (List.range 64).map (fun k => (sum i k).2)))) ∧
    (∀ h (f : GForm) (cls : Nat), o.instr = .gmmaO h f →
      let xs := s.bandsOf gn arr f.ta.toNat
      let ds := s.bandsOf gn arr f.tb.toNat
      let ms := s.bandsOf gn arr f.tm.toNat
      fmtClass (tcFmt (bandAt xs 0).1) = some cls →
      let bank := if f.bank then 1 else 0
      let term (k n i : Nat) : Term :=
        if cls = 1 then Term.prod (acrossElem xs 8 i k) (acrossElem ds 8 i n)
        else blockTerm (acrossScale xs 8 i k) (acrossScale ds 8 i n) [(acrossElem xs 8 i k, acrossElem ds 8 i n)]
      let sum (k n : Nat) := windowSum 0 false (gangRm arr f.rm ((slot0 arr).tcs.getD f.ct.toNat 0) k n)
        ((if f.acc then [Term.of (decodeF 0 (tget 0 (64 * k + n) g.outer).toNat)] else []) ++
          if !f.msk || maskKeeps ms 8 k n then (List.range (f.mm1.toNat + 1)).map (term k n) else [])
      ∃ t, exec done s = .next t ∧ (t.gang gn).queue = rest ∧ (t.gang gn).acc = g.acc ∧
        (∀ k n, k < 64 → n < 64 → (tget 0 (64 * k + n) (t.gang gn).outer).toNat = (sum k n).1 % 2 ^ 32) ∧
        counted (tget 0 bank g.bctr) (tget 0 bank (t.gang gn).bctr)
          ((List.range 64).flatMap (fun k => (List.range 64).map (fun n => (sum k n).2)))) ∧
    (∀ h (f : AForm), o.instr = .drain h f ∨ o.instr = .accst h f → arr.length = 8 →
      let bank := if f.bank then 1 else 0
      let w (k : Nat) : Word := ((arr[k]?).map (fun a => shape a f.td)).getD 0
      let x (i c : Nat) := scaleClip (((arr[c / 8]?).map Arrival.sval).getD 0) (g.accAt bank (f.accr.toNat + i) c)
      let rm (i c : Nat) : Rm := gangRm arr f.rm (w (c / 8)) i (c % 8)
      let one (i c : Nat) := toF f.fmt.toNat f.sp (rm i c) (x i c).1
      let block (i j : Nat) := mxBlock (elemFmt f.fmt.toNat) f.sp (fun q => rm i (32 * j + q))
        ((upFrom (32 * j) 32).map (fun c => (x i c).1))
      ∃ t, exec done s = .next t ∧ (t.gang gn).queue = rest ∧
        (o.instr = .accst h f ∨ f.clr = false → (t.gang gn).acc = g.acc) ∧
        (o.instr = .drain h f → f.clr = true → same t bank f.accr.toNat (f.mm1.toNat + 1) ∧
          ∀ i k, i ≤ f.mm1.toNat → k < 64 → (t.gang gn).accAt bank (f.accr.toNat + i) k = 0) ∧
        ∀ k, k < 8 → tcOk (w k) = true → tcCols (w k) = 8 → f.mm1.toNat + 1 ≤ tcRows (w k) →
          let wd := fmtWidth (tcFmt (w k))
          let new (i q : Nat) : Nat := tileElem (w k) (tile (t.core (8 * gn + k)) f.td) i q
          (o.instr = .accst h f → tcFmt (w k) = 0 → ∀ i q, i ≤ f.mm1.toNat → q < 8 →
            new i q = (g.accAt bank (f.accr.toNat + i) (8 * k + q)).toNat) ∧
          (o.instr = .drain h f → tcFmt (w k) = f.fmt.toNat → isMxFmt f.fmt.toNat = false →
            (∀ i q, i ≤ f.mm1.toNat → q < 8 → new i q = (one i (8 * k + q)).1 % 2 ^ wd) ∧
            counted ((s.core (8 * gn + k)).tileCtr f.td.toNat) ((t.core (8 * gn + k)).tileCtr f.td.toNat)
              ((List.range (f.mm1.toNat + 1)).flatMap (fun i => (upFrom (8 * k) 8).map (fun c => (one i c).2.or (x i c).2)))) ∧
          (o.instr = .drain h f → tcFmt (w k) = f.fmt.toNat → isMxFmt f.fmt.toNat = true → ∀ i, i ≤ f.mm1.toNat →
            tileScale (w k) (tile (t.core (8 * gn + k)) f.td) i 0 = (block i (k / 4)).1 % 2 ^ 8 ∧
            ∀ q, q < 8 → new i q = ((block i (k / 4)).2.getD (8 * (k % 4) + q) (0, Ev.none)).1 % 2 ^ wd)) ∧
    (∀ h (f : AForm), o.instr = .accld h f → ∃ t, exec done s = .next t ∧ (t.gang gn).queue = rest ∧
      same t (if f.bank then 1 else 0) f.accr.toNat (f.mm1.toNat + 1) ∧
      ∀ k i q a, arr[k]? = some a → k < 8 → i ≤ f.mm1.toNat → q < 8 →
        (t.gang gn).accAt (if f.bank then 1 else 0) (f.accr.toNat + i) (8 * k + q) =
          BitVec.ofNat 32 (tileElem (shape a f.td) (tile (s.core (8 * gn + k)) f.td) i q)) ∧
    (∀ h (f : AForm), o.instr = .acccp h f → ∃ t, exec done s = .next t ∧ (t.gang gn).queue = rest ∧
      same t (if f.bank2 then 1 else 0) f.accr2.toNat (f.mm1.toNat + 1) ∧ ∀ i k, i ≤ f.mm1.toNat → k < 64 →
        (t.gang gn).accAt (if f.bank2 then 1 else 0) (f.accr2.toNat + i) k = g.accAt (if f.bank then 1 else 0) (f.accr.toNat + i) k) ∧
    (∀ h (f : AForm), o.instr = .odrain h f →
      let bank := if f.bank then 1 else 0
      let sum (i k : Nat) := windowSum 0 false (gangRm arr f.rm ((slot0 arr).tcs.getD f.ct.toNat 0) i k)
        [Term.of (decodeF 0 (g.accAt bank (f.accr.toNat + i) k).toNat), Term.of (decodeF 0 (tget 0 (64 * i + k) g.outer).toNat)]
      ∃ t, exec done s = .next t ∧ (t.gang gn).queue = rest ∧ same t bank f.accr.toNat 64 ∧ (t.gang gn).outer = [] ∧
        (f.add = false → ∀ i k, i < 64 → k < 64 → (t.gang gn).accAt bank (f.accr.toNat + i) k = tget 0 (64 * i + k) g.outer) ∧
        (f.add = true → (∀ i k, i < 64 → k < 64 →
            ((t.gang gn).accAt bank (f.accr.toNat + i) k).toNat = (sum i k).1 % 2 ^ 32) ∧
          counted (tget 0 bank g.bctr) (tget 0 bank (t.gang gn).bctr)
            ((List.range 64).flatMap (fun i => (List.range 64).map (fun k => (sum i k).2))))) ∧
    (∀ h bk m, o.instr = .tclrBank h bk m → ∃ t, exec done s = .next t ∧ (t.gang gn).queue = rest ∧ (t.gang gn).acc = g.acc ∧
      ∀ i, i < 4 → fld (tget 0 (if bk then 1 else 0) (t.gang gn).bctr).toNat (16 * i) 16 =
        if m.getLsbD i then 0 else fld (tget 0 (if bk then 1 else 0) g.bctr).toNat (16 * i) 16) ∧
    (∀ h r n, o.instr = .csheet h r n → ∃ t, exec done s = .next t ∧ (t.gang gn).queue = rest ∧ (t.gang gn).cont = g.cont ∧
      ∀ k p, k < 8 → (s.core (8 * gn + k)).pends = [p] → p.id = o.id → p.outs = [(.s r.toNat, none)] →
        (t.core (8 * gn + k)).pends = [{ p with outs := [(.s r.toNat, some (g.cont.read n.toNat).toNat)] }]) ∧
    (∀ h r n, o.instr = .ccfg h r n → ∃ t, exec done s = .next t ∧ (t.gang gn).queue = rest ∧
      let v := (slot0 arr).sval
      (n = 0 → (t.gang gn).cont = { g.cont with ctbase := v }) ∧ (n = 1 → (t.gang gn).cont = { g.cont with csbase := v }) ∧
      (n = 2 → (t.gang gn).cont = { g.cont with cstbase := v }) ∧ (n = 3 → (t.gang gn).cont = { g.cont with geom := v }) ∧
      (n = 4 → (t.gang gn).cont = { g.cont with cstep := v }) ∧ (n = 5 → (t.gang gn).cont = { g.cont with cref := v }) ∧
      (64 ≤ n.toNat → (t.gang gn).cont = { g.cont with thr := tput 0 (n.toNat - 64) v g.cont.thr })) ∧
    (∀ h (tb : BitVec 3) (b : BitVec 6), o.instr = .csig h tb b →
      let bs := s.bandsOf gn arr tb.toNat
      let rows := tcRows (bandAt bs 0).1
      let unit (i j : Nat) : Option Int := sigUnits (g.cont.expo b.toNat) (bandElem (bandAt bs (j / 8)) i (j % 8))
      ∃ t, exec done s = .next t ∧ (t.gang gn).queue = rest ∧
        (let c := (t.gang gn).cont
         { c with sig := g.cont.sig, nf := g.cont.nf, sigb := g.cont.sigb, sigv := g.cont.sigv } = g.cont ∧
         c.sigv = true ∧ c.sigb = b.toNat ∧ (c.nf = true ↔ ∃ i j, i < rows ∧ j < 64 ∧ unit i j = none) ∧
         ∀ k, k < 16 → tget 0 k c.sig = max (-2 ^ 31) (min (2 ^ 31 - 1)
           (((List.range rows).filter (fun i => decide (k * rows / 16 ≤ i) && decide (i < (k + 1) * rows / 16))).flatMap
             (fun i => (List.range 64).map (fun j => (unit i j).getD 0))).sum))) ∧
    (∀ h (r p : BitVec 4) (b : BitVec 6) (ea sa : Nat) (pe ps : TlbEntry), o.instr = .ctest h r p b → o.pages = [(ea, pe), (sa, ps)] →
      s.contReady gn o.vec o.pages = true → s.allCleared gn o.id = true → s.badIn ea 128 = false → s.badIn sa 1 = false →
      (∀ k, k < 8 → ∃ q, (s.core (8 * gn + k)).pends = [q] ∧ q.id = o.id ∧ q.outs = [(.px p.toNat, none)] ∧ q.masks = []) →
      let c := g.cont
      let i := (slot0 arr).sval.toNat % 2 ^ 16
      let dist := ((List.range 16).map (fun k => (tget 0 k c.sig - toS (s.memRd (ea + 4 * k) 4) 32).natAbs)).sum
      let age := (c.cstep.toNat + 2 ^ 32 - s.memRd (ea + 64) 4) % 2 ^ 32
      let flags := s.memRd (ea + 68) 1
      let skip : Bool := bitAt flags 0 && !bitAt flags 1 && !c.nf && decide (age < c.cref.toNat % 2 ^ 16) &&
        decide (dist ≤ c.limit b.toNat)
      let apart (a n : Nat) : Prop := ∀ q ∈ o.pages, q.2.dirty = true ∨ a + n ≤ q.2.at0 ∨ q.2.at0 + 8 * q.2.n ≤ a
      apart ea 128 → apart sa 1 → sa < ea ∨ ea + 128 ≤ sa →
      ∃ t, exec done s = .next t ∧ (t.gang gn).queue = rest ∧
        (∀ k, k < 8 → (t.core (8 * gn + k)).pends = [] ∧
          (t.core (8 * gn + k)).reg (.px p.toNat) = if p = 0 ∨ skip = false then allOnes else 0) ∧
        (∀ j, j < 8 → bitAt (t.memRd sa 1) j = if j = c.bitIndex b.toNat i % 8 then skip else bitAt (s.memRd sa 1) j) ∧
        (skip = true → (t.gang gn).cont = c ∧ ∀ k, k < 128 → tget 0 (ea + k) t.mem = tget 0 (ea + k) s.mem) ∧
        (skip = false → (∀ k, k < 16 → toS (t.memRd (ea + 4 * k) 4) 32 = toS (ofS (tget 0 k c.sig) 32) 32) ∧
          t.memRd (ea + 64) 4 = c.cstep.toNat % 2 ^ 32 ∧ t.memRd (ea + 68) 4 = 1 + (if c.nf then 2 else 0) ∧
          t.memRd (ea + 72) 8 = c.ptr b.toNat i ∧ (∀ k, 80 ≤ k → k < 128 → tget 0 (ea + k) t.mem = 0) ∧
          (b.toNat, i) ∈ (t.gang gn).cont.pend)) ∧
    (∀ h (tb : BitVec 3) (r : BitVec 4) (b : BitVec 6), o.instr = .cstore h tb r b → arr.length = 8 → o.pages.length = 8 →
      s.contReady gn o.vec o.pages = true →
      let i := (slot0 arr).sval.toNat % 2 ^ 16
      let pa (k : Nat) : Nat := ((o.pages[k]?).map Prod.fst).getD 0
      let foot (k : Nat) : Nat := tcFoot (((arr[k]?).map (fun a => shape a tb)).getD 0)
      (∀ k, k < 8 → s.badIn (pa k) (foot k) = false) →
      (∀ k m, k < 8 → m < 8 → k ≠ m → pa k + foot k ≤ pa m ∨ pa m + foot m ≤ pa k) →
      ∃ t, exec done s = .next t ∧ (t.gang gn).queue = rest ∧
        (∀ k j, k < 8 → j < foot k →
          tget 0 (pa k + j) t.mem = BitVec.ofNat 8 (fld (tile (s.core (8 * gn + k)) tb) (8 * j) 8)) ∧
        (b.toNat, i) ∉ (t.gang gn).cont.pend ∧ ∀ e, e ≠ (b.toNat, i) → (e ∈ (t.gang gn).cont.pend ↔ e ∈ g.cont.pend)) ∧
    (∀ h (f : AForm), o.instr = .join h f → g.join = none → ∃ t k, exec (.joinOpen gn) s = .next t ∧ (t.gang gn).join = some k ∧
      k.opId = o.id ∧ k.run = o.run ∧ k.form = f ∧ k.held = [] ∧ k.opened = (s.core (8 * gn)).cyc ∧ t.cores = s.cores ∧ t.mem = s.mem) ∧
    (∀ (k : OpenJoin), g.join = some k →
      let sums (t : State) (held : Table (Option (List (BitVec 32)))) : Prop := (t.gang gn).join = none ∧ (t.gang gn).queue = rest ∧
        ∀ i q, i ≤ k.form.mm1.toNat → q < 64 →
          let bank := if k.form.bank then 1 else 0
          let ct := (slot0 arr).tcs.getD k.form.ct.toNat 0
          ((t.gang gn).accAt bank (k.form.accr.toNat + i) q).toNat = (windowSum 0 false (gangRm arr k.form.rm ct i q)
            (Term.of (decodeF 0 (g.accAt bank (k.form.accr.toNat + i) q).toNat) :: (held.filterMap Prod.snd).map (fun rows =>
              Term.of (decodeF 0 (rows.getD (64 * i + q) 0).toNat)))).1 % 2 ^ 32
      (∀ c : Contribution, c.dst = gn → s.noTarget c = false → k.run = some c.run → c.slot < k.form.ns.toNat →
        tget none c.slot k.held = none → c.mm1 = k.form.mm1.toNat →
        let held := tput none c.slot (some c.rows) k.held
        ∃ t, exec (.joinContribution c) s = .next t ∧ t.agenda = s.agenda ++ [.contributionAck c.src c.opId] ∧ t.mem = s.mem ∧
          (held.length ≠ k.form.ns.toNat → (t.gang gn).join = some { k with held := held } ∧ (t.gang gn).queue = o :: rest) ∧
          (held.length = k.form.ns.toNat → sums t held)) ∧
      (k.opened + 2 ^ 24 ≤ (s.core (8 * gn)).cyc → s.joinPaused gn = false → ∃ t, exec (.joinTimeout gn) s = .next t ∧
        sums t k.held)) ∧
    (∀ id, ∃ t, exec (.contributionAck gn id) s = .next t ∧ (id = o.id → (t.gang gn).queue = rest) ∧ (id ≠ o.id → t = s)) ∧
    (∀ h (f : AForm), o.instr = .drainAdd h f →
      (o.sent = none → ∃ t c, exec done s = .next t ∧ t.agenda = s.agenda ++ [.joinContribution c] ∧ c.src = gn ∧
        c.dst = (slot0 arr).sval.toNat % 2 ^ 12 ∧ c.slot = f.ns.toNat ∧ c.mm1 = f.mm1.toNat ∧
        (∀ r, o.run = some r → c.run = r) ∧
        (t.gang gn).queue = { o with sent := some (s.core (8 * gn)).cyc } :: rest ∧
        (∀ i q, i ≤ f.mm1.toNat → q < 64 →
          c.rows.getD (64 * i + q) 0 = g.accAt (if f.bank then 1 else 0) (f.accr.toNat + i) q)) ∧
      (∀ at0, o.sent = some at0 → at0 + 2 ^ 24 ≤ (s.core (8 * gn)).cyc → s.drainPaused gn = false →
        ∃ t, exec (.drainAddTimeout gn) s = .next t ∧
          (t.gang gn).queue = rest ∧ ∀ c, .joinContribution c ∈ t.agenda → c.src = gn → c.opId ≠ o.id)) ∧
    (∀ n a, isHub n = false → (s.core n).x.stage = .gangArrived → (s.core n).runnable true = true →
      s.gangPaused (gangOf n) = false → tget none (n % 8) (s.gang (gangOf n)).arrivals = some a →
      a.since + 2 ^ 20 ≤ (s.core n).cyc → ∃ t, exec (.gangTimeout n) s = .next t ∧ (t.core n).level = .s ∧
        (t.core n).svGet 4 = 0x122 ∧ tget none (n % 8) (t.gang (gangOf n)).arrivals = none ∧ t.mem = s.mem)

/-! ### Launches (02 R38 to R58) -/

/-- 02 R38, R42, R49, R52 to R58, R430, 17 R376, R377, R379: LAUNCH releases at device scope and submits the storyboard with the domain
and class of its launch, waiting while the queue of its class is full or the task's read of it waits for a cut (08 R210); LPORT
submits one with LPDOM's domain; a submitted storyboard counts, and stands with its slates, edges and waiting launches. A slate is
checked in the stated order, after what the launch unit can resume or deal; a launch that passes stands as a run, one that fails as
faulted; in a domain of several devices device 0 collects the results and sends GO or FAULT of the lowest-indexed fault. An abort
ends the share: its tasks run no more. A share whose work has ended retires, or in a larger domain reports first. WLOC gives the
core of another task of the caller's own group. Which code a fault of the slate has where R38 leaves it open, what a launch record
on another device's page counts as, and the fellow devices outside a cut group are the model's choices (notes/assumptions/40 to 43),
as is that a share which ends is no longer one that is pre-empted (notes/assumptions/45). -/
def Obligations.LaunchUnitResults : Prop :=
  ∀ s : State,
    (∀ (h : Hdr) (a : Desc), s.issues (.launch h a) → s.serves (srcNeeds s.cur.x a) →
      let va := (s.take a).1.toNat
      (va % 64 ≠ 0 → exec (.launch h a) s = .next (s.trapOn s.cur.core s.cur.x 0x01 0 0 0)) ∧
      (∀ pg w r, va % 64 = 0 → s.releases 5 → (s.afterRelease 5).reaches va true false pg w → w.runOf s.cur.core = some r →
        let sub := (w.mergeVec Config.hubDie (w.vecOf (dieOf s.cur.core))).submit va r.space r.d r.dIdx r.cls
        let early := w.takeWait s.cur.core (paPeer (pg.addr va) == w.peerid) (leafPub pg.leaf)
        (∀ v, early = false → sub = some v → ∃ t, exec (.launch h a) s = .next t ∧ s.wentOn t h ∧ t.stories = v.stories ∧
          t.submits = v.submits) ∧
        (early = true ∨ sub = none → ∃ t, exec (.launch h a) s = .next t ∧ s.waited t))) ∧
    (∀ w v, let d := fld s.lpdom.toNat 0 13
      let idx := fld s.lpdom.toNat 16 13
      (s.isReady = false ∨ d = 0 ∨ 4096 < d ∨ d ≤ idx → exec (.lport w v) s = .next (s.svDiscard w 0x200 v.toNat)) ∧
      (s.isReady = true → 1 ≤ d → d ≤ 4096 → idx < d →
        let sub := (s.mergeVec Config.hubDie (s.vecOf w.die)).submit (fld v.toNat 6 51 * 64) (fld s.lpdom.toNat 32 16) d idx 0
        (∀ t, sub = some t → exec (.lport w v) s = .next t) ∧ (sub = none → exec (.lport w v) s = .next s))) ∧
    (∀ sb space d idx floor,
      (∀ t, s.submit sb space d idx floor = some t → tget 0 sb t.submits = tget 0 sb s.submits + 1) ∧
      (∀ hd u, s.span space sb 16 = (.bytes hd, u) →
        let q := s.unitAsker space
        let n := fieldOf hd 2 2
        let ne := fieldOf hd 4 2
        let prio := fieldOf hd 6 1
        let done := fieldOf hd 8 8
        let cls := max (prio % 4) floor
        (64 ≤ u.queuedIn cls → s.submit sb space d idx floor = none) ∧
        (∀ pg w body x, u.queuedIn cls < 64 → reachEngine q done false true (u.translate q done) = (.page pg, w) →
          done % 64 = 0 → leafRop pg.leaf = false → paPeer (pg.addr done) = w.peerid → fieldOf hd 0 2 = 1 → 1 ≤ n → n ≤ 256 →
          ne ≤ 4096 → fld prio 2 5 = 0 → fieldOf hd 7 1 = 0 →
          ((({ w with submits := tput 0 sb (tget 0 sb s.submits + 1) w.submits }).markDirty pg).fresh.2).span space (sb + 16)
            (8 * n + 4 * ne) = (.bytes body, x) →
          let edges := (upFrom 0 ne).map (fun j => (fieldOf body (8 * n + 4 * j) 2, fieldOf body (8 * n + 4 * j + 2) 2))
          graphOk n edges = true → ∃ t y, s.submit sb space d idx floor = some t ∧ t.stories = x.stories ++ [y] ∧
            y.va = BitVec.ofNat 64 sb ∧ y.nth = tget 0 sb s.submits + 1 ∧ y.cls = cls ∧ y.queued = true ∧ y.edges = edges ∧
            y.slates = (upFrom 0 n).map (fun i => BitVec.ofNat 64 (fieldOf body (8 * i) 8)) ∧
            y.launches = List.replicate n .waiting ∧ y.done = done ∧ y.d = d ∧ y.dIdx = idx))) ∧
    (∀ (y : Story) idx,
      let sl := (y.slates.getD idx 0).toNat
      (∀ u, s.span y.space sl 384 = (.fault, u) → checkSlate y idx s = (.fault 0x0E 0, u)) ∧
      (∀ b u, s.span y.space sl 384 = (.bytes b, u) → fieldOf b 0 2 ≠ 1 → checkSlate y idx s = (.fault 0x01 0, u)) ∧
      (s.story? y.id = some y → s.acceptable y idx = false ∨ s.unitBusy = true → exec (.launchAccept y.id idx) s = .next s) ∧
      (s.story? y.id = some y → s.acceptable y idx = true → s.unitBusy = false →
        (∀ r u, checkSlate y idx s = (.pass r, u) → ∃ t, exec (.launchAccept y.id idx) s = .next t ∧
          t.runs = u.runs ++ [{ r with id := u.nextId, go := decide (y.d ≤ 1) }] ∧
          (∀ z ∈ u.stories, z.id = y.id → ∃ z' ∈ t.stories, z'.id = y.id ∧ z'.queued = false ∧
            z'.launches = z.launches.set idx (.accepted u.nextId)) ∧
          (1 < y.d → t.sentTo (u.rootPeer r) (.pass (agreeMsg y idx 0 0)))) ∧
        (∀ code level u z, checkSlate y idx s = (.fault code level, u) → u.story? y.id = some z → idx < z.launches.length →
          ∃ t, exec (.launchAccept y.id idx) s = .next t ∧
            (y.d ≤ 1 → ∃ z', t.story? y.id = some z' ∧ z'.launches[idx]? = some (.faulted code level)) ∧
            (1 < y.d → t.sentTo ((u.storyPeers y.id y.d y.dIdx).headD u.peerid) (.pass (agreeMsg y idx code level)))))) ∧
    (∀ ls es k lo f l, ls[k]? = some l →
      (l.extent = 0 → levelFault ls es k lo (f + 1) = some (0x03, k)) ∧
      (0 < l.extent → 32 < l.width ∨ 2 ^ l.width < l.extent ∨ 64 < lo + l.width →
        levelFault ls es k lo (f + 1) = some (0x04, k)) ∧
      (0 < l.extent → l.width ≤ 32 → l.extent ≤ 2 ^ l.width → lo + l.width ≤ 64 → 8 < l.bind →
        levelFault ls es k lo (f + 1) = some (0x05, k))) ∧
    (∀ (m : Agree) (y : Story), s.storyOf m.sb m.nth = some y →
      let same (a : Agree) : Bool := a.sb == m.sb && a.nth == m.nth && a.idx == m.idx &&
        (a.code == endedCode) == (m.code == endedCode)
      let agreed := s.agreed.filter (fun a => !(same a && a.dev == m.dev)) ++ [m]
      let reps := agreed.filter same
      let tells (i : Instr) : Prop := ∃ t, exec (.pass m) s = .next t ∧ ∀ p ∈ s.launchPeers y m.idx, t.sentTo p i
      (m.code < lostCode → reps.length < y.d → ∃ t, exec (.pass m) s = .next t ∧ t.agreed = agreed) ∧
      (m.code < lostCode → y.d ≤ reps.length →
        (m.code = endedCode → tells (.go m)) ∧
        (m.code ≠ endedCode → verdictOf reps = none → tells (.go m)) ∧
        (∀ f, m.code ≠ endedCode → verdictOf reps = some f → tells (.fault f) ∧ ((∃ a ∈ reps, a.code ≠ 0) →
          f ∈ reps ∧ f.code ≠ 0 ∧ ∀ a ∈ reps, a.code ≠ 0 → f.dev ≤ a.dev))) ∧
      (s.story? y.id = some y → m.idx < y.launches.length → (y.launches.getD m.idx .skipped).final = false →
        ∃ t z, exec (.fault m) s = .next t ∧ t.story? y.id = some z ∧ z.launches[m.idx]? = some (.faulted m.code m.level))) ∧
    (∀ m : Agree, lostCode ≤ m.code → ∃ t, exec (.pass m) s = .next t ∧
      s.logs t 0x13 false (m.code - lostCode) { s.noCtx with peer := m.check.toNat } m.slate.toNat (2 ^ 16 * m.dev) m.sb.toNat) ∧
    (∀ (m : Agree) r, s.runNamed { sb := m.sb, nth := m.nth, idx := m.idx } = some r → r.aborted = false →
      ∃ t, exec (.go m) s = .next t ∧ t.run? r.id = some (if m.code = endedCode then { r with allEnded := true } else { r with go := true })) ∧
    (∀ (m : AbortMsg) y, s.storyOf m.sb m.nth = some y →
      (∃ t, exec (.abortReport m) s = .next t ∧ ∀ p ∈ s.launchPeers y m.idx, t.sentTo p (.abort m)) ∧
      (∀ r, s.runOfMsg y.va y.nth m.idx = some r → ∃ t, exec (.abort m) s = .next t ∧
        (∀ q ∈ t.runs, q.id = r.id → q.aborted = true ∧ q.places = []) ∧
        ∀ n ∈ s.coresOf r.id, (t.core n).task = none)) ∧
    (∀ w v, ∃ t, exec (.labort w v) s = .next t ∧ ∀ y ∈ s.stories, y.va.toNat = fld v.toNat 6 51 * 64 → y.finished = false →
      s.story? y.id = some y → s.storyOf y.va y.nth = some y →
      ∃ z, t.story? y.id = some z ∧ z.queued = false ∧ z.launches.all LaunchState.final = true) ∧
    (∀ r y, s.run? r.id = some r → s.story? r.sb = some y →
      (s.shareEnded r = false → exec (.launchRetire r.id) s = .next s) ∧
      (s.shareEnded r = true → 1 < r.d → r.allEnded = false → r.reported = false → ∃ t, exec (.launchRetire r.id) s = .next t ∧
        t.run? r.id = some { r with reported := true } ∧ t.sentTo (s.rootPeer r) (.pass (agreeMsg y r.idx endedCode 0))) ∧
      (s.shareEnded r = true → r.d ≤ 1 ∨ r.allEnded = true → r.idx < y.launches.length →
        ∃ t z, exec (.launchRetire r.id) s = .next t ∧ t.run? r.id = some { r with retired := true, preempted := false } ∧
          t.story? y.id = some z ∧ z.launches[r.idx]? = some .retired)) ∧
    (∀ (h : Hdr) (i j : BitVec 6) (scope : BitVec 5) r k, s.issues (.wloc h (.g i) (.g j) scope) →
      s.serves ((dstNeeds s.cur.x (.g i)).and (srcNeeds s.cur.x (.g j))) → s.runOf s.cur.core = some r → s.me.task = some k →
      let ls := r.levels
      let l := scope.toNat
      let w := (s.take (.g j)).1.toNat
      let legal : Prop := l < 16 ∧ (∃ lv, ls[l]? = some lv ∧ lv.co = true) ∧ w < 2 ^ loOf ls ls.length ∧
        (∀ e, e < ls.length → coordOf ls w e < extOf ls e ∧ (l < e → coordOf ls w e = coordOf ls k.wid.toNat e)) ∧
        deviceIndex ls w % r.d = r.dIdx
      (¬legal → exec (.wloc h (.g i) (.g j) scope) s = .next (s.trapOn s.cur.core s.cur.x 0x05 0 0 l)) ∧
      (∀ n, legal → r.placeOf k w = some n → ∃ t, exec (.wloc h (.g i) (.g j) scope) s = .next t ∧ s.wentOn t h ∧
        t.gets (.g i.toNat) n ∧ s.onlyMe t ∧ s.me.sameBut t.me [.g i.toNat]))

/-! ### Binding, task ends, context areas and code loading (02 R36 to R61, 17 R379 to R389) -/

/-- 02 R36, R39, R47, R51, R60, 06 R162, 17 R380 to R389: a deal gives a chunk of groups to a place on idle cores; a group's start
leaves each of its cores with zeroed registers, absent presence bits, the constant image and the identity words, and START sets its
A-stream to the entry slot when it has reached every core; neither it nor a resumption overtakes a code store; a task that may end
leaves its core free; an overdue safe point traps; a pre-emption request asks every task of the victim; a launch whose tasks all
wait at safe points is saved in the lowest free context area and its units are freed; a saved launch comes back with its registers
and its START; a code store reaches an idle core only, and CLDCTL.GO starts a load unless a task is resident or saved. The reading
of R39 and R51 for levels that no binding names and for a unit that one group only in part fills, the turns of one class and what a
save writes of unmarked registers are the model's choices (notes/assumptions/44 to 46, 82). -/
def Obligations.BinderAndSaveResults : Prop :=
  ∀ s : State,
    (∀ r cores free, s.run? r.id = some r →
      let busy := s.busyCores
      let legal : Prop := s.dealable r = true ∧
        (∀ n ∈ cores, s.ownCore n = true ∧ isHub n = false ∧ tget false n r.excl = false ∧ n ∉ busy ∧ r.inPlace n = false ∧
          r.pinned n = false) ∧
        r.fitsOn r.dealt cores = true ∧ free = s.freePlaces r (r.barred busy) ∧ s.turnOf r busy = true ∧
        s.runs.any s.resumable = false
      (¬legal → exec (.deal r.id cores free) s = .next s) ∧
      (legal → ∃ t k, exec (.deal r.id cores free) s = .next t ∧ 1 ≤ k ∧ t.cores = s.cores ∧ t.run? r.id = some { r with
        dealt := r.dealt + k, turn := s.nextId, pins := r.pinsOf (r.dealt + k - 1) (cores.headD 0),
        places := r.places ++ [{ cores := cores, current := r.dealt, last := r.dealt + k - 1, started := false, live := [] }] } ∧
        ((r.levels.drop (baseOf r.levels)).any TreeLevel.ord = true → k = 1) ∧
        ((r.levels.drop (baseOf r.levels)).any TreeLevel.ord = false → wideGroup r.levels = false →
          k = max 1 ((r.groups - r.dealt + 2 * free - 1) / (2 * free))))) ∧
    (∀ r group p, s.run? r.id = some r → r.places.find? (fun p => p.current == group) = some p →
      let g := groupNo r.levels r.d r.dIdx group
      let js := localTasks r.levels r.d r.dIdx g
      let busy : Prop := p.started = true ∨ r.preempted = true ∨ r.saved.isSome = true ∨ r.aborted = true ∨
        s.load.isSome = true ∨ r.outOfOrder group = true ∨ ∃ n ∈ p.cores, (s.core n).task.isSome = true ∨
          (s.gang (gangOf n)).queue ≠ [] ∨ ∃ slot w, .codeStore n slot w ∈ s.agenda
      (busy → exec (.groupStart r.id group) s = .next s) ∧
      (¬busy → p.cores.Nodup → ∃ t, exec (.groupStart r.id group) s = .next t ∧
        (∃ q, t.run? r.id = some q ∧ q.started = r.started + 1) ∧
        ∀ e ∈ p.cores.zip js,
          let n := e.1
          let c := t.core n
          let wid := BitVec.ofNat 64 (packWid r.levels 0 (e.2 + groupTasks r.levels * g))
          let word (k : Nat) : Nat := rdLe c.lm (8 * k) 8
          (∃ k, c.task = some k ∧ k.run = r.id ∧ k.wid = wid ∧ k.group = group ∧ k.gidx = e.2 ∧ k.seq = 0 ∧ k.errc = 0 ∧
            k.take = if r.takeLv.isSome then 1 else 0) ∧
          (∀ i, c.reg (.g i) = 0 ∧ c.reg (.s i) = 0 ∧ c.reg (.v i) = 0) ∧
          (∀ i, 1 ≤ i → c.reg (.pa i) = 0 ∧ c.reg (.px i) = 0) ∧
          (∀ i, 32 ≤ i → i < 64 → c.absent (.g i) = true) ∧ (∀ i, i < 32 → c.absent (.v i) = true) ∧
          c.reg (.key 0x10) = r.seed % 2 ^ 64 ∧ c.code = (s.core n).code ∧ c.a.run = false ∧ c.x.run = false ∧
          c.svGet 0 = s.cctldef ∧ c.svGet 1 = s.tvecdef ∧ c.svGet 9 = s.spilladef ∧ c.svGet 0xA = s.spillxdef ∧
          (r.image.length = 240 → (∀ i w, r.image[i]? = some w → word i = w.toNat) ∧
            ∀ i, i < 16 → word (240 + i) = ([n, n / 8, n / 32, n / 1024, s.peerid, wid.toNat, r.args.toNat, r.seed,
              r.slate.toNat, r.d + 2 ^ 16 * r.dIdx, r.levels.length + 2 ^ 8 * r.takeLv.getD 0x1F +
              2 ^ 16 * r.gangLv.getD 0x1F + 2 ^ 32 * r.cgrp, Config.vlen].getD i 0) % 2 ^ 64) ∧
          .start { core := n, run := r.id, group := group, gidx := e.2, resume := false, xrun := false } ∈ t.agenda)) ∧
    (∀ m : StartMsg,
      let mine : Prop := ∃ k, (s.core m.core).task = some k ∧ k.run = m.run ∧ k.group = m.group ∧ k.gidx = m.gidx
      (¬mine → exec (.start m) s = .next s) ∧
      (mine → m.resume = true → ∃ t, exec (.start m) s = .next t ∧ (t.core m.core).a.run = true ∧
        (t.core m.core).x.run = m.xrun ∧ (t.core m.core).a.pc = (s.core m.core).a.pc ∧
        ∀ n, n ≠ m.core → t.core n = s.core n) ∧
      (∀ r p, mine → m.resume = false → s.run? m.run = some r → r.places.find? (fun p => p.current == m.group) = some p →
        let live := without m.core p.live ++ [m.core]
        (live.length < (r.coresFor p).length → ∃ t, exec (.start m) s = .next t ∧ t.cores = s.cores ∧ t.mem = s.mem) ∧
        ((r.coresFor p).length ≤ live.length → ∃ t, exec (.start m) s = .next t ∧
          (∀ n ∈ r.coresFor p, (t.core n).a.run = true ∧ (t.core n).a.pc = r.entry ∧ (t.core n).x.run = (s.core n).x.run) ∧
          (∀ n, n ∉ r.coresFor p → t.core n = s.core n) ∧ ∀ z ∈ t.stories, z.id = r.sb → z.t0.isSome = true))) ∧
    (∀ n, (s.mayEnd n = false → exec (.taskEnd n) s = .next s) ∧
      (∀ r k, s.mayEnd n = true → s.runOf n = some r → (s.core n).task = some k → ∃ t q, exec (.taskEnd n) s = .next t ∧
        (t.core n).task = none ∧ (t.core n).level = .t ∧ (t.core n).a.run = false ∧ (t.core n).inbox = [] ∧
        t.run? r.id = some q ∧ q.endedTasks = r.endedTasks ++ [k.wid])) ∧
    (∀ n, (s.overdue n = false ∨ (s.core n).mayIssue false = false → exec (.safepointOverdue n) s = .next s) ∧
      (s.overdue n = true → (s.core n).mayIssue false = true → isHub n = false →
        ∃ t, exec (.safepointOverdue n) s = .next t ∧ (t.core n).level = .s ∧ (t.core n).svGet 4 = 0x0C ∧
          (t.core n).svGet 2 = BitVec.ofNat 64 (s.core n).a.pc ∧ t.mem = s.mem)) ∧
    (∀ cls v, s.run? v.id = some v →
      let legal : Prop := bitAt s.lctl.toNat 4 = true ∧
        (∃ r ∈ s.runs, r.cls = cls ∧ s.dealable r = true ∧ s.placeable r s.busyCores = false ∧ (∃ w ∈ s.victims r, w.id = v.id) ∧
          ∀ w ∈ s.victims r, w.cls < v.cls ∨ (w.cls = v.cls ∧ w.startAt ≤ v.startAt)) ∧
        s.areasUsed < fld s.ctx.toNat 0 3 ∧ (∀ q ∈ s.runs, q.preempted = false ∧ s.resumable q = false)
      (¬legal → exec (.preemptionRequest v.id cls) s = .next s) ∧
      (legal → ∃ t, exec (.preemptionRequest v.id cls) s = .next t ∧ t.run? v.id = some { v with preempted := true } ∧
        ∀ n ∈ s.coresOf v.id, ∀ k, (t.core n).task = some k → k.preempt = true)) ∧
    (∀ r area, s.run? r.id = some r → s.freeArea = some area →
      let legal : Prop := r.preempted = true ∧ r.aborted = false ∧ (∀ n ∈ s.coresOf r.id, s.quietCore n = true) ∧
        s.phasesOver r = true
      (¬legal → exec (.contextSave r.id) s = .next s) ∧
      (legal → ∃ t tasks, exec (.contextSave r.id) s = .next t ∧
        t.run? r.id = some { r with saved := some (area, tasks), preempted := false } ∧
        (∀ n ∈ s.coresOf r.id, (t.core n).task = none) ∧
        (∀ e ∈ tasks, e.1 ∈ s.coresOf r.id ∧ ∃ k, (s.core e.1).task = some k ∧ e.2 = { k with kept := e.2.kept }) ∧
        (∀ n k, s.coresOf r.id = [n] → (s.core n).task = some k → Memory.wf s →
          let c := (s.core n).settle ((s.core n).cyc + 2 ^ 16)
          ∀ i, i < 64 → t.memRd (s.contextSlot area n + 0x200 + 8 * i) 8 =
            if c.savesG k.masks.1 i then (tget 0 i c.g).toNat else 0))) ∧
    (∀ r area tasks, s.run? r.id = some r → r.saved = some (area, tasks) →
      let ready : Prop := s.resumable r = true ∧ s.codeComing (tasks.map Prod.fst) = false ∧
        ∀ n ∈ tasks.map Prod.fst, (s.gang (gangOf n)).queue = []
      (¬ready → exec (.resumption r.id) s = .next s) ∧
      (ready → (tasks.map Prod.fst).Nodup → ∃ t, exec (.resumption r.id) s = .next t ∧
        t.run? r.id = some { r with saved := none } ∧ t.mem = s.mem ∧
        ∀ e ∈ tasks,
          let a := s.contextSlot area e.1
          let c := t.core e.1
          c.task.isSome = true ∧ c.code = (s.core e.1).code ∧ c.a.pc = fld (s.memRd a 8) 0 12 ∧
          c.x.pc = fld (s.memRd a 8) 12 12 ∧ (∀ i, i < 64 → c.reg (.g i) = s.memRd (a + 0x200 + 8 * i) 8) ∧
          (∀ i, i < 16 → c.reg (.s i) = s.memRd (a + 0x400 + 8 * i) 8) ∧
          (∀ i, i < 32 → (c.absent (.g (32 + i)) = true ↔ bitAt (s.memRd (a + 0x20) 8) i = false)) ∧
          .start { core := e.1, run := r.id, group := e.2.group, gidx := e.2.gidx, resume := true,
                   xrun := bitAt (s.memRd a 8) 24 } ∈ t.agenda)) ∧
    (∀ n slot w, s.codeComing [n] = true → exec (.codeStore n slot (w, true)) s = .next s) ∧
    (∀ n slot w load, (load = true → s.codeComing [n] = false) →
      ((s.core n).codeIdle = true → ∃ t, exec (.codeStore n slot (w, load)) s = .next t ∧
        tget 0 slot (t.core n).code = BitVec.ofNat 96 w ∧ (∀ k, k ≠ slot → tget 0 k (t.core n).code = tget 0 k (s.core n).code) ∧
        (∀ m, m ≠ n → t.core m = s.core m) ∧ t.mem = s.mem) ∧
      ((s.core n).codeIdle = false → ∃ t, exec (.codeStore n slot (w, load)) s = .next t ∧ t.cores = s.cores ∧
        s.logs t 0x07 true 0 s.noCtx 0 slot 0) ∧
      (∃ t, exec (.codeStore n slot (w, load)) s = .next t ∧ (load = false → t.load = s.load) ∧
        ∀ l, load = true → s.load = some l → slot = l.first + tget 0 n l.left → tget 0 n l.left < l.count →
          t.load = some { l with left := tput 0 n (tget 0 n l.left + 1) l.left })) ∧
    (∀ l, s.load = some l →
      let all : Prop := l.count = 0 ∨ (l.left.length = 1024 * 2 ^ s.partLog ∧ ∀ e ∈ l.left, e.2 = l.count)
      ∃ t, exec .codeLoadComplete s = .next t ∧ (all → t = { s with load := none }) ∧ (¬all → t = s)) ∧
    (∀ w v, let first := fld v.toNat 0 12
      let count := fld v.toNat 12 13
      let a := s.cldsrc.toNat
      let bad : Prop := s.load.isSome = true ∨ 4096 < first + count ∨ count = 0 ∨ s.anyTask = true
      (bitAt v.toNat 25 = false → exec (.cldctlGo w v) s = .next { s with cldctl := keepBits v 0 25 }) ∧
      (bitAt v.toNat 25 = true → bad → exec (.cldctlGo w v) s = .next (s.svDiscard w 0x211 v.toNat)) ∧
      (bitAt v.toNat 25 = true → ¬bad → ∃ t l, exec (.cldctlGo w v) s = .next t ∧ t.load = some l ∧ l.first = first ∧
        l.count = l.words.length ∧ l.count ≤ count ∧ t.cldctl = keepBits v 0 25 ∧
        ((∀ i, i < 12 * count → s.assigned (a + i) = true ∧ tget false ((a + i) / 8) s.bad = false) →
          l.words = (upFrom 0 count).map (fun i => s.memRd (a + 12 * i) 12))))

/-! ### Device registers and the debugger (16 R359, R370 to R374, 17 R378, R390, R391, 19 R415 to R426) -/

/-- 00 R7, 16 R359, R371 to R374, 17 R378, R390, R391, 19 R415, R420 to R422, R426, 08 R216, 13 R341: a write of a device
register keeps the RW fields of the value and no others and leaves the other registers; some writes count only under a condition
or are recorded as discarded while a task is resident; RS registers read and clear; XCL reads its bitmap; QCCLR clears one
counter; MBPOST puts 64 bytes into a core's mailbox, kind 2; the debugger halts, resumes and steps the streams of the selected
core, reads and writes the registers of a halted one and its code; an island runs at the lower of SET and CAP; REELCTL.GO starts
a reel only with every task at the held, closed cut, and its end says so; an error class whose bit is set in ERRTRAP traps at the
next boundary. Which discarded writes are recorded, what a DBG descriptor of class 011 selects, when ERROR_CLASS waits and which reel
descriptors are refused are the model's choices (notes/assumptions/34 to 36, 68). -/
def Obligations.RegisterAndDebugEventResults : Prop :=
  ∀ (s : State) (w : Writer) (v : Word),
    (∀ e ∈ ([(0x103, 0xFFFFFFFF), (0x104, 0xF), (0x108, 1), (0x114, 0xFFFFFFFF), (0x130, 0x1FFFFFFFFFFFFC0),
        (0x201, 0xFFFF1FFF1FFF), (0x203, 0x1F), (0x210, 0x1FFFFFFFFFC0), (0x220, 0x7FFF), (0x223, 1), (0x224, 0xFFFFFFF),
        (0x240, 0x1FFFFFFFF000), (0x271, 0x3F), (0x280, 0x3FF), (0x2E0, 0x1FFFFFFFFFC0), (0x2FA, 0x1FFF00000000)] :
        List (Nat × Word)),
      ∃ t, exec (.registerWrite w e.1 v) s = .next t ∧ t.regValue e.1 = (v &&& e.2).toNat ∧
        (∀ k, k ≠ e.1 → k ∉ [0x222, 0x225, 0x272, 0x281] → t.regValue k = s.regValue k) ∧ t.cores = s.cores ∧ t.mem = s.mem) ∧
    (∀ i, i < 16 → ∃ t, exec (.registerWrite w (0x120 + i) v) s = .next t ∧ t.regValue (0x120 + i) = (v &&& 0x1FFF).toNat ∧
      ∀ k, k < 16 → k ≠ i → t.regValue (0x120 + k) = s.regValue (0x120 + k)) ∧
    (∀ e ∈ ([(0x260, 0xFFF), (0x261, 0xFFFFFFFFFFFFFFFF), (0x268, 0x1FFFFFFFFFF0), (0x270, 0x1FFFFFFFF001)] : List (Nat × Word)),
      (s.anyTask = true → exec (.registerWrite w e.1 v) s = .next (s.svDiscard w e.1 v.toNat)) ∧
      (s.anyTask = false → ∃ t, exec (.registerWrite w e.1 v) s = .next t ∧ t.regValue e.1 = (v &&& e.2).toNat)) ∧
    (let errs (n : Nat) (ok : Prop) (x : Nat) : Prop := ∃ t, exec (.registerWrite w n v) s = .next t ∧
       (ok → t.regValue n = x) ∧ (¬ok → t = s)
     let f := fld v.toNat
     errs 0x100 (s.errhead = s.errtail) (f 12 33 * 2 ^ 12) ∧
     errs 0x101 (s.errhead = s.errtail ∧ 6 ≤ f 0 5 ∧ f 0 5 ≤ 20) (f 0 5) ∧ errs 0x109 (0xF00 ≤ f 0 12) (f 0 12) ∧
     errs 0x241 (f 0 17 ≤ 65536) (f 0 17) ∧
     errs 0x10A (f 0 16 % 8 = 0 ∧ 0x800 ≤ f 0 16 ∧ f 0 16 + 8 * f 16 16 ≤ 65536) (f 0 32) ∧
     errs 0x10B (f 0 16 % 8 = 0 ∧ 0x800 ≤ f 0 16 ∧ f 0 16 + 8 * f 16 16 ≤ 65536) (f 0 32)) ∧
    (∃ t, exec (.registerWrite w 0x250 v) s = .next t ∧ t.tflog1 = s.tflog1 ∧ t.tflog2 = s.tflog2 ∧ t.tflog3 = s.tflog3 ∧
      ∀ i, i < 64 → t.tflog0.getLsbD i = (s.tflog0.getLsbD i && !(i == 15 && v.getLsbD 15))) ∧
    (∃ t, exec (.registerWrite w 0x2F1 v) s = .next t ∧ ∀ i, i < 4 →
      t.intpend.getLsbD i = (s.intpend.getLsbD i && !v.getLsbD i)) ∧
    (∃ t, exec (.cuthold w v) s = .next t ∧ (s.reel.isSome = true → t = s) ∧
      (s.reel = none → t.cuthold = v &&& 0x1FFFFFFFF ∧ t.cores = s.cores ∧ t.mem = s.mem)) ∧
    (∃ t, exec (.xcl w v) s = .next t ∧ t.xcl = v &&& 0x1FFFFFFFF001 ∧ (v.getLsbD 0 = false → t.excl = []) ∧
      (v.getLsbD 0 = true → s.badIn (fld v.toNat 12 33 * 2 ^ 12) 4096 = false → ∀ k, k < 32768 →
        tget false k t.excl = (tget 0 (fld v.toNat 12 33 * 2 ^ 12 + k / 8) s.mem).getLsbD (k % 8))) ∧
    (∃ t, exec (.errsw w v) s = .next t ∧ t.cores = s.cores ∧
      (∀ n, w = .core n → s.logs t 0x14 false 0 (s.ctxOf n) ((s.core n).svGet 2).toNat v.toNat ((s.core n).svGet 4).toNat) ∧
      (w = .host → s.logs t 0x14 false 0 s.noCtx 0 v.toNat 0)) ∧
    (let reads (i : Instr) (n : Nat) (t : State) : Prop := exec i s = .next t ∧
       t.hostOut = s.hostOut ++ [.value n (BitVec.ofNat 64 (s.regValue n))] ∧ t.cores = s.cores ∧ t.mem = s.mem
     (∃ t, reads .errcorr 0x105 t ∧ t.regValue 0x105 = 0) ∧ (∃ t, reads .errlost 0x107 t ∧ t.errlost = 0) ∧
     ∃ t, reads .portstat 0x272 t ∧ (tget Port.down s.portsel t.ports).retry = 0) ∧
    (∃ t, exec (.qcclr w v) s = .next t ∧ tget 0 (fld v.toNat 0 10) t.trig = 0 ∧ t.cores = s.cores ∧ t.mem = s.mem ∧
      ∀ k, k ≠ fld v.toNat 0 10 → tget 0 k t.trig = tget 0 k s.trig) ∧
    (let n := fld v.toNat 49 15
     let a := fld v.toNat 6 39 * 64
     let c := s.core n
     (s.ownCore n = false → exec (.mbpost w v) s = .next (s.svDiscard w 0x2F8 v.toNat)) ∧
     (s.ownCore n = true → 16 ≤ c.mail.length ∨ c.heldMail ≠ [] → exec (.mbpost w v) s = .next s) ∧
     (s.ownCore n = true → c.mail.length < 16 → c.heldMail = [] → s.badIn a 64 = false → ∃ t ws, exec (.mbpost w v) s = .next t ∧
       (t.core n).mail = c.mail ++ [ws] ∧ ws.length = 8 ∧ (ws.getD 0 0).toNat = s.memRd a 8 / 256 * 256 + 2 ∧
       ∀ k, 1 ≤ k → k < 8 → (ws.getD k 0).toNat = s.memRd (a + 8 * k) 8)) ∧
    (let n := s.dbgsel.toNat
     let c := s.core n
     ∀ a x : Bool,
       (s.ownCore n = false → ∀ i ∈ [Instr.debugHalt a x, .debugResume a x, .debugStep a x], exec i s = .next s) ∧
       (s.ownCore n = true →
         (∃ t, exec (.debugHalt a x) s = .next t ∧ (t.core n).a.halted = (a || c.a.halted) ∧
           (t.core n).x.halted = (x || c.x.halted) ∧ (∀ m, m ≠ n → t.core m = s.core m) ∧ (t.core n).a.pc = c.a.pc) ∧
         (∃ t, exec (.debugResume a x) s = .next t ∧ (t.core n).a.halted = (!a && c.a.halted) ∧
           (t.core n).x.halted = (!x && c.x.halted) ∧ ∀ m, m ≠ n → t.core m = s.core m) ∧
         (∃ t, exec (.debugStep a x) s = .next t ∧ (t.core n).a.halted = (!a && c.a.halted) ∧
           (a = true → c.a.halted = true → (t.core n).a.stepping = true) ∧
           (x = true → c.x.halted = true → (t.core n).x.stepping = true) ∧ ∀ m, m ≠ n → t.core m = s.core m))) ∧
    (let n := s.dbgsel.toNat
     let c := s.core n
     let d := s.dbgrsel.toNat
     let x := bitAt d 27
     let k := fld d 22 5
     let stands : Prop := (c.stream x).halted = true
     let acc := (s.gang (gangOf n)).acc
     (fld d 19 3 = 0 → s.dbgReg = if x then none else some (.reg (.g (fld d 0 6)))) ∧
     (fld d 19 3 = 1 → s.dbgReg = if x then some (.reg (.v (fld d 0 5))) else none) ∧
     (fld d 19 3 = 2 → s.dbgReg = some (.reg (if x then .px (fld d 0 4) else .pa (fld d 0 4)))) ∧
     ∃ t, exec (.dbgdata w v) s = .next t ∧ t.mem = s.mem ∧ (¬stands → t = s) ∧ (s.dbgReg = none → t = s) ∧
       ∀ p, s.dbgReg = some p → (p.words ≤ k → t = s) ∧ (stands → k < p.words →
         (∀ r, p = .reg r → r ≠ .px 0 → (∀ i, r ≠ .pa i) → fld ((t.core n).reg r) (64 * k) 64 = v.toNat ∧
           ∀ j, j ≠ k → fld ((t.core n).reg r) (64 * j) 64 = fld (c.reg r) (64 * j) 64) ∧
         (∀ i, p = .reg (.pa i) → i ≠ 0 → (t.core n).reg (.pa i) = v.toNat % 2) ∧
         (∀ b, p = .row b → rdLe (t.core n).t (b + 8 * k) 8 = v.toNat ∧
           ∀ j, j < b + 8 * k ∨ b + 8 * k + 8 ≤ j → tget 0 j (t.core n).t = tget 0 j c.t) ∧
         (∀ e, p = .acc e → tget 0 e (t.gang (gangOf n)).acc = BitVec.ofNat 32 v.toNat ∧
           ∀ j, j ≠ e → tget 0 j (t.gang (gangOf n)).acc = tget 0 j acc))) ∧
    (let i := fld v.toNat 32 2
     ∃ t, exec (.dbgiw w v) s = .next t ∧ (i = 3 → t = s) ∧
       (i ≠ 3 → tget 0 i t.dbgiw = BitVec.ofNat 64 (fld v.toNat 0 32) ∧ ∀ k, k ≠ i → tget 0 k t.dbgiw = tget 0 k s.dbgiw) ∧
       (i < 2 → t.agenda = s.agenda) ∧
       (i = 2 → t.agenda = s.agenda ++ [.codeStore s.dbgsel.toNat (fld v.toNat 34 12) ((tget 0 0 s.dbgiw).toNat +
         2 ^ 32 * (tget 0 1 s.dbgiw).toNat + 2 ^ 64 * fld v.toNat 0 32, false)])) ∧
    (let f := fld v.toNat 0 11
     let cap := tget 1800 s.islsel s.islcap
     let legal : Prop := s.ownCluster s.islsel = true ∧ 800 ≤ f ∧ f ≤ 1800 ∧ f % 25 = 0
     (¬legal → exec (.islfreq w v) s = .next s) ∧
     (legal → ∃ t, exec (.islfreq w v) s = .next t ∧
       t.islfreqOf s.islsel = f + 2 ^ 16 * cap + 2 ^ 32 * min f cap ∧ t.cores = s.cores)) ∧
    (∀ cl mhz, (s.ownCluster cl = false → exec (.islandCapChange cl mhz) s = .next s) ∧
      (s.ownCluster cl = true → ∃ t, exec (.islandCapChange cl mhz) s = .next t ∧
        let set := tget 1600 cl s.islset
        t.islfreqOf cl = set + 2 ^ 16 * (mhz % 2 ^ 11) + 2 ^ 32 * min set (mhz % 2 ^ 11))) ∧
    (let a := s.reeldesc.toNat
     let free : Prop := s.reel = none ∧ (∀ e ∈ s.cores, ∀ k, e.2.task = some k → s.atHeldCut e.1 k = true) ∧
       ∀ r ∈ s.runs, ∀ p, r.saved = some p → ∀ e ∈ p.2, s.savedAtCut r e.2 = true
     (v.getLsbD 0 = false → exec (.reelctlGo w v) s = .next s) ∧
     (v.getLsbD 0 = true → ¬free → exec (.reelctlGo w v) s = .next { s with reelst := 3 }) ∧
     (∀ hd u bs y z, v.getLsbD 0 = true → free → (s.touch a).rawBytes 5 0 0 a 16 = (hd, u) →
       let n := fieldOf hd 2 2
       let dest := fieldOf hd 8 8
       (u.touch (a + 16)).rawBytes 5 0 0 (a + 16) (16 * n) = (bs, y) → fieldOf hd 0 2 = 1 → 1 ≤ n → n ≤ 1024 →
       fieldOf hd 6 2 = 0 → dest % 4096 = 0 → dest < 2 ^ 57 → dest / 2 ^ 45 ≠ u.peerid →
       let rs := (upFrom 0 n).map (fun i => (fieldOf bs (16 * i) 8, fieldOf bs (16 * i + 8) 8))
       (∀ r ∈ rs, r.1 % 4096 = 0 ∧ r.2 % 4096 = 0) → regionsRead (y.unitAsker (fieldOf hd 4 2)) rs y = (some true, z) →
       ∃ t, exec (.reelctlGo w v) s = .next t ∧ t.reelst = 0 ∧
         t.reel = some { dest := dest, regions := rs, space := fieldOf hd 4 2 })) ∧
    ((s.reel = none → exec .reelEnd s = .next s) ∧
     ∀ r data drops u, s.reel = some r →
       let start := (64 + 24 * s.reelTasks.length + 4095) / 4096 * 4096
       let pages := r.regions.flatMap (fun p => (upFrom 0 (p.2 / 4096)).map (fun i => p.1 + 4096 * i))
       reelPages (s.unitAsker r.space) pages start [] 0 s = some (data, drops, u) →
       ∃ t body, exec .reelEnd s = .next t ∧ t.reel = none ∧ t.reelst = (if drops = 0 then 1 else 2) ∧
         t.intpend.getLsbD 2 = true ∧ HostOut.reel r.dest (start + 4096 * pages.length) body ∈ t.hostOut ∧
         rdLe body 0 2 = 1 ∧ rdLe body 2 2 = r.regions.length % 2 ^ 16 ∧
         rdLe body 4 4 = fld u.cuthold.toNat 0 32) ∧
    (∀ n, (s.errorDue n = none → exec (.errorClass n) s = .next s) ∧
      (∀ cls seq, s.errorDue n = some (cls, seq) → isHub n = false → ∃ t, exec (.errorClass n) s = .next t ∧
        (t.core n).level = .s ∧ (t.core n).svGet 4 = BitVec.ofNat 64 (0x25 + 2 ^ 16 * (cls % 2 ^ 16)) ∧
        (t.core n).svGet 5 = BitVec.ofNat 64 seq ∧ (t.core n).svGet 2 = BitVec.ofNat 64 (s.core n).a.pc ∧
        (∀ k, (s.core n).task = some k → ∃ q, (t.core n).task = some q ∧ q.errTraps = k.errTraps.tail) ∧ t.mem = s.mem))

/-! ### Errors, links, the host and resets (16 R370, 19 R415 to R429) -/

/-- 16 R370, 19 R415, R418, R423 to R429: a corrected error is counted with saturation; an uncorrectable error in an SRAM is
recorded and aborts the launch of the core; a packet retried is counted, one dropped recorded; a port is up with four lanes; an
unacknowledged control message goes out again on the next usable port, or is lost with a record and its launch aborted; the host
window reads and writes memory at its home. A management request whose digest checks is answered: STATUS, ERRREAD, FLASHWR into
the inactive image region, FLASHSEL, RESET, MSG; its reply echoes the sequence number. Stage 4 trains the stacks and excludes the
cores of a die whose stack fails; which fail is a free value. A module reset loses everything but the flash; a partition reset
restarts bring-up at stage 3. What a damaged structure holds, the readings and digests, the forms of replies, what a reset does with
messages in flight, how a lost control message is recorded and the window's end are the model's choices (notes/assumptions/4, 39, 48,
63 to 67, 83). -/
def Obligations.ErrorLinkAndResetResults : Prop :=
  ∀ s : State,
    (∀ k (line : Option (Nat × Nat)),
      let counts (t : State) : Prop := tget 0 k t.errcorr = min (tget 0 k s.errcorr + 1) 0xFFFF ∧
        ∀ j, j ≠ k → tget 0 j t.errcorr = tget 0 j s.errcorr
      (3 ≤ k → exec (.errorCorrected (k, line)) s = .next s) ∧
      (k < 3 → k ≠ 1 ∨ line = none → ∃ t, exec (.errorCorrected (k, line)) s = .next t ∧ t = { s with errcorr := t.errcorr } ∧
        counts t) ∧
      (∀ cl pa, k = 1 → line = some (cl, pa) →
        let clean : Prop := ∃ l, s.lineAt cl pa = some l ∧ l.dirty = 0
        (¬clean → exec (.errorCorrected (k, line)) s = .next s) ∧
        (clean → ∃ t, exec (.errorCorrected (k, line)) s = .next t ∧ counts t ∧ t.lineAt cl pa = none ∧ t.mem = s.mem ∧
          t.cores = s.cores))) ∧
    (∀ n kind i,
      let legal : Prop := s.ownCore n = true ∧ isHub n = false ∧ kind ≤ 6
      (¬legal → exec (.sramUncorrectable n kind i) s = .next s) ∧
      (legal → ∃ t, exec (.sramUncorrectable n kind i) s = .next t ∧ s.logs t 0x12 false kind (s.ctxOf n) 0 i 0 ∧
        (∀ m, m ≠ n → t.core m = s.core m) ∧ (t.core n).task = (s.core n).task ∧
        ∀ r y, s.runOf n = some r → s.story? r.sb = some y →
          let m : AbortMsg := { sb := y.va, nth := y.nth, idx := r.idx }
          (r.d ≤ 1 → .abort m ∈ t.agenda) ∧ (1 < r.d → t.sentTo (t.rootPeer r) (.abortReport m)))) ∧
    (∀ port,
      (∃ t, exec (.linkRetry port none) s = .next t ∧ tget 0 2 t.errcorr = min (tget 0 2 s.errcorr + 1) 0xFFFF ∧
        t.cores = s.cores ∧ t.mem = s.mem ∧
        (tget Port.down port t.ports).retry = if port < 40 then min ((tget Port.down port s.ports).retry + 1) 0xFFFF
          else (tget Port.down port s.ports).retry) ∧
      (∀ d, ∃ t, exec (.linkRetry port (some d)) s = .next t ∧ t.cores = s.cores ∧
        s.logs t 0x02 true (if port < 40 then port else 0xFFFF) d.ctx d.va (d.peer % 2 ^ 12) d.cls) ∧
      ∀ lanes up, ∃ t, exec (.portUpChange port lanes up) s = .next t ∧ (40 ≤ port → t = s) ∧
        (∀ p, p ≠ port → tget Port.down p t.ports = tget Port.down p s.ports) ∧
        (port < 40 → (tget Port.down port t.ports).up = (up && lanes % 16 == 15) ∧
          (tget Port.down port t.ports).lanes = lanes % 16 ∧
          (tget Port.down port t.ports).retry = (tget Port.down port s.ports).retry)) ∧
    (∀ id, (s.ctl.find? (fun m => m.id == id) = none → exec (.controlMessageResend id) s = .next s) ∧
      ∀ m, s.ctl.find? (fun m => m.id == id) = some m →
        let near : Prop := s.nearPeer m.peer = true
        let next := (s.usablePorts m.peer).find? (fun p => !m.tried.contains p)
        let copy (t : State) (way : Way) : Prop :=
          t.outbox = s.outbox ++ [{ peer := m.peer, way := some way, num := some m.num, low := s.lowOf m.peer, msg := m.msg }]
        (near → ∃ t, exec (.controlMessageResend id) s = .next t ∧ copy t (.part (fld (s.routeWord m.peer) 2 5)) ∧ t.ctl = s.ctl) ∧
        (∀ p, ¬near → next = some p → ∃ t, exec (.controlMessageResend id) s = .next t ∧ copy t (.port p) ∧
          { m with tried := m.tried ++ [p] } ∈ t.ctl) ∧
        (¬near → next = none → s.ctlLaunch m.msg = none → ∃ t, exec (.controlMessageResend id) s = .next t ∧
          t.ctl = s.ctl.filter (fun q => q.id != id) ∧
          s.logs t 0x02 true (m.tried.getLast?.getD 0xFFFF) s.noCtx 0 m.peer 1) ∧
        (∀ y i, ¬near → next = none → s.ctlLaunch m.msg = some (y, i) → s.story? y.id = some y → s.storyOf y.va y.nth = some y →
          i < y.launches.length → ∃ t z, exec (.controlMessageResend id) s = .next t ∧ t.story? y.id = some z ∧
            (z.launches.getD i .waiting).final = true)) ∧
    (∀ off len,
      let a := fld s.hwin.toNat 32 13 * 2 ^ 32 + off
      let behind : Prop := s.covers (homeOf a) (s.vecOf Config.hubDie) = false ∨ s.engineFree Config.hubDie a = false
      (behind → ∀ data, exec (.hostWindowAccess off len data) s = .next s) ∧
      (2 ^ 32 < off + len → exec (.hostWindowAccess off len none) s = .next s) ∧
      (¬behind → off + len ≤ 2 ^ 32 → s.badIn a len = false → ∃ t, exec (.hostWindowAccess off len none) s = .next t ∧
        t.hostOut = s.hostOut ++ [.bytes off (tgets 0 a len s.mem)] ∧ t.mem = s.mem ∧ t.cores = s.cores) ∧
      (∀ bs, 2 ^ 32 < off + bs.length → exec (.hostWindowAccess off len (some bs)) s = .next s) ∧
      (∀ bs, ¬behind → off + bs.length ≤ 2 ^ 32 → s.badIn a bs.length = false →
        ∃ t, exec (.hostWindowAccess off len (some bs)) s = .next t ∧
        (∀ k, k < bs.length → tget 0 (a + k) t.mem = bs.getD k 0) ∧
        (∀ b, b < a ∨ a + bs.length ≤ b → tget 0 b t.mem = tget 0 b s.mem) ∧ t.cores = s.cores)) ∧
    (∀ q : MgmtReq,
     let ok := Config.digestOk s.drawn
     let valid : Prop := q.len ≤ 1024 ∧ forUs q.part = true
     let asks (i : Instr) : Prop := (¬valid → exec i s = .next s) ∧
       (valid → ok = false → exec i s = .next { s with drawn := s.drawn + 1 })
     let answers (i : Instr) (bs : List Byte → Prop) : Prop := asks i ∧ (valid → ok = true → ∃ t b, exec i s = .next t ∧
       t.cores = s.cores ∧ t.mem = s.mem ∧ t.hostOut = s.hostOut ++ [.reply q.seq.toNat b] ∧ bs b)
     answers (.status q) (fun b => ∃ rs, rs.length = 16 * s.dies.length ∧ b = leBytes s.devstat 8 ++ rs ++
       (s.dies.flatMap (fun d => upFrom (32 * d) 32)).flatMap (fun c => leBytes (fld (s.islfreqOf c) 32 11) 2)) ∧
     (∀ i n, answers (.errread q i n) (fun b =>
       let cap := 2 ^ s.errsize
       let left := (s.errhead + 2 ^ 32 - i % 2 ^ 32) % 2 ^ 32
       b = (upFrom 0 (if left ≤ cap then min n left else 0)).flatMap (fun k =>
         tgets 0 (s.errbase.toNat + 64 * ((i + k) % cap)) 64 s.mem))) ∧
     (∀ off data, asks (.flashwr (q, off) data) ∧ (valid → ok = true → ∃ t, exec (.flashwr (q, off) data) s = .next t ∧
       t.cores = s.cores ∧ t.mem = s.mem ∧ t.region = s.region ∧ t.hostOut = s.hostOut ++ [.reply q.seq.toNat []] ∧
       let base := 0x1000000 * (1 - s.region)
       let bs := data.take q.len
       (∀ k, k < bs.length → off + k < 0x1000000 → tget 0 (base + off + k) t.flash = bs.getD k 0) ∧
       ∀ b, b < base + off ∨ base + off + bs.length ≤ b ∨ base + 0x1000000 ≤ b → tget 0 b t.flash = tget 0 b s.flash)) ∧
     (∀ r, asks (.flashsel (q, r)) ∧ (valid → ok = true → ∃ t, exec (.flashsel (q, r)) s = .next t ∧ t.cores = s.cores ∧ t.mem = s.mem ∧
       t.flash = s.flash ∧ t.hostOut = s.hostOut ++ [.reply q.seq.toNat []] ∧
       t.nextRegion = if r < 2 ∧ Config.digestOk (s.drawn + 1) = true then r else s.nextRegion)) ∧
     (∀ data, asks (.msg (q, data)) ∧ (valid → ok = true → ∃ t, exec (.msg (q, data)) s = .next t ∧ t.cores = s.cores ∧ t.mem = s.mem ∧
       t.ngmsg = (data ++ List.replicate 64 0).take 64 ∧ t.intpend.getLsbD 3 = true ∧ .reply q.seq.toNat [] ∈ t.hostOut)) ∧
     asks (.reset q) ∧
     (valid → ok = true → ∃ t, exec (.reset q) s = .next t ∧ .reply q.seq.toNat [] ∈ t.hostOut ∧ t.isReady = false ∧ t.runs = [] ∧
       t.stories = [] ∧
       (q.part = 0x3F → t.stage = 1 ∧ t.mem = State.reset.mem ∧ t.flash = s.flash ∧ ∀ n, t.core n = Core.idle) ∧
       (q.part ≠ 0x3F → t.stage = 3 ∧ (t.core Config.welwickBase).a.run = true ∧
         (t.core Config.welwickBase).a.pc = Config.imageEntry / 16 ∧ (t.core Config.welwickBase).level = .h ∧
         (∀ n, n ≠ Config.welwickBase → t.core n = Core.idle) ∧ (s.stories = [] → (∀ r ∈ s.reqs, ∀ k, r.owner ≠ .story k) → t.mem = s.mem ∧ t.full = s.full)))) ∧
    (let t := s.enterStage 4
     t.stage = 4 ∧ t.mem = s.mem ∧ t.cores = s.cores ∧ (∀ d ∈ s.dies, ∃ i, tget false d t.failed = !Config.trains i) ∧
     (∀ n, tget false n s.excl = true → tget false n t.excl = true) ∧
     ∀ d ∈ s.dies, tget false d t.failed = true → ∀ k, k < 1024 → tget false (1024 * d + k) t.excl = true) ∧
    (∃ t, exec .moduleReset s = .next t ∧ t.stage = 1 ∧ t.isReady = false ∧ t.runs = [] ∧ t.stories = [] ∧
      t.mem = State.reset.mem ∧ t.flash = s.flash ∧ (∀ n, t.core n = Core.idle) ∧
      t.region = if Config.digestOk s.drawn then s.nextRegion else 1 - s.nextRegion)

/-! ### The cut protocol (08 R201 to R216) -/

/-- 08 R201 to R206, R209, R212, R214, R215, 13 R339: a deferred record is filed in the bank of its take and acknowledged, or
lost to its source; a device arrives once every task of its share has arrived or ended and its records are settled; the root
sends APPLY with all arrivals, each device applies its bank by the conflict rules and reports, and with all reports the root
sends DONE, which closes the cut, empties the bank and drops the lines that may hold older values. The skew timers run from the
first arrival, stand while a device is suspended, and past CUTTMO the root sends ABORT, which empties both banks and ends the
share. How records meet whose rules have different units, what a chain that ends leaves and CUT_DROP counts, what an application
waits for and drops, and what goes on after an abort are the model's choices (notes/assumptions/53 to 56), as are what becomes of
the group of an aborted launch (notes/assumptions/84) and a bank that several groups share (notes/assumptions/85). -/
def Obligations.CutProtocolResults : Prop :=
  (∀ (r : DRec) (rs : List DRec) (a z m : Nat),
     let v := (ruleValue r rs a z m).1
     let n := (ruleValue r rs a z m).2
     let w := 8 * z
     let vs := (r :: rs).map (fun q => q.unitAt a z)
     let k (x : Nat) : Int := if r.sgn = true ∨ z = 8 then toS x w else ((x % 2 ^ w : Nat) : Int)
     (r.rule = 0 → (∃ q ∈ r :: rs, (∀ p ∈ r :: rs, q.key ≤ p.key) ∧ v = q.unitAt a z) ∧ n = if rs = [] then 0 else 1) ∧
     (r.rule = 1 → (∃ q ∈ r :: rs, (∀ p ∈ r :: rs, p.key ≤ q.key) ∧ v = q.unitAt a z) ∧ n = 0) ∧
     (r.rule = 2 → v = (m + vs.sum) % 2 ^ w ∧ n = 0) ∧
     (r.rule = 3 → v = (m + vs.sum) % 2 ^ w ∧ (0 < n ↔ 8191 < ((r :: rs).map DRec.ncontrib).sum)) ∧
     (r.rule = 4 → v ∈ m :: vs ∧ (∀ x ∈ m :: vs, k x ≤ k v) ∧ n = 0) ∧
     (r.rule = 5 → v ∈ m :: vs ∧ (∀ x ∈ m :: vs, k v ≤ k x) ∧ n = 0) ∧
     (r.rule = 6 → (∀ i, v.testBit i = (m :: vs).any (fun x => x.testBit i)) ∧ n = 0) ∧
     (r.rule = 7 → (∀ i, v.testBit i = (m :: vs).all (fun x => x.testBit i)) ∧ n = 0)) ∧
  ∀ s : State,
    (∀ r : DRec,
      let size := 40 + recLen r.len
      let b := s.bank r.take
      (s.assigned r.lpa = false → ∃ t, exec (.deferredRecord r) s = .next t ∧ t.emits r.speer (.recordLost r 1) ∧
        t.mem = s.mem) ∧
      (s.assigned r.lpa = true → r.ncontrib = 0 ∨ (r.rule ≠ 3 ∧ r.ncontrib ≠ 1) →
        ∃ t, exec (.deferredRecord r) s = .next t ∧ t.emits r.speer (.recordLost r 0) ∧ t.mem = s.mem) ∧
      (s.assigned r.lpa = true → r.ncontrib ≠ 0 → r.rule = 3 ∨ r.ncontrib = 1 →
        ∃ t, exec (.deferredRecord r) s = .next t ∧ t.emits r.speer (.recordAck r.ack) ∧
          let lost (u : State) : Prop :=
            tget 0 r.group (t.bank r.take).dropped = tget 0 r.group (u.bank r.take).dropped + 1 ∧
            (t.bank r.take).recs = (u.bank r.take).recs ∧ (r.group, r.take) ∈ (t.bank r.take).short
          ((r.group, r.take) ∈ b.short → lost s) ∧
          ((r.group, r.take) ∉ b.short → (∀ u, s.fitRecord r.take size = (none, u) → lost u) ∧
            ∀ a u, s.fitRecord r.take size = (some a, u) → (t.bank r.take).recs = (u.bank r.take).recs ++ [r] ∧
              ∀ k, k < r.bytes.length → tget 0 (a + k) t.mem = r.bytes.getD k 0)) ∧
      (b.extents = [] → b.used + size ≤ s.bankSize →
        (s.fitRecord r.take size).1 = some (s.cbbase.toNat + r.take % 2 * s.bankSize + b.used)) ∧
      (b.extents = [] → s.bankSize < b.used + size → s.cbovf = 0 → s.fitRecord r.take size = (none, s))) ∧
    (∀ a : RecAck,
      let p (r : DRec) : Bool := r.swid == a.swid && r.seq == a.seq
      (s.sent.any p = false → exec (.recordAck a) s = .next s) ∧
      (∀ q, s.sent.find? p = some q → exec (.recordAck a) s = .next { s with sent := s.sent.erase q })) ∧
    (∀ (r : DRec) why,
      let p (q : DRec) : Bool := q.swid == r.swid && q.seq == r.seq && q.take == r.take
      let key := 2 * r.group + r.take % 2
      let cx : Ctx := { task := true, launch := r.launch, wid := r.swid, take := r.take, core := r.score, peer := s.peerid }
      (s.sent.any p = false → exec (.recordLost r why) s = .next s) ∧
      (∀ q, s.sent.find? p = some q → ∃ t, exec (.recordLost r why) s = .next t ∧ t.sent = s.sent.erase q ∧
        tget 0 key t.lost = tget 0 key s.lost + 1 ∧ s.logs t 0x05 true why cx r.va r.peer r.lpa)) ∧
    (∀ grp r, s.groupRun grp = some r → ∀ n,
      (n ≠ s.nextCut r.id ∨ s.groupAborting grp = true ∨ r.lastCut = true ∨ r.saved.isSome = true ∨ r.started ≠ r.groups ∨
        (∃ q ∈ s.sent, q.run = r.id ∧ q.take = n) → exec (.deviceArrived grp n) s = .next s) ∧
      (∀ c, s.cutOf r.id n = some c → n = s.nextCut r.id → s.groupAborting grp = false → r.lastCut = false → r.saved = none → r.started = r.groups →
        (∀ q ∈ s.sent, q.run = r.id → q.take ≠ n) →
        ((c.st ≠ .opened ∨ ∃ k ∈ s.coresOf r.id, k ∉ c.tasks) → exec (.deviceArrived grp n) s = .next s) ∧
        (c.st = .opened → (∀ k ∈ s.coresOf r.id, k ∈ c.tasks) → ∃ t d, exec (.deviceArrived grp n) s = .next t ∧
          t.cutOf r.id n = some d ∧ d.st = .arrived ∧
          t.sentTo (s.rootPeer r) (.arrive grp n r.dIdx ((s.coresOf r.id).isEmpty && c.tasks.isEmpty)))) ∧
      (∀ c, s.cutOf r.id n = some c → ∃ t d, exec (.apply grp n) s = .next t ∧ t.cutOf r.id n = some d ∧
        d.st = (if c.st = .arrived then .applying else c.st) ∧ t.mem = s.mem) ∧
      (∀ c, s.cutOf r.id n = some c →
        (c.st ≠ .applying ∨ s.writing r = true → exec (.applyFinished grp n) s = .next s) ∧
        (c.st = .applying → s.writing r = false → ∃ t d, exec (.applyFinished grp n) s = .next t ∧ t.cutOf r.id n = some d ∧
          d.st = .applied ∧ t.sentTo (s.rootPeer r) (.report grp n r.dIdx d.word) ∧
          (tget 0 r.cgrp (s.bank n).dropped = 0 → ∀ q qs, (s.bank n).recs.filter (fun x => x.group == r.cgrp) = q :: qs →
            (qs = [] → q.rule = 0 ∨ q.rule = 1 → s.badIn q.lpa (recLen q.len) = false → d.nconf = 0 ∧
              ∀ b, tget 0 b t.mem = if q.covers b = true then q.byteAt b else tget 0 b s.mem) ∧
            (∀ o z, z ∈ [1, 2, 4, 8] → o % z = 0 → o + z ≤ 8 → q.lpa % 8 = 0 → s.badIn q.lpa 8 = false →
              (∀ p ∈ q :: qs, p.len = 0 ∧ p.lpa = q.lpa ∧ p.unit = z ∧ p.mask = BitVec.ofNat 64 ((2 ^ z - 1) * 2 ^ o)) →
              let a := q.lpa + o
              let leaves (v : Nat) : Prop := ∀ b, tget 0 b t.mem =
                if a ≤ b ∧ b < a + z then BitVec.ofNat 8 (v / 256 ^ (b - a)) else tget 0 b s.mem
              ((∀ p ∈ qs, p.rule = q.rule ∧ p.esz = q.esz ∧ p.sgn = q.sgn) →
                leaves (ruleValue q qs a z (s.memRd a z)).1 ∧ d.nconf = (ruleValue q qs a z (s.memRd a z)).2) ∧
              ((∃ p ∈ qs, p.rule ≠ q.rule) → d.nconf = z ∧
                ∃ p ∈ q :: qs, (∀ x ∈ q :: qs, p.key ≤ x.key) ∧ leaves (p.unitAt a z)))))) ∧
      (∀ c st last, s.cutOf r.id n = some c →
        (c.st ≠ .applied → exec (.done grp n st last) s = .next s) ∧
        (c.st = .applied → ∃ t d, exec (.done grp n st last) s = .next t ∧ t.cutOf r.id n = some d ∧ d.st = .closed ∧
          t.cutst = st ∧ t.epoch = s.epoch + 1 ∧ (∀ l ∈ t.lines, l.take = false) ∧
          (∀ q ∈ (t.bank n).recs, q.group ≠ grp) ∧ (∀ q ∈ t.runs, q.id = r.id → q.lastCut = last) ∧
          (cutStatus c.nconf c.ndrop c.ndmg ≠ 0 → s.logs t 0x0B false 0
            { s.noCtx with launch := r.slate, take := n } (c.low.getD 0) st.toNat c.word.toNat))) ∧
      (∀ dev ended,
        let new : RootCut := { group := grp, n := n, members := max 1 r.d, arrived := [], reports := [], sentApply := false,
                               count := 0, since := if s.timersHeld grp then none else some s.dcyc, ended := [] }
        let q := (s.root? grp n).getD new
        let all := without dev q.arrived ++ [dev]
        (s.cutAborting grp = true → exec (.arrive grp n dev ended) s = .next s) ∧
        (s.cutAborting grp = false → ∃ t p, exec (.arrive grp n dev ended) s = .next t ∧ t.root? grp n = some p ∧ p.arrived = all ∧
          (ended = true → dev ∈ p.ended) ∧
          (all.length < q.members → p.sentApply = q.sentApply ∧ t.agenda = s.agenda ∧ t.outbox = s.outbox) ∧
          (q.members ≤ all.length → q.sentApply = false → p.sentApply = true ∧ p.since = none ∧ p.count = q.elapsed s.dcyc ∧
            ∀ e ∈ s.domainPeers r, t.sentTo e (.apply grp n)))) ∧
      (∀ dev st q, s.root? grp n = some q →
        let reps := q.reports.filter (fun e => e.1 != dev) ++ [(dev, st)]
        let u := combine n (reps.map Prod.snd)
        let counts (lo : Nat) : Nat := (reps.map (fun e => fld e.2.toNat lo 16)).sum
        (reps.length < q.members → ∃ t p, exec (.report grp n dev st) s = .next t ∧ t.root? grp n = some p ∧ p.reports = reps) ∧
        (q.members ≤ reps.length → ∃ t, exec (.report grp n dev st) s = .next t ∧
          ∀ e ∈ s.domainPeers r, t.sentTo e (.done grp n u (q.ended.length == q.members))) ∧
        (∀ e ∈ reps, fld e.2.toNat 0 2 ≤ fld u.toNat 0 2) ∧ (∃ e ∈ reps, fld e.2.toNat 0 2 = fld u.toNat 0 2) ∧
        fld u.toNat 8 16 = min (counts 8) 0xFFFF ∧ fld u.toNat 24 16 = min (counts 24) 0xFFFF ∧
        fld u.toNat 40 16 = min (counts 40) 0xFFFF ∧ fld u.toNat 56 8 = n % 256) ∧
      (∀ q, s.root? grp n = some q →
        let past : Prop := q.sentApply = false ∧ s.cuttmo ≠ 0 ∧ s.cuttmo * 2 ^ 16 < q.elapsed s.dcyc
        (¬past → exec (.skewTimerExpiry grp n) s = .next s) ∧
        (past → ∃ t i, exec (.skewTimerExpiry grp n) s = .next t ∧
          (∀ e ∈ s.domainPeers r, t.sentTo e (.cutAbort grp n (some i, s.launchName r))) ∧
          (r.cgrp = grp → (∀ p ∈ t.roots, p.group ≠ grp) ∧ ∀ e ∈ t.held, e.1 ≠ grp) ∧
          ((∃ j, j < q.members ∧ j ∉ q.arrived) → i < q.members ∧ i ∉ q.arrived ∧ ∀ j, j < i → j ∈ q.arrived)))) ∧
    (∀ grp n late l, ∃ t, exec (.cutAbort grp n (late, l)) s = .next t ∧
      (s.groupOther grp (s.runNamed l) = false → ∀ q, q ∈ (t.bank 0).recs ∨ q ∈ (t.bank 1).recs → q.group ≠ grp) ∧
      (s.groupOther grp (s.runNamed l) = true → t.bank0 = s.bank0 ∧ t.bank1 = s.bank1) ∧
      (s.runNamed l = none → t.runs = s.runs ∧ t.cuts = s.cuts ∧ t.sent = s.sent) ∧
      ∀ r, s.runNamed l = some r → (∀ q ∈ t.sent, q.run ≠ r.id) ∧ (∀ c ∈ t.cuts, c.run ≠ r.id) ∧
        (s.run? r.id = some r → r.aborted = false → r.retired = false →
          (∀ q ∈ t.runs, q.id = r.id → q.aborted = true ∧ q.places = []) ∧ ∀ k ∈ s.coresOf r.id, (t.core k).task = none)) ∧
    (∀ grp n dev,
      (∃ t, exec (.suspend grp n dev) s = .next t ∧ t.timersHeld grp = true ∧ (grp, dev) ∈ t.held ∧
        (∀ q ∈ s.roots, q.group = grp → { q with count := q.elapsed s.dcyc, since := none } ∈ t.roots) ∧
        ∀ q ∈ t.roots, q.group = grp → q.since = none) ∧
      (∃ t, exec (.resume grp n dev) s = .next t ∧ (grp, dev) ∉ t.held ∧
        ((∃ e ∈ s.held, e ≠ (grp, dev) ∧ e.1 = grp) → t.roots = s.roots) ∧
        ((∀ e ∈ s.held, e.1 = grp → e = (grp, dev)) →
          ∀ q ∈ t.roots, q.group = grp → q.sentApply = false → q.since.isSome = true)))
end

