-- ==== Sys2Proof/Laws/Bits.lean ====
section
/-! SUPPORT. What the bit operations do: single bits, fields and lanes. -/

namespace Sys2Proof.Machine

/-- A bit is Lean's own. -/
theorem bitAt_eq (n i : Nat) : bitAt n i = n.testBit i := by
  rw [bitAt, Nat.testBit_eq_decide_div_mod_eq, beq_eq_decide]

/-- A bit of a word. -/
theorem bitAt_toNat {w : Nat} (v : BitVec w) (i : Nat) : bitAt v.toNat i = v.getLsbD i := by
  rw [bitAt_eq]; rfl

/-- The lowest bit of a number. -/
theorem bitAt_zero (n : Nat) : b01 (bitAt n 0) = n % 2 := by
  simp only [bitAt, b01, Nat.pow_zero, Nat.div_one, beq_iff_eq]
  rcases Nat.mod_two_eq_zero_or_one n with h | h <;> simp [h]

/-- Lanes that agree make one number. -/
theorem mkLanes_congr (f g : Nat → Nat) (w i n : Nat) (h : ∀ j, i ≤ j → j < i + n → f j % 2 ^ w = g j % 2 ^ w) :
    mkLanes f w i n = mkLanes g w i n := by
  induction n generalizing i with
  | zero => rfl
  | succ n ih =>
    rw [mkLanes, mkLanes, h i (Nat.le_refl _) (by omega), ih (i + 1) (fun j h1 h2 => h j (by omega) (by omega))]

/-- The fields of a number put together again. -/
theorem mkLanes_fld (v w i n : Nat) : mkLanes (fun j => fld v (w * j) w) w i n = v / 2 ^ (w * i) % 2 ^ (w * n) := by
  induction n generalizing i with
  | zero => simp [mkLanes, Nat.mod_one]
  | succ n ih =>
    rw [mkLanes, ih]
    simp only [fld, Nat.mod_mod]
    rw [Nat.mul_succ w n, Nat.add_comm (w * n) w, Nat.pow_add, Nat.mod_mul, Nat.div_div_eq_div_mul, ← Nat.pow_add,
      Nat.mul_succ w i]

/-- Where the mask has a bit the new one stands, elsewhere the old one. -/
theorem bitAt_mergeBits (mask old new i : Nat) :
    bitAt (mergeBits mask old new) i = if bitAt mask i then bitAt new i else bitAt old i := by
  simp only [bitAt_eq, mergeBits]
  show (old ^^^ (mask &&& (old ^^^ new))).testBit i = _
  rw [Nat.testBit_xor, Nat.testBit_and, Nat.testBit_xor]
  cases mask.testBit i <;> cases old.testBit i <;> cases new.testBit i <;> rfl

/-- A write of every byte or bit. -/
theorem mergeMask_all (w n old new : Nat) (hn : n ≤ 128) : mergeMask w n allOnes old new = new % 2 ^ (w * n) := by
  unfold mergeMask
  rw [mkLanes_congr _ (fun j => fld new (w * j) w) w 0 n ?_, mkLanes_fld]
  · simp
  · intro j _ hj
    have : bitAt allOnes j = true := by
      rw [bitAt_eq, allOnes, Nat.testBit_two_pow_sub_one]; simp; omega
    rw [if_pos this]

end Sys2Proof.Machine
end

