-- ==== Sys2Proof/Laws/State.lean ====
section
/-! SUPPORT. What each update of the state, of a core and of a stream leaves in each field. -/

namespace Sys2Proof.Machine

/-! ### setCore -/

@[simp] theorem State.setCore_cur (s : State) (n : Nat) (c : Core) : (s.setCore n c).cur = s.cur := rfl
@[simp] theorem State.setCore_schedule (s : State) (n : Nat) (c : Core) : (s.setCore n c).schedule = s.schedule := rfl
@[simp] theorem State.setCore_agenda (s : State) (n : Nat) (c : Core) : (s.setCore n c).agenda = s.agenda := rfl
@[simp] theorem State.setCore_outbox (s : State) (n : Nat) (c : Core) : (s.setCore n c).outbox = s.outbox := rfl
@[simp] theorem State.setCore_ctlSent (s : State) (n : Nat) (c : Core) : (s.setCore n c).ctlSent = s.ctlSent := rfl
@[simp] theorem State.setCore_heard (s : State) (n : Nat) (c : Core) : (s.setCore n c).heard = s.heard := rfl
@[simp] theorem State.setCore_ahead (s : State) (n : Nat) (c : Core) : (s.setCore n c).ahead = s.ahead := rfl
@[simp] theorem State.setCore_acks (s : State) (n : Nat) (c : Core) : (s.setCore n c).acks = s.acks := rfl
@[simp] theorem State.setCore_hostOut (s : State) (n : Nat) (c : Core) : (s.setCore n c).hostOut = s.hostOut := rfl
@[simp] theorem State.setCore_hole (s : State) (n : Nat) (c : Core) : (s.setCore n c).hole = s.hole := rfl
@[simp] theorem State.setCore_nextId (s : State) (n : Nat) (c : Core) : (s.setCore n c).nextId = s.nextId := rfl
@[simp] theorem State.setCore_drawn (s : State) (n : Nat) (c : Core) : (s.setCore n c).drawn = s.drawn := rfl
@[simp] theorem State.setCore_cores (s : State) (n : Nat) (c : Core) : (s.setCore n c).cores = tput Core.idle n c s.cores := rfl
@[simp] theorem State.setCore_gangs (s : State) (n : Nat) (c : Core) : (s.setCore n c).gangs = s.gangs := rfl
@[simp] theorem State.setCore_mem (s : State) (n : Nat) (c : Core) : (s.setCore n c).mem = s.mem := rfl
@[simp] theorem State.setCore_full (s : State) (n : Nat) (c : Core) : (s.setCore n c).full = s.full := rfl
@[simp] theorem State.setCore_bad (s : State) (n : Nat) (c : Core) : (s.setCore n c).bad = s.bad := rfl
@[simp] theorem State.setCore_failed (s : State) (n : Nat) (c : Core) : (s.setCore n c).failed = s.failed := rfl
@[simp] theorem State.setCore_epoch (s : State) (n : Nat) (c : Core) : (s.setCore n c).epoch = s.epoch := rfl
@[simp] theorem State.setCore_lines (s : State) (n : Nat) (c : Core) : (s.setCore n c).lines = s.lines := rfl
@[simp] theorem State.setCore_tlb (s : State) (n : Nat) (c : Core) : (s.setCore n c).tlb = s.tlb := rfl
@[simp] theorem State.setCore_walks (s : State) (n : Nat) (c : Core) : (s.setCore n c).walks = s.walks := rfl
@[simp] theorem State.setCore_invals (s : State) (n : Nat) (c : Core) : (s.setCore n c).invals = s.invals := rfl
@[simp] theorem State.setCore_reqs (s : State) (n : Nat) (c : Core) : (s.setCore n c).reqs = s.reqs := rfl
@[simp] theorem State.setCore_nseq (s : State) (n : Nat) (c : Core) : (s.setCore n c).nseq = s.nseq := rfl
@[simp] theorem State.setCore_vec (s : State) (n : Nat) (c : Core) : (s.setCore n c).vec = s.vec := rfl
@[simp] theorem State.setCore_lastTo (s : State) (n : Nat) (c : Core) : (s.setCore n c).lastTo = s.lastTo := rfl
@[simp] theorem State.setCore_hor (s : State) (n : Nat) (c : Core) : (s.setCore n c).hor = s.hor := rfl
@[simp] theorem State.setCore_chain (s : State) (n : Nat) (c : Core) : (s.setCore n c).chain = s.chain := rfl
@[simp] theorem State.setCore_nmcs (s : State) (n : Nat) (c : Core) : (s.setCore n c).nmcs = s.nmcs := rfl
@[simp] theorem State.setCore_sent (s : State) (n : Nat) (c : Core) : (s.setCore n c).sent = s.sent := rfl
@[simp] theorem State.setCore_lost (s : State) (n : Nat) (c : Core) : (s.setCore n c).lost = s.lost := rfl
@[simp] theorem State.setCore_overrun (s : State) (n : Nat) (c : Core) : (s.setCore n c).overrun = s.overrun := rfl
@[simp] theorem State.setCore_bank0 (s : State) (n : Nat) (c : Core) : (s.setCore n c).bank0 = s.bank0 := rfl
@[simp] theorem State.setCore_bank1 (s : State) (n : Nat) (c : Core) : (s.setCore n c).bank1 = s.bank1 := rfl
@[simp] theorem State.setCore_cuts (s : State) (n : Nat) (c : Core) : (s.setCore n c).cuts = s.cuts := rfl
@[simp] theorem State.setCore_roots (s : State) (n : Nat) (c : Core) : (s.setCore n c).roots = s.roots := rfl
@[simp] theorem State.setCore_held (s : State) (n : Nat) (c : Core) : (s.setCore n c).held = s.held := rfl
@[simp] theorem State.setCore_cutst (s : State) (n : Nat) (c : Core) : (s.setCore n c).cutst = s.cutst := rfl
@[simp] theorem State.setCore_stories (s : State) (n : Nat) (c : Core) : (s.setCore n c).stories = s.stories := rfl
@[simp] theorem State.setCore_submits (s : State) (n : Nat) (c : Core) : (s.setCore n c).submits = s.submits := rfl
@[simp] theorem State.setCore_runs (s : State) (n : Nat) (c : Core) : (s.setCore n c).runs = s.runs := rfl
@[simp] theorem State.setCore_agreed (s : State) (n : Nat) (c : Core) : (s.setCore n c).agreed = s.agreed := rfl
@[simp] theorem State.setCore_xgroups (s : State) (n : Nat) (c : Core) : (s.setCore n c).xgroups = s.xgroups := rfl
@[simp] theorem State.setCore_barInsts (s : State) (n : Nat) (c : Core) : (s.setCore n c).barInsts = s.barInsts := rfl
@[simp] theorem State.setCore_qps (s : State) (n : Nat) (c : Core) : (s.setCore n c).qps = s.qps := rfl
@[simp] theorem State.setCore_qpTail (s : State) (n : Nat) (c : Core) : (s.setCore n c).qpTail = s.qpTail := rfl
@[simp] theorem State.setCore_trig (s : State) (n : Nat) (c : Core) : (s.setCore n c).trig = s.trig := rfl
@[simp] theorem State.setCore_ctl (s : State) (n : Nat) (c : Core) : (s.setCore n c).ctl = s.ctl := rfl
@[simp] theorem State.setCore_dcyc (s : State) (n : Nat) (c : Core) : (s.setCore n c).dcyc = s.dcyc := rfl
@[simp] theorem State.setCore_errbase (s : State) (n : Nat) (c : Core) : (s.setCore n c).errbase = s.errbase := rfl
@[simp] theorem State.setCore_errsize (s : State) (n : Nat) (c : Core) : (s.setCore n c).errsize = s.errsize := rfl
@[simp] theorem State.setCore_errhead (s : State) (n : Nat) (c : Core) : (s.setCore n c).errhead = s.errhead := rfl
@[simp] theorem State.setCore_errtail (s : State) (n : Nat) (c : Core) : (s.setCore n c).errtail = s.errtail := rfl
@[simp] theorem State.setCore_errtrap (s : State) (n : Nat) (c : Core) : (s.setCore n c).errtrap = s.errtrap := rfl
@[simp] theorem State.setCore_errcorr (s : State) (n : Nat) (c : Core) : (s.setCore n c).errcorr = s.errcorr := rfl
@[simp] theorem State.setCore_errlost (s : State) (n : Nat) (c : Core) : (s.setCore n c).errlost = s.errlost := rfl
@[simp] theorem State.setCore_drops (s : State) (n : Nat) (c : Core) : (s.setCore n c).drops = s.drops := rfl
@[simp] theorem State.setCore_cctldef (s : State) (n : Nat) (c : Core) : (s.setCore n c).cctldef = s.cctldef := rfl
@[simp] theorem State.setCore_tvecdef (s : State) (n : Nat) (c : Core) : (s.setCore n c).tvecdef = s.tvecdef := rfl
@[simp] theorem State.setCore_spilladef (s : State) (n : Nat) (c : Core) : (s.setCore n c).spilladef = s.spilladef := rfl
@[simp] theorem State.setCore_spillxdef (s : State) (n : Nat) (c : Core) : (s.setCore n c).spillxdef = s.spillxdef := rfl
@[simp] theorem State.setCore_cbbase (s : State) (n : Nat) (c : Core) : (s.setCore n c).cbbase = s.cbbase := rfl
@[simp] theorem State.setCore_cbsize (s : State) (n : Nat) (c : Core) : (s.setCore n c).cbsize = s.cbsize := rfl
@[simp] theorem State.setCore_cbovf (s : State) (n : Nat) (c : Core) : (s.setCore n c).cbovf = s.cbovf := rfl
@[simp] theorem State.setCore_cuttmo (s : State) (n : Nat) (c : Core) : (s.setCore n c).cuttmo = s.cuttmo := rfl
@[simp] theorem State.setCore_cuthold (s : State) (n : Nat) (c : Core) : (s.setCore n c).cuthold = s.cuthold := rfl
@[simp] theorem State.setCore_rdap (s : State) (n : Nat) (c : Core) : (s.setCore n c).rdap = s.rdap := rfl
@[simp] theorem State.setCore_qpbase (s : State) (n : Nat) (c : Core) : (s.setCore n c).qpbase = s.qpbase := rfl
@[simp] theorem State.setCore_lpdom (s : State) (n : Nat) (c : Core) : (s.setCore n c).lpdom = s.lpdom := rfl
@[simp] theorem State.setCore_lctl (s : State) (n : Nat) (c : Core) : (s.setCore n c).lctl = s.lctl := rfl
@[simp] theorem State.setCore_xcl (s : State) (n : Nat) (c : Core) : (s.setCore n c).xcl = s.xcl := rfl
@[simp] theorem State.setCore_excl (s : State) (n : Nat) (c : Core) : (s.setCore n c).excl = s.excl := rfl
@[simp] theorem State.setCore_cldsrc (s : State) (n : Nat) (c : Core) : (s.setCore n c).cldsrc = s.cldsrc := rfl
@[simp] theorem State.setCore_cldctl (s : State) (n : Nat) (c : Core) : (s.setCore n c).cldctl = s.cldctl := rfl
@[simp] theorem State.setCore_load (s : State) (n : Nat) (c : Core) : (s.setCore n c).load = s.load := rfl
@[simp] theorem State.setCore_ctx (s : State) (n : Nat) (c : Core) : (s.setCore n c).ctx = s.ctx := rfl
@[simp] theorem State.setCore_dbgsel (s : State) (n : Nat) (c : Core) : (s.setCore n c).dbgsel = s.dbgsel := rfl
@[simp] theorem State.setCore_dbgctl (s : State) (n : Nat) (c : Core) : (s.setCore n c).dbgctl = s.dbgctl := rfl
@[simp] theorem State.setCore_dbgrsel (s : State) (n : Nat) (c : Core) : (s.setCore n c).dbgrsel = s.dbgrsel := rfl
@[simp] theorem State.setCore_dbgiw (s : State) (n : Nat) (c : Core) : (s.setCore n c).dbgiw = s.dbgiw := rfl
@[simp] theorem State.setCore_sptbase (s : State) (n : Nat) (c : Core) : (s.setCore n c).sptbase = s.sptbase := rfl
@[simp] theorem State.setCore_sptlim (s : State) (n : Nat) (c : Core) : (s.setCore n c).sptlim = s.sptlim := rfl
@[simp] theorem State.setCore_sdstat (s : State) (n : Nat) (c : Core) : (s.setCore n c).sdstat = s.sdstat := rfl
@[simp] theorem State.setCore_tflog0 (s : State) (n : Nat) (c : Core) : (s.setCore n c).tflog0 = s.tflog0 := rfl
@[simp] theorem State.setCore_tflog1 (s : State) (n : Nat) (c : Core) : (s.setCore n c).tflog1 = s.tflog1 := rfl
@[simp] theorem State.setCore_tflog2 (s : State) (n : Nat) (c : Core) : (s.setCore n c).tflog2 = s.tflog2 := rfl
@[simp] theorem State.setCore_tflog3 (s : State) (n : Nat) (c : Core) : (s.setCore n c).tflog3 = s.tflog3 := rfl
@[simp] theorem State.setCore_tflogAt (s : State) (n : Nat) (c : Core) : (s.setCore n c).tflogAt = s.tflogAt := rfl
@[simp] theorem State.setCore_peerid (s : State) (n : Nat) (c : Core) : (s.setCore n c).peerid = s.peerid := rfl
@[simp] theorem State.setCore_instloc (s : State) (n : Nat) (c : Core) : (s.setCore n c).instloc = s.instloc := rfl
@[simp] theorem State.setCore_partLog (s : State) (n : Nat) (c : Core) : (s.setCore n c).partLog = s.partLog := rfl
@[simp] theorem State.setCore_partFirst (s : State) (n : Nat) (c : Core) : (s.setCore n c).partFirst = s.partFirst := rfl
@[simp] theorem State.setCore_cgtbase (s : State) (n : Nat) (c : Core) : (s.setCore n c).cgtbase = s.cgtbase := rfl
@[simp] theorem State.setCore_cgtn (s : State) (n : Nat) (c : Core) : (s.setCore n c).cgtn = s.cgtn := rfl
@[simp] theorem State.setCore_frtbase (s : State) (n : Nat) (c : Core) : (s.setCore n c).frtbase = s.frtbase := rfl
@[simp] theorem State.setCore_portsel (s : State) (n : Nat) (c : Core) : (s.setCore n c).portsel = s.portsel := rfl
@[simp] theorem State.setCore_ports (s : State) (n : Nat) (c : Core) : (s.setCore n c).ports = s.ports := rfl
@[simp] theorem State.setCore_islsel (s : State) (n : Nat) (c : Core) : (s.setCore n c).islsel = s.islsel := rfl
@[simp] theorem State.setCore_islset (s : State) (n : Nat) (c : Core) : (s.setCore n c).islset = s.islset := rfl
@[simp] theorem State.setCore_islcap (s : State) (n : Nat) (c : Core) : (s.setCore n c).islcap = s.islcap := rfl
@[simp] theorem State.setCore_stage (s : State) (n : Nat) (c : Core) : (s.setCore n c).stage = s.stage := rfl
@[simp] theorem State.setCore_isReady (s : State) (n : Nat) (c : Core) : (s.setCore n c).isReady = s.isReady := rfl
@[simp] theorem State.setCore_intpend (s : State) (n : Nat) (c : Core) : (s.setCore n c).intpend = s.intpend := rfl
@[simp] theorem State.setCore_hwin (s : State) (n : Nat) (c : Core) : (s.setCore n c).hwin = s.hwin := rfl
@[simp] theorem State.setCore_reeldesc (s : State) (n : Nat) (c : Core) : (s.setCore n c).reeldesc = s.reeldesc := rfl
@[simp] theorem State.setCore_reel (s : State) (n : Nat) (c : Core) : (s.setCore n c).reel = s.reel := rfl
@[simp] theorem State.setCore_reelst (s : State) (n : Nat) (c : Core) : (s.setCore n c).reelst = s.reelst := rfl
@[simp] theorem State.setCore_flash (s : State) (n : Nat) (c : Core) : (s.setCore n c).flash = s.flash := rfl
@[simp] theorem State.setCore_region (s : State) (n : Nat) (c : Core) : (s.setCore n c).region = s.region := rfl
@[simp] theorem State.setCore_nextRegion (s : State) (n : Nat) (c : Core) : (s.setCore n c).nextRegion = s.nextRegion := rfl
@[simp] theorem State.setCore_ngmsg (s : State) (n : Nat) (c : Core) : (s.setCore n c).ngmsg = s.ngmsg := rfl

/-! ### setGang -/

@[simp] theorem State.setGang_cur (s : State) (n : Nat) (g : Gang) : (s.setGang n g).cur = s.cur := rfl
@[simp] theorem State.setGang_schedule (s : State) (n : Nat) (g : Gang) : (s.setGang n g).schedule = s.schedule := rfl
@[simp] theorem State.setGang_agenda (s : State) (n : Nat) (g : Gang) : (s.setGang n g).agenda = s.agenda := rfl
@[simp] theorem State.setGang_outbox (s : State) (n : Nat) (g : Gang) : (s.setGang n g).outbox = s.outbox := rfl
@[simp] theorem State.setGang_ctlSent (s : State) (n : Nat) (g : Gang) : (s.setGang n g).ctlSent = s.ctlSent := rfl
@[simp] theorem State.setGang_heard (s : State) (n : Nat) (g : Gang) : (s.setGang n g).heard = s.heard := rfl
@[simp] theorem State.setGang_ahead (s : State) (n : Nat) (g : Gang) : (s.setGang n g).ahead = s.ahead := rfl
@[simp] theorem State.setGang_acks (s : State) (n : Nat) (g : Gang) : (s.setGang n g).acks = s.acks := rfl
@[simp] theorem State.setGang_hostOut (s : State) (n : Nat) (g : Gang) : (s.setGang n g).hostOut = s.hostOut := rfl
@[simp] theorem State.setGang_hole (s : State) (n : Nat) (g : Gang) : (s.setGang n g).hole = s.hole := rfl
@[simp] theorem State.setGang_nextId (s : State) (n : Nat) (g : Gang) : (s.setGang n g).nextId = s.nextId := rfl
@[simp] theorem State.setGang_drawn (s : State) (n : Nat) (g : Gang) : (s.setGang n g).drawn = s.drawn := rfl
@[simp] theorem State.setGang_cores (s : State) (n : Nat) (g : Gang) : (s.setGang n g).cores = s.cores := rfl
@[simp] theorem State.setGang_gangs (s : State) (n : Nat) (g : Gang) : (s.setGang n g).gangs = tput Gang.idle n g s.gangs := rfl
@[simp] theorem State.setGang_mem (s : State) (n : Nat) (g : Gang) : (s.setGang n g).mem = s.mem := rfl
@[simp] theorem State.setGang_full (s : State) (n : Nat) (g : Gang) : (s.setGang n g).full = s.full := rfl
@[simp] theorem State.setGang_bad (s : State) (n : Nat) (g : Gang) : (s.setGang n g).bad = s.bad := rfl
@[simp] theorem State.setGang_failed (s : State) (n : Nat) (g : Gang) : (s.setGang n g).failed = s.failed := rfl
@[simp] theorem State.setGang_epoch (s : State) (n : Nat) (g : Gang) : (s.setGang n g).epoch = s.epoch := rfl
@[simp] theorem State.setGang_lines (s : State) (n : Nat) (g : Gang) : (s.setGang n g).lines = s.lines := rfl
@[simp] theorem State.setGang_tlb (s : State) (n : Nat) (g : Gang) : (s.setGang n g).tlb = s.tlb := rfl
@[simp] theorem State.setGang_walks (s : State) (n : Nat) (g : Gang) : (s.setGang n g).walks = s.walks := rfl
@[simp] theorem State.setGang_invals (s : State) (n : Nat) (g : Gang) : (s.setGang n g).invals = s.invals := rfl
@[simp] theorem State.setGang_reqs (s : State) (n : Nat) (g : Gang) : (s.setGang n g).reqs = s.reqs := rfl
@[simp] theorem State.setGang_nseq (s : State) (n : Nat) (g : Gang) : (s.setGang n g).nseq = s.nseq := rfl
@[simp] theorem State.setGang_vec (s : State) (n : Nat) (g : Gang) : (s.setGang n g).vec = s.vec := rfl
@[simp] theorem State.setGang_lastTo (s : State) (n : Nat) (g : Gang) : (s.setGang n g).lastTo = s.lastTo := rfl
@[simp] theorem State.setGang_hor (s : State) (n : Nat) (g : Gang) : (s.setGang n g).hor = s.hor := rfl
@[simp] theorem State.setGang_chain (s : State) (n : Nat) (g : Gang) : (s.setGang n g).chain = s.chain := rfl
@[simp] theorem State.setGang_nmcs (s : State) (n : Nat) (g : Gang) : (s.setGang n g).nmcs = s.nmcs := rfl
@[simp] theorem State.setGang_sent (s : State) (n : Nat) (g : Gang) : (s.setGang n g).sent = s.sent := rfl
@[simp] theorem State.setGang_lost (s : State) (n : Nat) (g : Gang) : (s.setGang n g).lost = s.lost := rfl
@[simp] theorem State.setGang_overrun (s : State) (n : Nat) (g : Gang) : (s.setGang n g).overrun = s.overrun := rfl
@[simp] theorem State.setGang_bank0 (s : State) (n : Nat) (g : Gang) : (s.setGang n g).bank0 = s.bank0 := rfl
@[simp] theorem State.setGang_bank1 (s : State) (n : Nat) (g : Gang) : (s.setGang n g).bank1 = s.bank1 := rfl
@[simp] theorem State.setGang_cuts (s : State) (n : Nat) (g : Gang) : (s.setGang n g).cuts = s.cuts := rfl
@[simp] theorem State.setGang_roots (s : State) (n : Nat) (g : Gang) : (s.setGang n g).roots = s.roots := rfl
@[simp] theorem State.setGang_held (s : State) (n : Nat) (g : Gang) : (s.setGang n g).held = s.held := rfl
@[simp] theorem State.setGang_cutst (s : State) (n : Nat) (g : Gang) : (s.setGang n g).cutst = s.cutst := rfl
@[simp] theorem State.setGang_stories (s : State) (n : Nat) (g : Gang) : (s.setGang n g).stories = s.stories := rfl
@[simp] theorem State.setGang_submits (s : State) (n : Nat) (g : Gang) : (s.setGang n g).submits = s.submits := rfl
@[simp] theorem State.setGang_runs (s : State) (n : Nat) (g : Gang) : (s.setGang n g).runs = s.runs := rfl
@[simp] theorem State.setGang_agreed (s : State) (n : Nat) (g : Gang) : (s.setGang n g).agreed = s.agreed := rfl
@[simp] theorem State.setGang_xgroups (s : State) (n : Nat) (g : Gang) : (s.setGang n g).xgroups = s.xgroups := rfl
@[simp] theorem State.setGang_barInsts (s : State) (n : Nat) (g : Gang) : (s.setGang n g).barInsts = s.barInsts := rfl
@[simp] theorem State.setGang_qps (s : State) (n : Nat) (g : Gang) : (s.setGang n g).qps = s.qps := rfl
@[simp] theorem State.setGang_qpTail (s : State) (n : Nat) (g : Gang) : (s.setGang n g).qpTail = s.qpTail := rfl
@[simp] theorem State.setGang_trig (s : State) (n : Nat) (g : Gang) : (s.setGang n g).trig = s.trig := rfl
@[simp] theorem State.setGang_ctl (s : State) (n : Nat) (g : Gang) : (s.setGang n g).ctl = s.ctl := rfl
@[simp] theorem State.setGang_dcyc (s : State) (n : Nat) (g : Gang) : (s.setGang n g).dcyc = s.dcyc := rfl
@[simp] theorem State.setGang_errbase (s : State) (n : Nat) (g : Gang) : (s.setGang n g).errbase = s.errbase := rfl
@[simp] theorem State.setGang_errsize (s : State) (n : Nat) (g : Gang) : (s.setGang n g).errsize = s.errsize := rfl
@[simp] theorem State.setGang_errhead (s : State) (n : Nat) (g : Gang) : (s.setGang n g).errhead = s.errhead := rfl
@[simp] theorem State.setGang_errtail (s : State) (n : Nat) (g : Gang) : (s.setGang n g).errtail = s.errtail := rfl
@[simp] theorem State.setGang_errtrap (s : State) (n : Nat) (g : Gang) : (s.setGang n g).errtrap = s.errtrap := rfl
@[simp] theorem State.setGang_errcorr (s : State) (n : Nat) (g : Gang) : (s.setGang n g).errcorr = s.errcorr := rfl
@[simp] theorem State.setGang_errlost (s : State) (n : Nat) (g : Gang) : (s.setGang n g).errlost = s.errlost := rfl
@[simp] theorem State.setGang_drops (s : State) (n : Nat) (g : Gang) : (s.setGang n g).drops = s.drops := rfl
@[simp] theorem State.setGang_cctldef (s : State) (n : Nat) (g : Gang) : (s.setGang n g).cctldef = s.cctldef := rfl
@[simp] theorem State.setGang_tvecdef (s : State) (n : Nat) (g : Gang) : (s.setGang n g).tvecdef = s.tvecdef := rfl
@[simp] theorem State.setGang_spilladef (s : State) (n : Nat) (g : Gang) : (s.setGang n g).spilladef = s.spilladef := rfl
@[simp] theorem State.setGang_spillxdef (s : State) (n : Nat) (g : Gang) : (s.setGang n g).spillxdef = s.spillxdef := rfl
@[simp] theorem State.setGang_cbbase (s : State) (n : Nat) (g : Gang) : (s.setGang n g).cbbase = s.cbbase := rfl
@[simp] theorem State.setGang_cbsize (s : State) (n : Nat) (g : Gang) : (s.setGang n g).cbsize = s.cbsize := rfl
@[simp] theorem State.setGang_cbovf (s : State) (n : Nat) (g : Gang) : (s.setGang n g).cbovf = s.cbovf := rfl
@[simp] theorem State.setGang_cuttmo (s : State) (n : Nat) (g : Gang) : (s.setGang n g).cuttmo = s.cuttmo := rfl
@[simp] theorem State.setGang_cuthold (s : State) (n : Nat) (g : Gang) : (s.setGang n g).cuthold = s.cuthold := rfl
@[simp] theorem State.setGang_rdap (s : State) (n : Nat) (g : Gang) : (s.setGang n g).rdap = s.rdap := rfl
@[simp] theorem State.setGang_qpbase (s : State) (n : Nat) (g : Gang) : (s.setGang n g).qpbase = s.qpbase := rfl
@[simp] theorem State.setGang_lpdom (s : State) (n : Nat) (g : Gang) : (s.setGang n g).lpdom = s.lpdom := rfl
@[simp] theorem State.setGang_lctl (s : State) (n : Nat) (g : Gang) : (s.setGang n g).lctl = s.lctl := rfl
@[simp] theorem State.setGang_xcl (s : State) (n : Nat) (g : Gang) : (s.setGang n g).xcl = s.xcl := rfl
@[simp] theorem State.setGang_excl (s : State) (n : Nat) (g : Gang) : (s.setGang n g).excl = s.excl := rfl
@[simp] theorem State.setGang_cldsrc (s : State) (n : Nat) (g : Gang) : (s.setGang n g).cldsrc = s.cldsrc := rfl
@[simp] theorem State.setGang_cldctl (s : State) (n : Nat) (g : Gang) : (s.setGang n g).cldctl = s.cldctl := rfl
@[simp] theorem State.setGang_load (s : State) (n : Nat) (g : Gang) : (s.setGang n g).load = s.load := rfl
@[simp] theorem State.setGang_ctx (s : State) (n : Nat) (g : Gang) : (s.setGang n g).ctx = s.ctx := rfl
@[simp] theorem State.setGang_dbgsel (s : State) (n : Nat) (g : Gang) : (s.setGang n g).dbgsel = s.dbgsel := rfl
@[simp] theorem State.setGang_dbgctl (s : State) (n : Nat) (g : Gang) : (s.setGang n g).dbgctl = s.dbgctl := rfl
@[simp] theorem State.setGang_dbgrsel (s : State) (n : Nat) (g : Gang) : (s.setGang n g).dbgrsel = s.dbgrsel := rfl
@[simp] theorem State.setGang_dbgiw (s : State) (n : Nat) (g : Gang) : (s.setGang n g).dbgiw = s.dbgiw := rfl
@[simp] theorem State.setGang_sptbase (s : State) (n : Nat) (g : Gang) : (s.setGang n g).sptbase = s.sptbase := rfl
@[simp] theorem State.setGang_sptlim (s : State) (n : Nat) (g : Gang) : (s.setGang n g).sptlim = s.sptlim := rfl
@[simp] theorem State.setGang_sdstat (s : State) (n : Nat) (g : Gang) : (s.setGang n g).sdstat = s.sdstat := rfl
@[simp] theorem State.setGang_tflog0 (s : State) (n : Nat) (g : Gang) : (s.setGang n g).tflog0 = s.tflog0 := rfl
@[simp] theorem State.setGang_tflog1 (s : State) (n : Nat) (g : Gang) : (s.setGang n g).tflog1 = s.tflog1 := rfl
@[simp] theorem State.setGang_tflog2 (s : State) (n : Nat) (g : Gang) : (s.setGang n g).tflog2 = s.tflog2 := rfl
@[simp] theorem State.setGang_tflog3 (s : State) (n : Nat) (g : Gang) : (s.setGang n g).tflog3 = s.tflog3 := rfl
@[simp] theorem State.setGang_tflogAt (s : State) (n : Nat) (g : Gang) : (s.setGang n g).tflogAt = s.tflogAt := rfl
@[simp] theorem State.setGang_peerid (s : State) (n : Nat) (g : Gang) : (s.setGang n g).peerid = s.peerid := rfl
@[simp] theorem State.setGang_instloc (s : State) (n : Nat) (g : Gang) : (s.setGang n g).instloc = s.instloc := rfl
@[simp] theorem State.setGang_partLog (s : State) (n : Nat) (g : Gang) : (s.setGang n g).partLog = s.partLog := rfl
@[simp] theorem State.setGang_partFirst (s : State) (n : Nat) (g : Gang) : (s.setGang n g).partFirst = s.partFirst := rfl
@[simp] theorem State.setGang_cgtbase (s : State) (n : Nat) (g : Gang) : (s.setGang n g).cgtbase = s.cgtbase := rfl
@[simp] theorem State.setGang_cgtn (s : State) (n : Nat) (g : Gang) : (s.setGang n g).cgtn = s.cgtn := rfl
@[simp] theorem State.setGang_frtbase (s : State) (n : Nat) (g : Gang) : (s.setGang n g).frtbase = s.frtbase := rfl
@[simp] theorem State.setGang_portsel (s : State) (n : Nat) (g : Gang) : (s.setGang n g).portsel = s.portsel := rfl
@[simp] theorem State.setGang_ports (s : State) (n : Nat) (g : Gang) : (s.setGang n g).ports = s.ports := rfl
@[simp] theorem State.setGang_islsel (s : State) (n : Nat) (g : Gang) : (s.setGang n g).islsel = s.islsel := rfl
@[simp] theorem State.setGang_islset (s : State) (n : Nat) (g : Gang) : (s.setGang n g).islset = s.islset := rfl
@[simp] theorem State.setGang_islcap (s : State) (n : Nat) (g : Gang) : (s.setGang n g).islcap = s.islcap := rfl
@[simp] theorem State.setGang_stage (s : State) (n : Nat) (g : Gang) : (s.setGang n g).stage = s.stage := rfl
@[simp] theorem State.setGang_isReady (s : State) (n : Nat) (g : Gang) : (s.setGang n g).isReady = s.isReady := rfl
@[simp] theorem State.setGang_intpend (s : State) (n : Nat) (g : Gang) : (s.setGang n g).intpend = s.intpend := rfl
@[simp] theorem State.setGang_hwin (s : State) (n : Nat) (g : Gang) : (s.setGang n g).hwin = s.hwin := rfl
@[simp] theorem State.setGang_reeldesc (s : State) (n : Nat) (g : Gang) : (s.setGang n g).reeldesc = s.reeldesc := rfl
@[simp] theorem State.setGang_reel (s : State) (n : Nat) (g : Gang) : (s.setGang n g).reel = s.reel := rfl
@[simp] theorem State.setGang_reelst (s : State) (n : Nat) (g : Gang) : (s.setGang n g).reelst = s.reelst := rfl
@[simp] theorem State.setGang_flash (s : State) (n : Nat) (g : Gang) : (s.setGang n g).flash = s.flash := rfl
@[simp] theorem State.setGang_region (s : State) (n : Nat) (g : Gang) : (s.setGang n g).region = s.region := rfl
@[simp] theorem State.setGang_nextRegion (s : State) (n : Nat) (g : Gang) : (s.setGang n g).nextRegion = s.nextRegion := rfl
@[simp] theorem State.setGang_ngmsg (s : State) (n : Nat) (g : Gang) : (s.setGang n g).ngmsg = s.ngmsg := rfl

/-! ### memPut -/

@[simp] theorem State.memPut_cur (s : State) (a : Nat) (bs : List Byte) : (s.memPut a bs).cur = s.cur := rfl
@[simp] theorem State.memPut_schedule (s : State) (a : Nat) (bs : List Byte) : (s.memPut a bs).schedule = s.schedule := rfl
@[simp] theorem State.memPut_agenda (s : State) (a : Nat) (bs : List Byte) : (s.memPut a bs).agenda = s.agenda := rfl
@[simp] theorem State.memPut_outbox (s : State) (a : Nat) (bs : List Byte) : (s.memPut a bs).outbox = s.outbox := rfl
@[simp] theorem State.memPut_ctlSent (s : State) (a : Nat) (bs : List Byte) : (s.memPut a bs).ctlSent = s.ctlSent := rfl
@[simp] theorem State.memPut_heard (s : State) (a : Nat) (bs : List Byte) : (s.memPut a bs).heard = s.heard := rfl
@[simp] theorem State.memPut_ahead (s : State) (a : Nat) (bs : List Byte) : (s.memPut a bs).ahead = s.ahead := rfl
@[simp] theorem State.memPut_acks (s : State) (a : Nat) (bs : List Byte) : (s.memPut a bs).acks = s.acks := rfl
@[simp] theorem State.memPut_hostOut (s : State) (a : Nat) (bs : List Byte) : (s.memPut a bs).hostOut = s.hostOut := rfl
@[simp] theorem State.memPut_hole (s : State) (a : Nat) (bs : List Byte) : (s.memPut a bs).hole = s.hole := rfl
@[simp] theorem State.memPut_nextId (s : State) (a : Nat) (bs : List Byte) : (s.memPut a bs).nextId = s.nextId := rfl
@[simp] theorem State.memPut_drawn (s : State) (a : Nat) (bs : List Byte) : (s.memPut a bs).drawn = s.drawn := rfl
@[simp] theorem State.memPut_cores (s : State) (a : Nat) (bs : List Byte) : (s.memPut a bs).cores = s.cores := rfl
@[simp] theorem State.memPut_gangs (s : State) (a : Nat) (bs : List Byte) : (s.memPut a bs).gangs = s.gangs := rfl
@[simp] theorem State.memPut_mem (s : State) (a : Nat) (bs : List Byte) : (s.memPut a bs).mem = tputs 0 a bs s.mem := rfl
@[simp] theorem State.memPut_full (s : State) (a : Nat) (bs : List Byte) : (s.memPut a bs).full = s.full := rfl
@[simp] theorem State.memPut_bad (s : State) (a : Nat) (bs : List Byte) : (s.memPut a bs).bad = s.bad := rfl
@[simp] theorem State.memPut_failed (s : State) (a : Nat) (bs : List Byte) : (s.memPut a bs).failed = s.failed := rfl
@[simp] theorem State.memPut_epoch (s : State) (a : Nat) (bs : List Byte) : (s.memPut a bs).epoch = s.epoch := rfl
@[simp] theorem State.memPut_lines (s : State) (a : Nat) (bs : List Byte) : (s.memPut a bs).lines = s.lines := rfl
@[simp] theorem State.memPut_tlb (s : State) (a : Nat) (bs : List Byte) : (s.memPut a bs).tlb = s.tlb := rfl
@[simp] theorem State.memPut_walks (s : State) (a : Nat) (bs : List Byte) : (s.memPut a bs).walks = s.walks := rfl
@[simp] theorem State.memPut_invals (s : State) (a : Nat) (bs : List Byte) : (s.memPut a bs).invals = s.invals := rfl
@[simp] theorem State.memPut_reqs (s : State) (a : Nat) (bs : List Byte) : (s.memPut a bs).reqs = s.reqs := rfl
@[simp] theorem State.memPut_nseq (s : State) (a : Nat) (bs : List Byte) : (s.memPut a bs).nseq = s.nseq := rfl
@[simp] theorem State.memPut_vec (s : State) (a : Nat) (bs : List Byte) : (s.memPut a bs).vec = s.vec := rfl
@[simp] theorem State.memPut_lastTo (s : State) (a : Nat) (bs : List Byte) : (s.memPut a bs).lastTo = s.lastTo := rfl
@[simp] theorem State.memPut_hor (s : State) (a : Nat) (bs : List Byte) : (s.memPut a bs).hor = s.hor := rfl
@[simp] theorem State.memPut_chain (s : State) (a : Nat) (bs : List Byte) : (s.memPut a bs).chain = s.chain := rfl
@[simp] theorem State.memPut_nmcs (s : State) (a : Nat) (bs : List Byte) : (s.memPut a bs).nmcs = s.nmcs := rfl
@[simp] theorem State.memPut_sent (s : State) (a : Nat) (bs : List Byte) : (s.memPut a bs).sent = s.sent := rfl
@[simp] theorem State.memPut_lost (s : State) (a : Nat) (bs : List Byte) : (s.memPut a bs).lost = s.lost := rfl
@[simp] theorem State.memPut_overrun (s : State) (a : Nat) (bs : List Byte) : (s.memPut a bs).overrun = s.overrun := rfl
@[simp] theorem State.memPut_bank0 (s : State) (a : Nat) (bs : List Byte) : (s.memPut a bs).bank0 = s.bank0 := rfl
@[simp] theorem State.memPut_bank1 (s : State) (a : Nat) (bs : List Byte) : (s.memPut a bs).bank1 = s.bank1 := rfl
@[simp] theorem State.memPut_cuts (s : State) (a : Nat) (bs : List Byte) : (s.memPut a bs).cuts = s.cuts := rfl
@[simp] theorem State.memPut_roots (s : State) (a : Nat) (bs : List Byte) : (s.memPut a bs).roots = s.roots := rfl
@[simp] theorem State.memPut_held (s : State) (a : Nat) (bs : List Byte) : (s.memPut a bs).held = s.held := rfl
@[simp] theorem State.memPut_cutst (s : State) (a : Nat) (bs : List Byte) : (s.memPut a bs).cutst = s.cutst := rfl
@[simp] theorem State.memPut_stories (s : State) (a : Nat) (bs : List Byte) : (s.memPut a bs).stories = s.stories := rfl
@[simp] theorem State.memPut_submits (s : State) (a : Nat) (bs : List Byte) : (s.memPut a bs).submits = s.submits := rfl
@[simp] theorem State.memPut_runs (s : State) (a : Nat) (bs : List Byte) : (s.memPut a bs).runs = s.runs := rfl
@[simp] theorem State.memPut_agreed (s : State) (a : Nat) (bs : List Byte) : (s.memPut a bs).agreed = s.agreed := rfl
@[simp] theorem State.memPut_xgroups (s : State) (a : Nat) (bs : List Byte) : (s.memPut a bs).xgroups = s.xgroups := rfl
@[simp] theorem State.memPut_barInsts (s : State) (a : Nat) (bs : List Byte) : (s.memPut a bs).barInsts = s.barInsts := rfl
@[simp] theorem State.memPut_qps (s : State) (a : Nat) (bs : List Byte) : (s.memPut a bs).qps = s.qps := rfl
@[simp] theorem State.memPut_qpTail (s : State) (a : Nat) (bs : List Byte) : (s.memPut a bs).qpTail = s.qpTail := rfl
@[simp] theorem State.memPut_trig (s : State) (a : Nat) (bs : List Byte) : (s.memPut a bs).trig = s.trig := rfl
@[simp] theorem State.memPut_ctl (s : State) (a : Nat) (bs : List Byte) : (s.memPut a bs).ctl = s.ctl := rfl
@[simp] theorem State.memPut_dcyc (s : State) (a : Nat) (bs : List Byte) : (s.memPut a bs).dcyc = s.dcyc := rfl
@[simp] theorem State.memPut_errbase (s : State) (a : Nat) (bs : List Byte) : (s.memPut a bs).errbase = s.errbase := rfl
@[simp] theorem State.memPut_errsize (s : State) (a : Nat) (bs : List Byte) : (s.memPut a bs).errsize = s.errsize := rfl
@[simp] theorem State.memPut_errhead (s : State) (a : Nat) (bs : List Byte) : (s.memPut a bs).errhead = s.errhead := rfl
@[simp] theorem State.memPut_errtail (s : State) (a : Nat) (bs : List Byte) : (s.memPut a bs).errtail = s.errtail := rfl
@[simp] theorem State.memPut_errtrap (s : State) (a : Nat) (bs : List Byte) : (s.memPut a bs).errtrap = s.errtrap := rfl
@[simp] theorem State.memPut_errcorr (s : State) (a : Nat) (bs : List Byte) : (s.memPut a bs).errcorr = s.errcorr := rfl
@[simp] theorem State.memPut_errlost (s : State) (a : Nat) (bs : List Byte) : (s.memPut a bs).errlost = s.errlost := rfl
@[simp] theorem State.memPut_drops (s : State) (a : Nat) (bs : List Byte) : (s.memPut a bs).drops = s.drops := rfl
@[simp] theorem State.memPut_cctldef (s : State) (a : Nat) (bs : List Byte) : (s.memPut a bs).cctldef = s.cctldef := rfl
@[simp] theorem State.memPut_tvecdef (s : State) (a : Nat) (bs : List Byte) : (s.memPut a bs).tvecdef = s.tvecdef := rfl
@[simp] theorem State.memPut_spilladef (s : State) (a : Nat) (bs : List Byte) : (s.memPut a bs).spilladef = s.spilladef := rfl
@[simp] theorem State.memPut_spillxdef (s : State) (a : Nat) (bs : List Byte) : (s.memPut a bs).spillxdef = s.spillxdef := rfl
@[simp] theorem State.memPut_cbbase (s : State) (a : Nat) (bs : List Byte) : (s.memPut a bs).cbbase = s.cbbase := rfl
@[simp] theorem State.memPut_cbsize (s : State) (a : Nat) (bs : List Byte) : (s.memPut a bs).cbsize = s.cbsize := rfl
@[simp] theorem State.memPut_cbovf (s : State) (a : Nat) (bs : List Byte) : (s.memPut a bs).cbovf = s.cbovf := rfl
@[simp] theorem State.memPut_cuttmo (s : State) (a : Nat) (bs : List Byte) : (s.memPut a bs).cuttmo = s.cuttmo := rfl
@[simp] theorem State.memPut_cuthold (s : State) (a : Nat) (bs : List Byte) : (s.memPut a bs).cuthold = s.cuthold := rfl
@[simp] theorem State.memPut_rdap (s : State) (a : Nat) (bs : List Byte) : (s.memPut a bs).rdap = s.rdap := rfl
@[simp] theorem State.memPut_qpbase (s : State) (a : Nat) (bs : List Byte) : (s.memPut a bs).qpbase = s.qpbase := rfl
@[simp] theorem State.memPut_lpdom (s : State) (a : Nat) (bs : List Byte) : (s.memPut a bs).lpdom = s.lpdom := rfl
@[simp] theorem State.memPut_lctl (s : State) (a : Nat) (bs : List Byte) : (s.memPut a bs).lctl = s.lctl := rfl
@[simp] theorem State.memPut_xcl (s : State) (a : Nat) (bs : List Byte) : (s.memPut a bs).xcl = s.xcl := rfl
@[simp] theorem State.memPut_excl (s : State) (a : Nat) (bs : List Byte) : (s.memPut a bs).excl = s.excl := rfl
@[simp] theorem State.memPut_cldsrc (s : State) (a : Nat) (bs : List Byte) : (s.memPut a bs).cldsrc = s.cldsrc := rfl
@[simp] theorem State.memPut_cldctl (s : State) (a : Nat) (bs : List Byte) : (s.memPut a bs).cldctl = s.cldctl := rfl
@[simp] theorem State.memPut_load (s : State) (a : Nat) (bs : List Byte) : (s.memPut a bs).load = s.load := rfl
@[simp] theorem State.memPut_ctx (s : State) (a : Nat) (bs : List Byte) : (s.memPut a bs).ctx = s.ctx := rfl
@[simp] theorem State.memPut_dbgsel (s : State) (a : Nat) (bs : List Byte) : (s.memPut a bs).dbgsel = s.dbgsel := rfl
@[simp] theorem State.memPut_dbgctl (s : State) (a : Nat) (bs : List Byte) : (s.memPut a bs).dbgctl = s.dbgctl := rfl
@[simp] theorem State.memPut_dbgrsel (s : State) (a : Nat) (bs : List Byte) : (s.memPut a bs).dbgrsel = s.dbgrsel := rfl
@[simp] theorem State.memPut_dbgiw (s : State) (a : Nat) (bs : List Byte) : (s.memPut a bs).dbgiw = s.dbgiw := rfl
@[simp] theorem State.memPut_sptbase (s : State) (a : Nat) (bs : List Byte) : (s.memPut a bs).sptbase = s.sptbase := rfl
@[simp] theorem State.memPut_sptlim (s : State) (a : Nat) (bs : List Byte) : (s.memPut a bs).sptlim = s.sptlim := rfl
@[simp] theorem State.memPut_sdstat (s : State) (a : Nat) (bs : List Byte) : (s.memPut a bs).sdstat = s.sdstat := rfl
@[simp] theorem State.memPut_tflog0 (s : State) (a : Nat) (bs : List Byte) : (s.memPut a bs).tflog0 = s.tflog0 := rfl
@[simp] theorem State.memPut_tflog1 (s : State) (a : Nat) (bs : List Byte) : (s.memPut a bs).tflog1 = s.tflog1 := rfl
@[simp] theorem State.memPut_tflog2 (s : State) (a : Nat) (bs : List Byte) : (s.memPut a bs).tflog2 = s.tflog2 := rfl
@[simp] theorem State.memPut_tflog3 (s : State) (a : Nat) (bs : List Byte) : (s.memPut a bs).tflog3 = s.tflog3 := rfl
@[simp] theorem State.memPut_tflogAt (s : State) (a : Nat) (bs : List Byte) : (s.memPut a bs).tflogAt = s.tflogAt := rfl
@[simp] theorem State.memPut_peerid (s : State) (a : Nat) (bs : List Byte) : (s.memPut a bs).peerid = s.peerid := rfl
@[simp] theorem State.memPut_instloc (s : State) (a : Nat) (bs : List Byte) : (s.memPut a bs).instloc = s.instloc := rfl
@[simp] theorem State.memPut_partLog (s : State) (a : Nat) (bs : List Byte) : (s.memPut a bs).partLog = s.partLog := rfl
@[simp] theorem State.memPut_partFirst (s : State) (a : Nat) (bs : List Byte) : (s.memPut a bs).partFirst = s.partFirst := rfl
@[simp] theorem State.memPut_cgtbase (s : State) (a : Nat) (bs : List Byte) : (s.memPut a bs).cgtbase = s.cgtbase := rfl
@[simp] theorem State.memPut_cgtn (s : State) (a : Nat) (bs : List Byte) : (s.memPut a bs).cgtn = s.cgtn := rfl
@[simp] theorem State.memPut_frtbase (s : State) (a : Nat) (bs : List Byte) : (s.memPut a bs).frtbase = s.frtbase := rfl
@[simp] theorem State.memPut_portsel (s : State) (a : Nat) (bs : List Byte) : (s.memPut a bs).portsel = s.portsel := rfl
@[simp] theorem State.memPut_ports (s : State) (a : Nat) (bs : List Byte) : (s.memPut a bs).ports = s.ports := rfl
@[simp] theorem State.memPut_islsel (s : State) (a : Nat) (bs : List Byte) : (s.memPut a bs).islsel = s.islsel := rfl
@[simp] theorem State.memPut_islset (s : State) (a : Nat) (bs : List Byte) : (s.memPut a bs).islset = s.islset := rfl
@[simp] theorem State.memPut_islcap (s : State) (a : Nat) (bs : List Byte) : (s.memPut a bs).islcap = s.islcap := rfl
@[simp] theorem State.memPut_stage (s : State) (a : Nat) (bs : List Byte) : (s.memPut a bs).stage = s.stage := rfl
@[simp] theorem State.memPut_isReady (s : State) (a : Nat) (bs : List Byte) : (s.memPut a bs).isReady = s.isReady := rfl
@[simp] theorem State.memPut_intpend (s : State) (a : Nat) (bs : List Byte) : (s.memPut a bs).intpend = s.intpend := rfl
@[simp] theorem State.memPut_hwin (s : State) (a : Nat) (bs : List Byte) : (s.memPut a bs).hwin = s.hwin := rfl
@[simp] theorem State.memPut_reeldesc (s : State) (a : Nat) (bs : List Byte) : (s.memPut a bs).reeldesc = s.reeldesc := rfl
@[simp] theorem State.memPut_reel (s : State) (a : Nat) (bs : List Byte) : (s.memPut a bs).reel = s.reel := rfl
@[simp] theorem State.memPut_reelst (s : State) (a : Nat) (bs : List Byte) : (s.memPut a bs).reelst = s.reelst := rfl
@[simp] theorem State.memPut_flash (s : State) (a : Nat) (bs : List Byte) : (s.memPut a bs).flash = s.flash := rfl
@[simp] theorem State.memPut_region (s : State) (a : Nat) (bs : List Byte) : (s.memPut a bs).region = s.region := rfl
@[simp] theorem State.memPut_nextRegion (s : State) (a : Nat) (bs : List Byte) : (s.memPut a bs).nextRegion = s.nextRegion := rfl
@[simp] theorem State.memPut_ngmsg (s : State) (a : Nat) (bs : List Byte) : (s.memPut a bs).ngmsg = s.ngmsg := rfl

/-! ### A stream put into its core -/

@[simp] theorem Core.setStream_stream (c : Core) (x : Bool) (t : Stream) : (c.setStream x t).stream x = t := by
  cases x <;> rfl

theorem Core.setStream_stream_ne (c : Core) (x : Bool) (t : Stream) : (c.setStream x t).stream (!x) = c.stream (!x) := by
  cases x <;> rfl

@[simp] theorem Core.setStream_level (c : Core) (x : Bool) (t : Stream) : (c.setStream x t).level = c.level := by
  cases x <;> rfl

@[simp] theorem Core.setStream_cyc (c : Core) (x : Bool) (t : Stream) : (c.setStream x t).cyc = c.cyc := by
  cases x <;> rfl

@[simp] theorem Core.setStream_aFrom (c : Core) (x : Bool) (t : Stream) : (c.setStream x t).aFrom = c.aFrom := by
  cases x <;> rfl

@[simp] theorem Core.setStream_allFrom (c : Core) (x : Bool) (t : Stream) : (c.setStream x t).allFrom = c.allFrom := by
  cases x <;> rfl

@[simp] theorem Core.setStream_g (c : Core) (x : Bool) (t : Stream) : (c.setStream x t).g = c.g := by
  cases x <;> rfl

@[simp] theorem Core.setStream_s (c : Core) (x : Bool) (t : Stream) : (c.setStream x t).s = c.s := by
  cases x <;> rfl

@[simp] theorem Core.setStream_v (c : Core) (x : Bool) (t : Stream) : (c.setStream x t).v = c.v := by
  cases x <;> rfl

@[simp] theorem Core.setStream_pa (c : Core) (x : Bool) (t : Stream) : (c.setStream x t).pa = c.pa := by
  cases x <;> rfl

@[simp] theorem Core.setStream_px (c : Core) (x : Bool) (t : Stream) : (c.setStream x t).px = c.px := by
  cases x <;> rfl

@[simp] theorem Core.setStream_t (c : Core) (x : Bool) (t : Stream) : (c.setStream x t).t = c.t := by
  cases x <;> rfl

@[simp] theorem Core.setStream_tc (c : Core) (x : Bool) (t : Stream) : (c.setStream x t).tc = c.tc := by
  cases x <;> rfl

@[simp] theorem Core.setStream_presG (c : Core) (x : Bool) (t : Stream) : (c.setStream x t).presG = c.presG := by
  cases x <;> rfl

@[simp] theorem Core.setStream_presV (c : Core) (x : Bool) (t : Stream) : (c.setStream x t).presV = c.presV := by
  cases x <;> rfl

@[simp] theorem Core.setStream_pends (c : Core) (x : Bool) (t : Stream) : (c.setStream x t).pends = c.pends := by
  cases x <;> rfl

@[simp] theorem Core.setStream_aq (c : Core) (x : Bool) (t : Stream) : (c.setStream x t).aq = c.aq := by
  cases x <;> rfl

@[simp] theorem Core.setStream_xq (c : Core) (x : Bool) (t : Stream) : (c.setStream x t).xq = c.xq := by
  cases x <;> rfl

@[simp] theorem Core.setStream_bqa (c : Core) (x : Bool) (t : Stream) : (c.setStream x t).bqa = c.bqa := by
  cases x <;> rfl

@[simp] theorem Core.setStream_bqx (c : Core) (x : Bool) (t : Stream) : (c.setStream x t).bqx = c.bqx := by
  cases x <;> rfl

@[simp] theorem Core.setStream_inbox (c : Core) (x : Bool) (t : Stream) : (c.setStream x t).inbox = c.inbox := by
  cases x <;> rfl

@[simp] theorem Core.setStream_held (c : Core) (x : Bool) (t : Stream) : (c.setStream x t).held = c.held := by
  cases x <;> rfl

@[simp] theorem Core.setStream_mail (c : Core) (x : Bool) (t : Stream) : (c.setStream x t).mail = c.mail := by
  cases x <;> rfl

@[simp] theorem Core.setStream_heldMail (c : Core) (x : Bool) (t : Stream) : (c.setStream x t).heldMail = c.heldMail := by
  cases x <;> rfl

@[simp] theorem Core.setStream_lm (c : Core) (x : Bool) (t : Stream) : (c.setStream x t).lm = c.lm := by
  cases x <;> rfl

@[simp] theorem Core.setStream_lmFull (c : Core) (x : Bool) (t : Stream) : (c.setStream x t).lmFull = c.lmFull := by
  cases x <;> rfl

@[simp] theorem Core.setStream_code (c : Core) (x : Bool) (t : Stream) : (c.setStream x t).code = c.code := by
  cases x <;> rfl

@[simp] theorem Core.setStream_key (c : Core) (x : Bool) (t : Stream) : (c.setStream x t).key = c.key := by
  cases x <;> rfl

@[simp] theorem Core.setStream_vflags (c : Core) (x : Bool) (t : Stream) : (c.setStream x t).vflags = c.vflags := by
  cases x <;> rfl

@[simp] theorem Core.setStream_tctr (c : Core) (x : Bool) (t : Stream) : (c.setStream x t).tctr = c.tctr := by
  cases x <;> rfl

@[simp] theorem Core.setStream_copies (c : Core) (x : Bool) (t : Stream) : (c.setStream x t).copies = c.copies := by
  cases x <;> rfl

@[simp] theorem Core.setStream_bars (c : Core) (x : Bool) (t : Stream) : (c.setStream x t).bars = c.bars := by
  cases x <;> rfl

@[simp] theorem Core.setStream_xbarAt (c : Core) (x : Bool) (t : Stream) : (c.setStream x t).xbarAt = c.xbarAt := by
  cases x <;> rfl

@[simp] theorem Core.setStream_sv (c : Core) (x : Bool) (t : Stream) : (c.setStream x t).sv = c.sv := by
  cases x <;> rfl

@[simp] theorem Core.setStream_task (c : Core) (x : Bool) (t : Stream) : (c.setStream x t).task = c.task := by
  cases x <;> rfl

end Sys2Proof.Machine
end

