-- ==== Sys2Proof/Laws/Issue.lean ====
section
/-! SUPPORT. What the shared operations of issue can do: past the checks an instruction is what its meaning says; a retiring, a
transferring, a stalling and a trapping instruction each answer a next state. -/

namespace Sys2Proof.Machine

/-- What is kept of an instruction's guard while it waits (05 R131): the same outcome, or the same next state with the guard kept. -/
theorem keepGuard_cases (g : Nat) (o : Out) :
    keepGuard g o = o ∨ ∃ t, o = .next t ∧ keepGuard g o = .next (t.setSt { t.st with guarded := some g }) := by
  unfold keepGuard
  split
  · split
    · exact .inr ⟨_, rfl, rfl⟩
    · exact .inl rfl
  · exact .inl rfl

/-- An outcome that leaves no wait is kept as it is. -/
theorem keepGuard_eq {g : Nat} {t : State} (h : t.st.waitFrom = none) : keepGuard g (.next t) = .next t := by
  simp [keepGuard, h]

/-- A next state is kept as one. -/
theorem keepGuard_next {g : Nat} {o : Out} (h : ∃ t, o = .next t) : ∃ t, keepGuard g o = .next t := by
  rcases keepGuard_cases g o with e | ⟨t, _, e⟩
  · rwa [e]
  · exact ⟨_, e⟩

/-- An instruction that passes steps 1 to 5 goes on, and keeps its guard while it waits. -/
theorem issue_eq {i : Instr} {s : State} (h : s.issues i) (k : State → Out) :
    issue i s k = keepGuard (s.laneMask i.hdr) (k s) := by
  obtain ⟨h1, h2 | ⟨h2, h3, h4, h5⟩⟩ := h
  · simp [issue, h1, h2]
  · simp only [issue, h1, h2, h3, h4, h5]
    simp

/-- An instruction that passes step 6 executes. -/
theorem withNeeds_eq {n : Needs} {s : State} (h : s.serves n) (k : State → Out) : withNeeds n s k = k s := by
  obtain ⟨h1, h2⟩ := h
  simp [withNeeds, h1, h2]

/-- What `issue` can do: a trap of steps 1 to 3, a stall, STALL_SHORT for the guard, the rest, or a failed guard. -/
theorem issue_cases (i : Instr) (s : State) (k : State → Out) :
    (∃ c, s.refusal i = some c ∧ issue i s k = trap c 0 0 0 s) ∨ issue i s k = stall s ∨
    (∃ r, issue i s k = trap 0x04 0 0 (regInfo r) s) ∨ issue i s k = keepGuard (s.laneMask i.hdr) (k s) ∨
    (s.guard i.hdr = false ∧ issue i s k = retire i.hdr s) := by
  simp only [issue]
  split
  · exact .inl ⟨_, ‹_›, rfl⟩
  · split
    · exact .inr (.inr (.inr (.inl rfl)))
    · split
      · exact .inr (.inl rfl)
      · split
        · exact .inr (.inl rfl)
        · split
          · exact .inr (.inr (.inl ⟨_, rfl⟩))
          · split
            · exact .inr (.inr (.inr (.inl rfl)))
            · next h => exact .inr (.inr (.inr (.inr ⟨by simp_all, rfl⟩)))

/-- What `withNeeds` can do: a stall, with or without a stage, STALL_SHORT, or the rest. -/
theorem withNeeds_cases (n : Needs) (s : State) (k : State → Out) :
    (∃ g, withNeeds n s k = stallAt g s) ∨ withNeeds n s k = stall s ∨
    (∃ r, withNeeds n s k = trap 0x04 0 0 (regInfo r) s) ∨ withNeeds n s k = k s := by
  unfold withNeeds
  split
  · split
    · exact .inl ⟨_, rfl⟩
    · split
      · exact .inl ⟨_, rfl⟩
      · exact .inr (.inl rfl)
  · split
    · exact .inr (.inr (.inl ⟨_, rfl⟩))
    · exact .inr (.inr (.inr rfl))

/-! ### Each end of an instruction is a next state -/

theorem retire_next (h : Hdr) (s : State) : ∃ t, retire h s = .next t := ⟨_, rfl⟩
theorem transfer_next (h : Hdr) (d : Nat) (s : State) : ∃ t, transfer h d s = .next t := ⟨_, rfl⟩
theorem stall_next (s : State) : ∃ t, stall s = .next t := ⟨_, rfl⟩
theorem stallAt_next (g : Stage) (s : State) : ∃ t, stallAt g s = .next t := ⟨_, rfl⟩
theorem trap_next (c k m i : Nat) (s : State) : ∃ t, trap c k m i s = .next t := ⟨_, rfl⟩

/-- `issue` answers a next state where the rest does. -/
theorem issue_next {i : Instr} {s : State} {k : State → Out} (h : ∃ t, k s = .next t) : ∃ t, issue i s k = .next t := by
  rcases issue_cases i s k with ⟨c, _, e⟩ | e | ⟨r, e⟩ | e | ⟨_, e⟩ <;> rw [e]
  · exact trap_next ..
  · exact stall_next ..
  · exact trap_next ..
  · exact keepGuard_next h
  · exact retire_next ..

/-- `withNeeds` answers a next state where the rest does. -/
theorem withNeeds_next {n : Needs} {s : State} {k : State → Out} (h : ∃ t, k s = .next t) :
    ∃ t, withNeeds n s k = .next t := by
  rcases withNeeds_cases n s k with ⟨g, e⟩ | e | ⟨r, e⟩ | e <;> rw [e]
  · exact stallAt_next ..
  · exact stall_next ..
  · exact trap_next ..
  · exact h

end Sys2Proof.Machine
end

