-- ==== Sys2Proof/Laws/Store.lean ====
section
/-! SUPPORT. What a sparse table reads as after a write, and that every operation on it keeps the canonical form. -/

namespace Sys2Proof.Machine

variable {α : Type} [DecidableEq α]

/-! ### Reads after writes -/

omit [DecidableEq α] in
theorem tget_tdel_same (d : α) (k : Nat) (t : Table α) : tget d k (tdel k t) = d := by
  induction t with
  | nil => rfl
  | cons e t ih =>
    obtain ⟨j, v⟩ := e
    by_cases h : j = k <;> simp [tdel, tget, h, ih]

omit [DecidableEq α] in
theorem tget_tdel_ne (d : α) {j k : Nat} (h : j ≠ k) (t : Table α) : tget d j (tdel k t) = tget d j t := by
  induction t with
  | nil => rfl
  | cons e t ih =>
    obtain ⟨i, v⟩ := e
    by_cases hk : i = k
    · subst hk; simp [tdel, tget, ih, Ne.symm h]
    · by_cases hj : i = j <;> simp [tdel, tget, hk, hj, ih]
      all_goals (subst hj; simp [hk, tget])

omit [DecidableEq α] in
theorem tget_tins_same (d : α) (k : Nat) (v : α) (t : Table α) (h : ∀ e ∈ t, e.1 ≠ k) : tget d k (tins k v t) = v := by
  induction t with
  | nil => simp [tins, tget]
  | cons e t ih =>
    obtain ⟨j, w⟩ := e
    have hj : j ≠ k := h (j, w) (by simp)
    have ht : ∀ e ∈ t, e.1 ≠ k := fun e he => h e (by simp [he])
    by_cases hl : k < j <;> simp [tins, tget, hl, hj, ih ht]

omit [DecidableEq α] in
theorem tget_tins_ne (d : α) {j k : Nat} (h : j ≠ k) (v : α) (t : Table α) : tget d j (tins k v t) = tget d j t := by
  induction t with
  | nil => simp [tins, tget, Ne.symm h]
  | cons e t ih =>
    obtain ⟨i, w⟩ := e
    by_cases hl : k < i <;> simp [tins, tget, hl, Ne.symm h, ih]

omit [DecidableEq α] in
theorem tdel_keys (k : Nat) (t : Table α) : ∀ e ∈ tdel k t, e ∈ t ∧ e.1 ≠ k := by
  induction t with
  | nil => simp [tdel]
  | cons e t ih =>
    obtain ⟨j, v⟩ := e
    intro e he
    by_cases h : j = k
    · simp only [tdel, h, if_true] at he
      exact ⟨List.mem_cons_of_mem _ (ih e he).1, (ih e he).2⟩
    · simp only [tdel, h, if_false, List.mem_cons] at he
      rcases he with rfl | he
      · exact ⟨by simp, h⟩
      · exact ⟨List.mem_cons_of_mem _ (ih e he).1, (ih e he).2⟩

/-- A table reads the value written. -/
@[simp] theorem tget_tput_same (d : α) (k : Nat) (v : α) (t : Table α) : tget d k (tput d k v t) = v := by
  unfold tput
  split
  · next h => rw [h]; exact tget_tdel_same d k t
  · exact tget_tins_same d k v _ (fun e he => (tdel_keys k t e he).2)

/-- A write leaves every other key. -/
theorem tget_tput_ne (d : α) {j k : Nat} (h : j ≠ k) (v : α) (t : Table α) : tget d j (tput d k v t) = tget d j t := by
  unfold tput
  split
  · exact tget_tdel_ne d h t
  · rw [tget_tins_ne d h, tget_tdel_ne d h]

/-- A write of a run of keys leaves every key outside it. -/
theorem tget_tputs_out (d : α) (j k : Nat) (vs : List α) (t : Table α) (h : j < k ∨ k + vs.length ≤ j) :
    tget d j (tputs d k vs t) = tget d j t := by
  induction vs generalizing k t with
  | nil => rfl
  | cons v vs ih =>
    simp only [List.length_cons] at h
    rw [tputs, ih (k + 1) _ (by omega), tget_tput_ne d (by omega)]

/-- A write of a run of keys reads back. -/
theorem tget_tputs_in (d : α) (k i : Nat) (vs : List α) (t : Table α) (h : i < vs.length) :
    tget d (k + i) (tputs d k vs t) = vs[i] := by
  induction vs generalizing k t i with
  | nil => simp at h
  | cons v vs ih =>
    cases i with
    | zero => rw [tputs, Nat.add_zero, tget_tputs_out d k (k + 1) vs _ (by omega)]; simp
    | succ i =>
      have := ih (k + 1) i (tput d k v t) (by simpa using h)
      simpa [tputs, Nat.add_assoc, Nat.add_comm 1 i] using this

omit [DecidableEq α] in
theorem tgets_length (d : α) (k n : Nat) (t : Table α) : (tgets d k n t).length = n := by
  induction n generalizing k with
  | zero => rfl
  | succ n ih => simp [tgets, ih]

/-- What a run of keys reads as after it was written. -/
theorem tgets_tputs (d : α) (k : Nat) (vs : List α) (t : Table α) : tgets d k vs.length (tputs d k vs t) = vs := by
  induction vs generalizing k t with
  | nil => rfl
  | cons v vs ih =>
    simp only [List.length_cons, tgets, tputs]
    rw [ih (k + 1), tget_tputs_out d k (k + 1) vs _ (by omega)]
    simp

/-! ### The canonical form -/

/-- The canonical form as keys in order above a bound and no default value. -/
def tabove (d : α) (b : Nat) : Table α → Prop
  | [] => True
  | (j, v) :: t => b ≤ j ∧ v ≠ d ∧ tabove d (j + 1) t

theorem twf_iff (d : α) (t : Table α) : twf d t = true ↔ tabove d 0 t := by
  suffices h : ∀ b (t : Table α), (∀ j v r, t = (j, v) :: r → b ≤ j) → (twf d t = true ↔ tabove d b t) from
    h 0 t (fun _ _ _ _ => Nat.zero_le _)
  intro b t
  induction t generalizing b with
  | nil => intro _; simp [twf, tabove]
  | cons e t ih =>
    obtain ⟨j, v⟩ := e
    intro hb
    have hbj := hb j v t rfl
    cases t with
    | nil => simp [twf, tabove, hbj]
    | cons f t =>
      obtain ⟨k, w⟩ := f
      simp only [twf, Bool.and_eq_true, decide_eq_true_eq]
      constructor
      · rintro ⟨⟨hjk, hv⟩, ht⟩
        exact ⟨hbj, hv, (ih (j + 1) (fun _ _ _ e => by cases e; omega)).mp ht⟩
      · rintro ⟨_, hv, ht⟩
        have hjk : j + 1 ≤ k := ht.1
        exact ⟨⟨hjk, hv⟩, (ih (j + 1) (fun _ _ _ e => by cases e; omega)).mpr ht⟩

omit [DecidableEq α] in
theorem tabove_mono (d : α) {a b : Nat} (h : a ≤ b) (t : Table α) (ht : tabove d b t) : tabove d a t := by
  cases t with
  | nil => trivial
  | cons e t => exact ⟨Nat.le_trans h ht.1, ht.2⟩

omit [DecidableEq α] in
theorem tabove_tdel (d : α) (b k : Nat) (t : Table α) (h : tabove d b t) : tabove d b (tdel k t) := by
  induction t generalizing b with
  | nil => trivial
  | cons e t ih =>
    obtain ⟨j, v⟩ := e
    obtain ⟨h1, h2, h3⟩ := h
    by_cases hk : j = k
    · simp only [tdel, hk, if_true]; exact tabove_mono d (by omega) _ (ih (j + 1) h3)
    · simp only [tdel, hk, if_false]; exact ⟨h1, h2, ih (j + 1) h3⟩

omit [DecidableEq α] in
theorem tabove_tins (d : α) (b k : Nat) (v : α) (t : Table α) (h : tabove d b t) (hb : b ≤ k) (hv : v ≠ d)
    (hk : ∀ e ∈ t, e.1 ≠ k) : tabove d b (tins k v t) := by
  induction t generalizing b with
  | nil => exact ⟨hb, hv, trivial⟩
  | cons e t ih =>
    obtain ⟨j, w⟩ := e
    obtain ⟨h1, h2, h3⟩ := h
    have hj : j ≠ k := hk (j, w) (by simp)
    by_cases hl : k < j
    · simp only [tins, hl, if_true]; exact ⟨hb, hv, hl, h2, h3⟩
    · simp only [tins, hl, if_false]
      exact ⟨h1, h2, ih (j + 1) h3 (by omega) (fun e he => hk e (by simp [he]))⟩

/-- A write keeps the canonical form. -/
theorem twf_tput (d : α) (k : Nat) (v : α) (t : Table α) (h : twf d t = true) : twf d (tput d k v t) = true := by
  rw [twf_iff] at *
  unfold tput
  split
  · exact tabove_tdel d 0 k t h
  · next hv => exact tabove_tins d 0 k v _ (tabove_tdel d 0 k t h) (Nat.zero_le _) hv (fun e he => (tdel_keys k t e he).2)

/-- A key taken out keeps the canonical form. -/
theorem twf_tdel (d : α) (k : Nat) (t : Table α) (h : twf d t = true) : twf d (tdel k t) = true := by
  rw [twf_iff] at *; exact tabove_tdel d 0 k t h

/-- A write of a run of keys keeps the canonical form. -/
theorem twf_tputs (d : α) (k : Nat) (vs : List α) (t : Table α) (h : twf d t = true) : twf d (tputs d k vs t) = true := by
  induction vs generalizing k t with
  | nil => exact h
  | cons v vs ih => exact ih (k + 1) _ (twf_tput d k v t h)

/-! ### Little-endian bytes -/

@[simp] theorem leBytes_length (v n : Nat) : (leBytes v n).length = n := by
  induction n generalizing v with
  | zero => rfl
  | succ n ih => simp [leBytes, ih]

theorem leNat_leBytes (v n : Nat) : leNat (leBytes v n) = v % 256 ^ n := by
  induction n generalizing v with
  | zero => simp [leBytes, leNat, Nat.mod_one]
  | succ n ih =>
    have h : (BitVec.ofNat 8 v).toNat = v % 256 := BitVec.toNat_ofNat v 8
    rw [leBytes, leNat, ih, h, Nat.pow_succ', Nat.mod_mul]

end Sys2Proof.Machine
end

