-- ==== Sys2Proof/Laws/Core.lean ====
section
/-! SUPPORT. Reading a core, a stream or a register after a write of it, and what writing a result, retiring and transferring leave
of each. -/

namespace Sys2Proof.Machine

/-! ### Cores and streams -/

theorem State.core_setCore (s : State) (n m : Nat) (c : Core) : (s.setCore n c).core m = if m = n then c else s.core m := by
  unfold State.core State.setCore
  split
  · subst_vars; exact tget_tput_same ..
  · exact tget_tput_ne _ ‹_› _ _

@[simp] theorem State.me_setMe (s : State) (c : Core) : (s.setMe c).me = c := by
  simp [State.me, State.setMe, State.core_setCore]

theorem Core.stream_setStream (c : Core) (x y : Bool) (t : Stream) :
    (c.setStream x t).stream y = if x = y then t else c.stream y := by
  unfold Core.stream Core.setStream; cases x <;> cases y <;> rfl

@[simp] theorem Core.stream_issued (c : Core) (x y : Bool) : (c.issued x).stream y = c.stream y := by
  cases x <;> cases y <;> rfl

@[simp] theorem State.st_setSt (s : State) (t : Stream) : (s.setSt t).st = t := by
  have h : (s.setSt t).cur = s.cur := rfl
  simp only [State.st, State.setSt, State.me_setMe]
  rw [show (s.setMe (s.me.setStream s.cur.x t)).cur = s.cur from rfl, Core.stream_setStream]; simp

@[simp] theorem State.me_setSt (s : State) (t : Stream) : (s.setSt t).me = s.me.setStream s.cur.x t := by
  simp [State.setSt]

theorem State.onlyMe_setMe (s : State) (c : Core) : s.onlyMe (s.setMe c) := by
  refine ⟨rfl, fun n hn => ?_⟩
  simp [State.setMe, State.core_setCore, hn]

theorem State.onlyMe_refl (s : State) : s.onlyMe s := ⟨rfl, fun _ _ => rfl⟩

theorem State.onlyMe_trans {s t u : State} (h : s.onlyMe t) (k : t.onlyMe u) : s.onlyMe u := by
  obtain ⟨h1, h2⟩ := h
  obtain ⟨k1, k2⟩ := k
  have hc : t.cur = s.cur := by rw [← h1]
  refine ⟨?_, fun n hn => ?_⟩
  · rw [← h1]; conv_rhs => rw [← k1]
  · rw [k2 n (by rwa [hc]), h2 n hn]

/-! ### Ends of an instruction -/

/-- What a retiring instruction leaves. -/
theorem retire_spec (h : Hdr) (s : State) : ∃ t, retire h s = .next t ∧ s.wentOn t h ∧ s.onlyMe t ∧
    t.me = (s.me.setStream s.cur.x (s.st.advance s.wrap s.now h.stall.toNat (s.me.level == .s))).issued s.cur.x := by
  refine ⟨_, rfl, ⟨rfl, ?_, ?_, ?_⟩, State.onlyMe_setMe .., by simp⟩ <;>
    simp only [State.st, State.me_setMe] <;>
    rw [show ∀ c, (s.setMe c).cur = s.cur from fun _ => rfl, Core.stream_issued, Core.stream_setStream, if_pos rfl]
  · simp only [Stream.advance, Stream.left, State.nextSlot]
    split <;> simp_all [State.st]
  · simp only [Stream.advance, Stream.left]
  · simp only [Stream.advance, Stream.left]

/-- What a transferring instruction leaves. -/
theorem transfer_spec (h : Hdr) (d : Nat) (s : State) : ∃ t, transfer h d s = .next t ∧ s.wentTo t h d ∧ s.onlyMe t ∧
    t.me = (s.me.setStream s.cur.x (s.st.left (s.now + 3 + h.stall.toNat) d)).issued s.cur.x := by
  refine ⟨_, rfl, ⟨rfl, ?_, ?_, ?_⟩, State.onlyMe_setMe .., by simp⟩ <;>
    simp only [State.st, State.me_setMe] <;>
    rw [show ∀ c, (s.setMe c).cur = s.cur from fun _ => rfl, Core.stream_issued, Core.stream_setStream, if_pos rfl] <;> rfl

/-- What a waiting instruction leaves. -/
theorem stall_spec (s : State) : ∃ t, stall s = .next t ∧ s.waited t ∧ s.onlyMe t ∧
    t.me = s.me.setStream s.cur.x { s.st with ready := s.now + 1, waitFrom := some (s.st.waitFrom.getD s.now) } := by
  refine ⟨_, rfl, ⟨rfl, by simp, by simp⟩, State.onlyMe_setMe .., by simp⟩

/-! ### Registers -/

@[simp] theorem Core.pends_setStream (c : Core) (x : Bool) (t : Stream) : (c.setStream x t).pends = c.pends := by
  cases x <;> rfl

@[simp] theorem Core.pends_issued (c : Core) (x : Bool) : (c.issued x).pends = c.pends := by cases x <;> rfl

@[simp] theorem Core.reg_setStream (c : Core) (x : Bool) (t : Stream) (r : Reg) : (c.setStream x t).reg r = c.reg r := by
  cases x <;> cases r <;> rfl

@[simp] theorem Core.reg_issued (c : Core) (x : Bool) (r : Reg) : (c.issued x).reg r = c.reg r := by
  cases x <;> cases r <;> rfl

/-- The file that a register value comes from is all that its writes need: two cores with the same registers stay so. -/
def sameRegs (c d : Core) : Prop :=
  c.g = d.g ∧ c.s = d.s ∧ c.v = d.v ∧ c.pa = d.pa ∧ c.px = d.px ∧ c.t = d.t ∧ c.key = d.key

theorem sameRegs_reg {c d : Core} (h : sameRegs c d) (r : Reg) : c.reg r = d.reg r := by
  obtain ⟨h1, h2, h3, h4, h5, h6, h7⟩ := h
  cases r <;> simp [Core.reg, *]

theorem sameRegs_setReg {c d : Core} (h : sameRegs c d) (r : Reg) (m v : Nat) : sameRegs (c.setReg r m v) (d.setReg r m v) := by
  obtain ⟨h1, h2, h3, h4, h5, h6, h7⟩ := h
  cases r <;> simp only [Core.setReg, Core.setTile] <;> (try split) <;> simp [sameRegs, *]

theorem sameRegs_fold {c d : Core} (h : sameRegs c d) (ls : List Landing) :
    sameRegs (ls.foldl (fun c l => c.setReg l.dst l.mask l.val) c) (ls.foldl (fun c l => c.setReg l.dst l.mask l.val) d) := by
  induction ls generalizing c d with
  | nil => exact h
  | cons l ls ih => exact ih (sameRegs_setReg h ..)

/-- What a register comes to hold depends on the registers, the pending results and the landings alone. -/
theorem Core.comes_congr {c d : Core} {x : Bool} {r : Reg} (h : sameRegs c d) (hp : c.pends = d.pends)
    (hl : (c.stream x).landings = (d.stream x).landings) : c.comes x r = d.comes x r := by
  have e : sameRegs (c.landed x r) (d.landed x r) := by unfold Core.landed; rw [hl]; exact sameRegs_fold h _
  unfold Core.comes
  rw [sameRegs_reg h, hp, sameRegs_reg e]
  split
  · rfl
  · split
    · rfl
    · exact sameRegs_reg (sameRegs_setReg e ..) _
    · rfl

theorem sameRegs_setStream (c : Core) (x : Bool) (t : Stream) : sameRegs (c.setStream x t) c := by cases x <;> exact ⟨rfl, rfl, rfl, rfl, rfl, rfl, rfl⟩
theorem sameRegs_issued (c : Core) (x : Bool) : sameRegs (c.issued x) c := by cases x <;> exact ⟨rfl, rfl, rfl, rfl, rfl, rfl, rfl⟩

theorem sameRegs_trans {c d e : Core} (h : sameRegs c d) (k : sameRegs d e) : sameRegs c e := by
  obtain ⟨h1, h2, h3, h4, h5, h6, h7⟩ := h
  obtain ⟨k1, k2, k3, k4, k5, k6, k7⟩ := k
  exact ⟨h1.trans k1, h2.trans k2, h3.trans k3, h4.trans k4, h5.trans k5, h6.trans k6, h7.trans k7⟩

/-- Leaving an instruction changes no value that a register comes to hold. -/
theorem Core.comes_leave (c : Core) (x y : Bool) (t : Stream) (r : Reg) (h : t.landings = (c.stream x).landings) :
    ((c.setStream x t).issued x).comes y r = c.comes y r := by
  refine Core.comes_congr (sameRegs_trans (sameRegs_issued ..) (sameRegs_setStream ..)) (by simp) ?_
  rw [Core.stream_issued, Core.stream_setStream]
  split
  · subst_vars; exact h
  · rfl

/-- Which register files a write touches. -/
theorem Core.setReg_file (c : Core) (q : Reg) (m v : Nat) :
    ((∀ i, q ≠ .g i) → (c.setReg q m v).g = c.g) ∧ ((∀ i, q ≠ .s i) → (c.setReg q m v).s = c.s) ∧
    ((∀ i, q ≠ .v i) → (c.setReg q m v).v = c.v) ∧ ((∀ i, q ≠ .pa i) → (c.setReg q m v).pa = c.pa) ∧
    ((∀ i, q ≠ .px i) → (c.setReg q m v).px = c.px) ∧ ((∀ i, q ≠ .t i) → (c.setReg q m v).t = c.t) ∧
    ((∀ i, q ≠ .key i) → (c.setReg q m v).key = c.key) := by
  cases q <;> simp only [Core.setReg, Core.setTile] <;> (try split) <;> simp

/-- Writing one register leaves every other. -/
theorem Core.reg_setReg_ne (c : Core) {q r : Reg} (h : r ≠ q) (hq : ∀ i, q ≠ .t i) (m v : Nat) :
    (c.setReg q m v).reg r = c.reg r := by
  obtain ⟨h1, h2, h3, h4, h5, h6, h7⟩ := Core.setReg_file c q m v
  cases r with
  | g i =>
    simp only [Core.reg]
    cases q with
    | g j => simp only [Core.setReg]; rw [tget_tput_ne _ (by rintro rfl; exact h rfl)]
    | _ => rw [h1 (by simp)]
  | s i =>
    simp only [Core.reg]
    cases q with
    | s j => simp only [Core.setReg]; rw [tget_tput_ne _ (by rintro rfl; exact h rfl)]
    | _ => rw [h2 (by simp)]
  | v i =>
    simp only [Core.reg]
    cases q with
    | v j => simp only [Core.setReg]; rw [tget_tput_ne _ (by rintro rfl; exact h rfl)]
    | _ => rw [h3 (by simp)]
  | pa i =>
    simp only [Core.reg]
    cases q with
    | pa j =>
      simp only [Core.setReg]
      by_cases hj : j = 0
      · rw [if_pos hj]
      · rw [if_neg hj, tget_tput_ne _ (by rintro rfl; exact h rfl)]
    | _ => rw [h4 (by simp)]
  | px i =>
    simp only [Core.reg]
    cases q with
    | px j =>
      simp only [Core.setReg]
      by_cases hj : j = 0
      · rw [if_pos hj]
      · rw [if_neg hj, tget_tput_ne _ (by rintro rfl; exact h rfl)]
    | _ => rw [h5 (by simp)]
  | t i => simp only [Core.reg]; rw [h6 hq]
  | key i =>
    simp only [Core.reg]
    cases q with
    | key j => simp only [Core.setReg]; rw [tget_tput_ne _ (by rintro rfl; exact h rfl)]
    | _ => rw [h7 (by simp)]

/-- Writing a register leaves the pending results and the streams. -/
theorem Core.setReg_rest (c : Core) (q : Reg) (m v : Nat) :
    (c.setReg q m v).pends = c.pends ∧ ∀ x, (c.setReg q m v).stream x = c.stream x := by
  cases q <;> simp only [Core.setReg, Core.setTile] <;> (try split) <;> simp [Core.stream]

/-- A fold of writes to a register other than `r` leaves `r`. -/
theorem Core.reg_fold_ne (r : Reg) (ls : List Landing) (h : ∀ l ∈ ls, r ≠ l.dst ∧ ∀ i, l.dst ≠ .t i) (c : Core) :
    (ls.foldl (fun c l => c.setReg l.dst l.mask l.val) c).reg r = c.reg r := by
  induction ls generalizing c with
  | nil => rfl
  | cons l ls ih =>
    rw [List.foldl_cons, ih (fun k hk => h k (List.mem_cons_of_mem _ hk)),
      Core.reg_setReg_ne c (h l List.mem_cons_self).1 (h l List.mem_cons_self).2]

/-- A pending result gives nothing for a register that no result is pending for. -/
theorem Core.no_value {c : Core} {x : Bool} {r : Reg} (hp : c.pendingReg x r = false) :
    (c.pends.filter (fun p => p.x == x)).findSome? (fun p => p.value r) = none := by
  rw [List.findSome?_eq_none_iff]
  intro p hp'
  rw [List.mem_filter] at hp'
  have h1 : p.outs.find? (fun o => o.1 == r) = none := by
    rw [List.find?_eq_none]
    intro o ho hor
    simp only [Core.pendingReg, List.any_eq_false] at hp
    refine hp p hp'.1 ?_
    rw [Bool.and_eq_true, List.any_eq_true]
    exact ⟨hp'.2, o, ho, hor⟩
  simp [Pending.value, h1]

/-- A register without a pending result comes to hold what its landings leave. -/
theorem Core.comes_of_not_pending {c : Core} {x : Bool} {r : Reg} (hp : c.pendingReg x r = false) (h0 : r ≠ .pa 0 ∧ r ≠ .px 0) :
    c.comes x r = (c.landed x r).reg r := by
  unfold Core.comes
  rw [if_neg (by simp [h0]), Core.no_value hp]

/-- What a register comes to hold after a fixed-latency result for it, in the stream that wrote it. -/
theorem State.comes_writeFixed (s : State) {r : Reg} (m v lat : Nat) (hp : s.me.pendingReg s.cur.x r = false)
    (h0 : r ≠ .pa 0 ∧ r ≠ .px 0) :
    ∃ c : Core, (s.writeFixed r m v lat).me.comes s.cur.x r = (c.setReg r m v).reg r := by
  by_cases hc : lat ≤ 1 ∧ s.st.landings.filter (fun l => l.dst == r) = []
  · have e : s.writeFixed r m v lat = s.setMe (s.me.setReg r m v) := if_pos hc
    obtain ⟨h1, h2⟩ := Core.setReg_rest s.me r m v
    rw [e, State.me_setMe, Core.comes_of_not_pending (by unfold Core.pendingReg at *; rw [h1]; exact hp) h0]
    unfold Core.landed
    rw [h2]
    have h3 : List.filter (fun l => l.dst == r) (s.me.stream s.cur.x).landings = [] := hc.2
    rw [h3]
    exact ⟨s.me, rfl⟩
  · have e : ∃ k, s.writeFixed r m v lat =
        s.setSt { s.st with landings := s.st.landings ++ [{ dst := r, mask := m, val := v, lands := k }] } :=
      ⟨_, if_neg hc⟩
    obtain ⟨k, e⟩ := e
    rw [e, State.me_setSt, Core.comes_of_not_pending (by unfold Core.pendingReg at *; rw [Core.pends_setStream]; exact hp) h0]
    unfold Core.landed
    rw [Core.stream_setStream, if_pos rfl]
    simp only [List.filter_append, List.foldl_append]
    rw [List.filter_cons_of_pos (by simp), List.filter_nil, List.foldl_cons, List.foldl_nil]
    exact ⟨_, rfl⟩

end Sys2Proof.Machine
end

