-- ==== Sys2Proof/Laws/Scalar.lean ====
section
/-! SUPPORT. What reading operands, giving a result and the shapes of scalar instructions do. -/

namespace Sys2Proof.Machine

/-! ### What an operand's pop or push keeps -/

/-- Of a state only the current core's queues, mailbox and inbox have changed. -/
def onlyQueues (s t : State) : Prop :=
  s.onlyMe t ∧
  { t.me with aq := s.me.aq, xq := s.me.xq, bqa := s.me.bqa, bqx := s.me.bqx, inbox := s.me.inbox, mail := s.me.mail } = s.me

theorem onlyQueues_refl (s : State) : onlyQueues s s := ⟨s.onlyMe_refl, rfl⟩

theorem onlyQueues_trans {s t u : State} (h : onlyQueues s t) (k : onlyQueues t u) : onlyQueues s u := by
  refine ⟨State.onlyMe_trans h.1 k.1, ?_⟩
  obtain ⟨_, h⟩ := h
  obtain ⟨_, k⟩ := k
  rw [← h]
  conv_rhs => rw [← k]

theorem onlyQueues_setMe (s : State) (c : Core)
    (h : { c with aq := s.me.aq, xq := s.me.xq, bqa := s.me.bqa, bqx := s.me.bqx, inbox := s.me.inbox, mail := s.me.mail } = s.me) :
    onlyQueues s (s.setMe c) := ⟨State.onlyMe_setMe .., by rwa [State.me_setMe]⟩

theorem onlyQueues_pop (s : State) (k : Nat) : onlyQueues s (s.setMe (s.me.pop k).2) := by
  apply onlyQueues_setMe
  unfold Core.pop
  split
  · split <;> rfl
  · split
    · split <;> rfl
    · dsimp only; split
      · unfold Core.setFifo; split <;> rfl
      · rfl

theorem onlyQueues_push (s : State) (k : Nat) (v : Word) : onlyQueues s (s.setMe (s.me.push k v)) := by
  apply onlyQueues_setMe
  unfold Core.push Core.setFifo
  dsimp only; split <;> rfl

theorem onlyQueues_take (s : State) (d : Desc) : onlyQueues s (s.take d).2 := by
  cases d <;> first | exact onlyQueues_refl s | exact onlyQueues_pop s _

theorem onlyQueues_cur {s t : State} (h : onlyQueues s t) : t.cur = s.cur := by rw [← h.1.1]

theorem onlyQueues_st {s t : State} (h : onlyQueues s t) : t.st = s.st := by
  unfold State.st Core.stream
  rw [onlyQueues_cur h, ← h.2]

theorem onlyQueues_now {s t : State} (h : onlyQueues s t) : t.now = s.now := by
  unfold State.now; conv_rhs => rw [← h.2]

theorem onlyQueues_level {s t : State} (h : onlyQueues s t) : t.me.level = s.me.level := by
  conv_rhs => rw [← h.2]

theorem onlyQueues_pendingReg {s t : State} (h : onlyQueues s t) (x : Bool) (r : Reg) :
    t.me.pendingReg x r = s.me.pendingReg x r := by
  unfold Core.pendingReg; conv_rhs => rw [← h.2]

theorem onlyQueues_comes {s t : State} (h : onlyQueues s t) (x : Bool) (r : Reg) : t.me.comes x r = s.me.comes x r := by
  conv_rhs => rw [← h.2]
  exact Core.comes_congr ⟨rfl, rfl, rfl, rfl, rfl, rfl, rfl⟩ rfl (by cases x <;> rfl)

/-! ### Leaving an instruction after a state that keeps the stream -/

/-- Two states in which the current stream leaves its instruction alike. -/
def sameFlow (s t : State) : Prop :=
  t.cur = s.cur ∧ t.st.pc = s.st.pc ∧ t.st.loops = s.st.loops ∧ t.st.floor = s.st.floor ∧ t.now = s.now ∧
  t.me.level = s.me.level

theorem sameFlow_of_onlyQueues {s t : State} (h : onlyQueues s t) : sameFlow s t :=
  ⟨onlyQueues_cur h, by rw [onlyQueues_st h], by rw [onlyQueues_st h], by rw [onlyQueues_st h], onlyQueues_now h,
    onlyQueues_level h⟩

theorem sameFlow_trans {s t u : State} (h : sameFlow s t) (k : sameFlow t u) : sameFlow s u := by
  obtain ⟨h1, h2, h3, h4, h5, h6⟩ := h
  obtain ⟨k1, k2, k3, k4, k5, k6⟩ := k
  exact ⟨k1.trans h1, k2.trans h2, k3.trans h3, k4.trans h4, k5.trans h5, k6.trans h6⟩

theorem wentOn_of_sameFlow {s t u : State} {h : Hdr} (k : sameFlow s t) (w : t.wentOn u h) : s.wentOn u h := by
  obtain ⟨h1, h2, h3, h4, h5, h6⟩ := k
  obtain ⟨w1, w2, w3, w4⟩ := w
  refine ⟨w1.trans h1, ?_, by rw [w3, h5], w4⟩
  rw [w2]
  unfold State.nextSlot State.wrap
  rw [h1, h2, h3, h4, h6]

theorem sameFlow_pendNew (s : State) (o : List (Reg × Option Nat)) : sameFlow s (s.pendNew o) := by
  have hm : (s.pendNew o).me = { s.me with pends := s.me.pends ++ [{ id := s.nextId, x := s.cur.x, outs := o, masks := [] }] } := by
    unfold State.pendNew State.pendAs
    rw [State.me_setMe]; rfl
  have hs : (s.pendNew o).st = s.st := by
    unfold State.st; rw [hm]; rfl
  exact ⟨rfl, by rw [hs], by rw [hs], by rw [hs], by unfold State.now; rw [hm], by rw [hm]⟩

theorem sameFlow_writeFixed (s : State) (r : Reg) (m v lat : Nat) : sameFlow s (s.writeFixed r m v lat) := by
  by_cases hc : lat ≤ 1 ∧ s.st.landings.filter (fun l => l.dst == r) = []
  · have e : s.writeFixed r m v lat = s.setMe (s.me.setReg r m v) := if_pos hc
    obtain ⟨_, h2⟩ := Core.setReg_rest s.me r m v
    have hs : (s.writeFixed r m v lat).st = s.st := by
      rw [e]; unfold State.st; rw [State.me_setMe, h2]; rfl
    refine ⟨by rw [e]; rfl, by rw [hs], by rw [hs], by rw [hs], ?_, ?_⟩
    · rw [e]; unfold State.now; rw [State.me_setMe]
      cases r <;> simp only [Core.setReg, Core.setTile] <;> (try split) <;> rfl
    · rw [e, State.me_setMe]
      cases r <;> simp only [Core.setReg, Core.setTile] <;> (try split) <;> rfl
  · obtain ⟨k, e⟩ : ∃ k, s.writeFixed r m v lat =
        s.setSt { s.st with landings := s.st.landings ++ [{ dst := r, mask := m, val := v, lands := k }] } :=
      ⟨_, if_neg hc⟩
    have hs : (s.writeFixed r m v lat).st = { s.st with landings := s.st.landings ++ [{ dst := r, mask := m, val := v, lands := k }] } := by
      rw [e, State.st_setSt]
    refine ⟨by rw [e]; rfl, by rw [hs], by rw [hs], by rw [hs], ?_, ?_⟩
    · rw [e]; unfold State.now; rw [State.me_setSt]; cases s.cur.x <;> rfl
    · rw [e, State.me_setSt]; cases s.cur.x <;> rfl

theorem sameFlow_give (s : State) (d : Desc) (v : Word) (lat : Nat) (var : Bool) : sameFlow s (s.give d v lat var) := by
  have w (r : Reg) (v : Nat) : sameFlow s (s.writeReg r v lat var) := by
    unfold State.writeReg; split
    · exact sameFlow_pendNew ..
    · exact sameFlow_writeFixed ..
  cases d with
  | port c => exact sameFlow_of_onlyQueues (onlyQueues_push ..)
  | p i => simp only [State.give]; split <;> exact w ..
  | g i => exact w ..
  | s i => exact w ..
  | _ => exact ⟨rfl, rfl, rfl, rfl, rfl, rfl⟩

/-! ### The value a destination comes to hold -/

theorem comes_pendNew (s : State) {r : Reg} (v : Nat) (hp : s.me.pendingReg s.cur.x r = false) (h0 : r ≠ .pa 0 ∧ r ≠ .px 0) :
    (s.pendNew [(r, some v)]).me.comes s.cur.x r = v := by
  have hm : (s.pendNew [(r, some v)]).me = { s.me with pends := s.me.pends ++ [{ id := s.nextId, x := s.cur.x, outs := [(r, some v)], masks := [] }] } := by
    unfold State.pendNew State.pendAs
    rw [State.me_setMe]; rfl
  rw [hm]
  unfold Core.comes
  rw [if_neg (by simp [h0])]
  simp only [List.filter_append, List.findSome?_append, Core.no_value hp]
  simp [Pending.value]

/-- A scalar result reaches its destination, where the destination is free. -/
theorem holds_give (s : State) (d : Desc) (v : Word) (lat : Nat) (var : Bool)
    (h : ∀ r ∈ regOf s.cur.x d, s.me.pendingReg s.cur.x r = false) : (s.give d v lat var).holds d v := by
  have w (r : Reg) (m : Nat) (hp : s.me.pendingReg s.cur.x r = false) (h0 : r ≠ .pa 0 ∧ r ≠ .px 0)
      (hm : ∀ c : Core, (c.setReg r (fullMask r) m).reg r = m) : (s.writeReg r m lat var).me.comes s.cur.x r = m := by
    unfold State.writeReg; split
    · exact comes_pendNew s m hp h0
    · obtain ⟨c, e⟩ := State.comes_writeFixed s (fullMask r) m lat hp h0
      rw [e, hm]
  have hcur : (s.give d v lat var).cur = s.cur := (sameFlow_give s d v lat var).1
  cases d with
  | g i =>
    simp only [State.holds, hcur]
    refine w (.g i.toNat) v.toNat (h _ rfl) (by simp) (fun c => ?_)
    simp [Core.setReg, Core.reg]
  | s i =>
    simp only [State.holds, hcur]
    refine w (.s i.toNat) v.toNat (h _ rfl) (by simp) (fun c => ?_)
    simp [Core.setReg, Core.reg]
  | p i =>
    simp only [State.holds, hcur]
    by_cases hx : s.cur.x = true
    · simp only [State.give, hx, if_true]
      by_cases h0 : i = 0
      · subst h0
        simp only [Core.comes]; rfl
      · have hi : Reg.px i.toNat ≠ .px 0 := by
          intro e; injection e with e; exact h0 (BitVec.eq_of_toNat_eq (by simpa using e))
        have hh := h (.px i.toNat) (by simp [regOf, hx])
        rw [hx] at hh w
        rw [w (.px i.toNat) _ hh ⟨by simp, hi⟩ (fun c => ?_)]
        · simp only [h0, false_or, bitAt_toNat]
        · have h1 : i.toNat ≠ 0 := fun e => hi (by rw [e])
          have e : ∀ b : Bool, (if b then allOnes else 0) % 2 ^ 128 = if b then allOnes else 0 := by decide
          simp only [Core.setReg, if_neg h1, Core.reg, tget_tput_same, fullMask, mergeMask_all _ _ _ _ (Nat.le_refl 128),
            Nat.one_mul, BitVec.toNat_ofNat, e]
    · simp only [State.give, hx, if_false, Bool.false_eq_true]
      by_cases h0 : i = 0
      · subst h0
        simp only [Core.comes]; rfl
      · have hi : Reg.pa i.toNat ≠ .pa 0 := by
          intro e; injection e with e; exact h0 (BitVec.eq_of_toNat_eq (by simpa using e))
        have hh := h (.pa i.toNat) (by simp [regOf, hx])
        have hx' : s.cur.x = false := by simpa using hx
        rw [hx'] at hh w
        rw [w (.pa i.toNat) _ hh ⟨hi, by simp⟩ (fun c => ?_)]
        · rw [← bitAt_zero]
          simp only [h0, false_or, bitAt_toNat, b01]
        · have h1 : i.toNat ≠ 0 := fun e => hi (by rw [e])
          simp only [Core.setReg, if_neg h1, Core.reg, tget_tput_same]
          rw [bitAt_zero]; omega
  | port c =>
    simp only [State.holds, State.give, State.me_setMe]
    unfold Core.push
    rcases (by omega : c.toNat = 0 ∨ c.toNat = 1 ∨ c.toNat = 2 ∨ 3 ≤ c.toNat) with e | e | e | e
    · simp [e, Core.fifo, Core.setFifo]
    · simp [e, Core.fifo, Core.setFifo]
    · simp [e, Core.fifo, Core.setFifo, bitAt_toNat]
    · have e2 : ¬c.toNat < 2 := by omega
      have hf : ∀ (c' : Core) (f : Fifo), (c'.setFifo c.toNat f).fifo c.toNat = f := by
        intro c' f
        obtain ⟨k, hk⟩ : ∃ k, c.toNat = k + 3 := ⟨c.toNat - 3, by omega⟩
        rw [hk]; rfl
      simp [hf, e2, bitAt_toNat]
  | _ => trivial

/-- What a destination holds depends on the registers' coming values and the queues. -/
theorem holds_congr {s t : State} (d : Desc) (v : Word) (hc : t.cur = s.cur) (hr : ∀ x r, t.me.comes x r = s.me.comes x r)
    (hf : ∀ k, t.me.fifo k = s.me.fifo k) (h : s.holds d v) : t.holds d v := by
  cases d <;> first | trivial | simpa only [State.holds, hc, hf, hr] using h

/-- The register of a destination is among those it writes. -/
theorem dstNeeds_writes {x : Bool} {d : Desc} {r : Reg} (h : r ∈ regOf x d) : r ∈ (dstNeeds x d).writes := by
  cases d <;> simp_all [regOf, dstNeeds, needs]

/-- A register that an instruction may write has no pending result. -/
theorem free_of_met {s : State} {n : Needs} {r : Reg} (h : s.met n = true) (hr : r ∈ n.writes) :
    s.me.pendingReg s.cur.x r = false := by
  simp only [State.met, Bool.and_eq_true, Bool.not_eq_true', List.any_eq_false] at h
  have := h.1.1.1.2 r hr
  simp only [State.writeBlocked, Bool.or_eq_true, not_or, Bool.not_eq_true] at this
  exact this.1

/-- A retiring instruction leaves no wait, so that no guard is kept. -/
theorem keepGuard_retire (g : Nat) (h : Hdr) (s : State) : keepGuard g (retire h s) = retire h s := by
  obtain ⟨t, e, -, -, m⟩ := retire_spec h s
  rw [e]
  refine keepGuard_eq ?_
  have hc : t.cur = s.cur := by cases e; rfl
  unfold State.st
  rw [m, hc, Core.stream_issued, Core.stream_setStream, if_pos rfl]
  rfl

/-- A scalar instruction of two sources completes with `f` of their values at its destination. -/
theorem scalar2_completes {i : Instr} {d a b : Desc} {lat : Nat} {var : Bool} {f : Word → Word → Word} {s : State}
    (hi : s.issues i) (hn : s.serves (s.needs2 d a b)) :
    ∃ t, scalar2 i d a b lat var f s = .next t ∧ s.wentOn t i.hdr ∧ t.holds d (f (s.takes a b).1 (s.takes a b).2) := by
  unfold scalar2
  rw [issue_eq hi]
  have hn' := withNeeds_eq hn
  unfold State.needs2 at hn'
  simp only [hn', keepGuard_retire]
  have q := onlyQueues_trans (onlyQueues_take s a) (onlyQueues_take (s.take a).2 b)
  generalize hu : ((s.take a).2.take b).2.give d (f (s.take a).1 ((s.take a).2.take b).1) lat
    (var || s.varied (((dstNeeds s.cur.x d).and (srcNeeds s.cur.x a)).and (srcNeeds s.cur.x b))) = u
  obtain ⟨t, e, w, -, m⟩ := retire_spec i.hdr u
  refine ⟨t, e, wentOn_of_sameFlow (sameFlow_trans (sameFlow_of_onlyQueues q) ?_) w, ?_⟩
  · rw [← hu]; exact sameFlow_give ..
  · have hg := holds_give ((s.take a).2.take b).2 d (f (s.take a).1 ((s.take a).2.take b).1) lat
      (var || s.varied (((dstNeeds s.cur.x d).and (srcNeeds s.cur.x a)).and (srcNeeds s.cur.x b)))
      (by
        intro r hr
        rw [onlyQueues_cur q] at hr ⊢
        rw [onlyQueues_pendingReg q]
        exact free_of_met hn.1 (by
          simp only [State.needs2, Needs.and, List.mem_append]
          exact Or.inl (Or.inl (dstNeeds_writes hr))))
    rw [hu] at hg
    refine holds_congr d _ w.1 (fun x r => ?_) (fun k => ?_) hg
    · rw [m]
      exact Core.comes_leave _ _ _ _ _ (by simp only [Stream.advance, Stream.left]; rfl)
    · rw [m]; unfold Core.issued Core.setStream; cases u.cur.x <;> rfl

end Sys2Proof.Machine
end

