-- ==== Sys2Proof/Tests/Slice0.lean ====
section
/-! SUPPORT. The model's own tests: words written out from the spec's encodings and what they decode to, the well-formedness checks
with a term that each refuses, results of single steps computed by hand, and a witness for the hypotheses of each obligation. -/

set_option autoImplicit false

namespace Sys2Proof.Machine.Tests

-- one test after another: checked at once they need too much memory
set_option Elab.async false

open Sys2Proof Sys2Proof.Machine

theorem test_decode_alu :
    decode 0x000007800000000000000000 = some (.nop { gneg := false, gpred := 0, stall := 15, w := false }) ∧
    decode 0x000100000000100000AFFFFF = some (.add plainHdr (.g 1) (.g 2) (.imm 524287)) ∧
    decode 0x0002000180003B0000180004 = some (.sub plainHdr (.s 3) (.imm 262144) (.s 4)) ∧
    decode 0x0003A9C30000080001F00001 = some (.mul { gneg := true, gpred := 5, stall := 3, w := true } (.port 0) (.const 7) (.port 1)) ∧
    decode 0x000400000003FC00006000FF = some (.mulhs plainHdr (.g 63) (.port 1) (.const 255)) ∧
    decode 0x000500000000100000AFFFFF = some (.mulhz plainHdr (.g 1) (.g 2) (.imm 524287)) ∧
    decode 0x0006000180003B0000180004 = some (.and plainHdr (.s 3) (.imm 262144) (.s 4)) ∧
    decode 0x000700030000080001F00001 = some (.or plainHdr (.port 0) (.const 7) (.port 1)) ∧
    decode 0x000800000003FC00006000FF = some (.xor plainHdr (.g 63) (.port 1) (.const 255)) ∧
    decode 0x000900000000100000AFFFFF = some (.andn plainHdr (.g 1) (.g 2) (.imm 524287)) ∧
    decode 0x000A000180003B0000180004 = some (.shl plainHdr (.s 3) (.imm 262144) (.s 4)) ∧
    decode 0x000B00030000080001F00001 = some (.shr plainHdr (.port 0) (.const 7) (.port 1)) ∧
    decode 0x000C00000003FC00006000FF = some (.sar plainHdr (.g 63) (.port 1) (.const 255)) ∧
    decode 0x000D00000000100000AFFFFF = some (.rot plainHdr (.g 1) (.g 2) (.imm 524287)) := by decide

theorem test_decode_move :
    decode 0x0100000000005AFFFFC00000 = some (.mov plainHdr (.g 5) (.imm 262143)) ∧
    decode 0x0101000000005A2FBBE80003 = some (.movk plainHdr (.g 5) (.imm 48879) (.imm 3)) ∧
    decode 0x010200018000F60000280040 = some (.sext plainHdr (.s 15) (.s 0) (.imm 64)) ∧
    decode 0x010300000000580000280001 = some (.zext plainHdr (.g 5) (.const 0) (.imm 1)) ∧
    decode 0x01040000000000000FC00000 = some (.clz plainHdr (.g 0) (.g 63)) ∧
    decode 0x0105000000000C0001400000 = some (.ctz plainHdr (.g 0) (.port 5)) ∧
    decode 0x0106000180001C0000000000 = some (.popc plainHdr (.s 1) (.port 0)) ∧
    decode 0x010700000000200000E8007F = some (.bfx plainHdr (.g 2) (.g 3) (.imm 127)) ∧
    decode 0x010800000000200000E81000 = some (.bfi plainHdr (.g 2) (.g 3) (.imm 4096)) ∧
    decode 0x010900000000100000800003 = some (.mins plainHdr (.g 1) (.g 2) (.g 3)) ∧
    decode 0x010A00018000160000980003 = some (.maxs plainHdr (.s 1) (.s 2) (.s 3)) ∧
    decode 0x010B00000000100000800003 = some (.minz plainHdr (.g 1) (.g 2) (.g 3)) ∧
    decode 0x010C00000000100000800003 = some (.maxz plainHdr (.g 1) (.g 2) (.g 3)) := by decide

theorem test_decode_compare :
    decode 0x020000010000100000800003 = some (.cmpeq plainHdr (.p 1) (.g 2) (.g 3)) ∧
    decode 0x020100000000100000A80000 = some (.cmpne plainHdr (.g 1) (.g 2) (.imm 0)) ∧
    decode 0x020200030000200000800003 = some (.cmplts plainHdr (.port 2) (.g 2) (.g 3)) ∧
    decode 0x020300010000F60000980003 = some (.cmples plainHdr (.p 15) (.s 2) (.s 3)) ∧
    decode 0x020400030000360000A80009 = some (.cmpltz plainHdr (.port 3) (.s 2) (.imm 9)) ∧
    decode 0x020500018000160000A00003 = some (.cmplez plainHdr (.s 1) (.s 2) (.const 3)) ∧
    decode 0x020600010000140000900003 = some (.pand plainHdr (.p 1) (.p 2) (.p 3)) ∧
    decode 0x020700030000240000900003 = some (.por plainHdr (.port 2) (.p 2) (.p 3)) ∧
    decode 0x020800010000140000900003 = some (.pxor plainHdr (.p 1) (.p 2) (.p 3)) ∧
    decode 0x020900010000140003800000 = some (.pnot plainHdr (.p 1) (.p 14)) := by decide

theorem test_decode_divide :
    decode 0x030000000000000003E80000 = some (.addsat plainHdr (.g 0) (.g 15) (.imm 0)) ∧
    decode 0x030100018000160003AFFFFF = some (.subsat plainHdr (.s 1) (.s 14) (.imm 524287)) ∧
    decode 0x0302000000002000036FFFFE = some (.divs plainHdr (.g 2) (.g 13) (.imm 524286)) ∧
    decode 0x0303000180003600032FFFFD = some (.divz plainHdr (.s 3) (.s 12) (.imm 524285)) ∧
    decode 0x030400000000400002EFFFFC = some (.rems plainHdr (.g 4) (.g 11) (.imm 524284)) ∧
    decode 0x030500018000560002AFFFFB = some (.remz plainHdr (.s 5) (.s 10) (.imm 524283)) := by decide

theorem test_decode_packed :
    decode 0x10000003F042E000FFFFFFFF = some (.lea plainHdr 63 1 2 7 false 0xFFFFFFFF) ∧
    decode 0x10010000518070007FFFFFFF = some (.leax plainHdr 5 6 0 3 true 0x7FFFFFFF) ∧
    decode 0x11000003F100000000000000 = some (.rdsr plainHdr 63 4) ∧
    decode 0x110100002040000000000000 = some (.wrsr plainHdr 2 1) ∧
    decode 0xBF000000F4C0000000000000 = some (.rdsx plainHdr 15 19) ∧
    decode 0xBF0100003400000000000000 = some (.wrsx plainHdr 3 16) := by decide

theorem test_decode_flow :
    decode 0x2000B800000000000007F001 = some (.br { gneg := true, gpred := 7, stall := 0, w := false } 0x7F001) ∧
    decode 0x2001000000000C0000C00FFF = some (.brq plainHdr (.port 3) 4095) ∧
    decode 0x2002000000000C000087FFFF = some (.brqn plainHdr (.port 2) 0x7FFFF) ∧
    decode 0x200300000000900000000000 = some (.jmp plainHdr (.g 9)) ∧
    decode 0x210000000000060000800FFF = some (.loop plainHdr (.s 2) 4095) ∧
    decode 0x210100000000000000000000 = some (.breakl plainHdr) ∧
    decode 0x220000000000000000000064 = some (.call plainHdr 100) ∧
    decode 0x220100018000400000000000 = some (.calli plainHdr (.s 4)) ∧
    decode 0x220200000000000000000000 = some (.ret plainHdr) ∧
    decode 0x230000000000800000000000 = some (.xgo plainHdr (.g 8)) ∧
    decode 0x230100000000000000000000 = some (.tend plainHdr) ∧
    decode 0x230200000000000000000000 = some (.xend plainHdr) ∧
    decode 0x24000003BBE0000000000000 = some (.safept plainHdr 0xEE 992) ∧
    decode 0x25000000000000000000FFFF = some (.trap plainHdr 0xFFFF) ∧
    decode 0x250100000000000000001234 = some (.brk plainHdr 0x1234) := by decide

theorem test_decode_queues :
    decode 0x3000000000001C0000500003 = some (.trypop plainHdr (.g 1) (.port 1) (.p 3)) ∧
    decode 0x300100030000160000900003 = some (.trypush plainHdr (.port 1) (.s 2) (.p 3)) ∧
    decode 0x300200030000240001400000 = some (.pushb plainHdr (.port 2) (.p 5) none) ∧
    decode 0x300200030000340001680002 = some (.pushb plainHdr (.port 3) (.p 5) (some (.imm 2))) ∧
    decode 0x31000003FE01FA0001400000 = some (.send plainHdr (.remote 63 0 31) (.imm 5)) ∧
    decode 0x310100039E81F20007800000 = some (.vsend plainHdr (.remote 15 1 31) (.v 30)) ∧
    decode 0x320000000002000000000000 = some (.clrp plainHdr (.g 32)) ∧
    decode 0x320000008001F00000000000 = some (.clrp plainHdr (.v 31)) ∧
    decode 0x310000038300000001400000 = some (.send plainHdr (.remote 1 2 0) (.g 5)) := by decide

theorem test_decode_memory :
    decode 0x400000000003F0000077FFFF = some (.ll plainHdr ⟨0, 0, 63, .g 1, 6, 0x7FFFF⟩) ∧
    decode 0x400100006A00080001180008 = some (.ls plainHdr ⟨26, 4, 0, .const 4, 3, 0x8⟩) ∧
    decode 0x410000000000100000A3FFFF = some (.ld plainHdr ⟨0, 0, 1, .g 2, 4, 0x3FFFF⟩) ∧
    decode 0x410100000000100000840000 = some (.st plainHdr ⟨0, 0, 1, .g 2, 0, 0x40000⟩) ∧
    decode 0x410200000000100000900004 = some (.ldc plainHdr ⟨0, 0, 1, .g 2, 2, 0x4⟩) ∧
    decode 0x420000001500100000980008 = some (.ldfe plainHdr ⟨5, 2, 1, .g 2, 3, 0x8⟩) ∧
    decode 0x420100002980100000980008 = some (.stfe plainHdr ⟨10, 3, 1, .g 2, 3, 0x8⟩) ∧
    decode 0x420200000083E00000980008 = some (.tryldfe plainHdr ⟨0, 1, 62, .g 2, 3, 0x8⟩) ∧
    decode 0x420300004283E00000980008 = some (.trystfe plainHdr ⟨16, 5, 62, .g 2, 3, 0x8⟩) := by decide

theorem test_decode_atomic :
    decode 0x430000000003E00000100000 = some (.atadd plainHdr ⟨0, 0, 62, .g 0, 2, 0x0⟩) ∧
    decode 0x430100000083E00000580008 = some (.atmin plainHdr ⟨0, 1, 62, .g 1, 3, 0x8⟩) ∧
    decode 0x430200000083E00000900010 = some (.atmax plainHdr ⟨0, 1, 62, .g 2, 2, 0x10⟩) ∧
    decode 0x430300000003E00000D80018 = some (.ator plainHdr ⟨0, 0, 62, .g 3, 3, 0x18⟩) ∧
    decode 0x430400000003E00001100020 = some (.atand plainHdr ⟨0, 0, 62, .g 4, 2, 0x20⟩) ∧
    decode 0x430800000003E00002100040 = some (.axadd plainHdr ⟨0, 0, 62, .g 8, 2, 0x40⟩) ∧
    decode 0x430900000083E00002580048 = some (.axmin plainHdr ⟨0, 1, 62, .g 9, 3, 0x48⟩) ∧
    decode 0x430A00000083E00002900050 = some (.axmax plainHdr ⟨0, 1, 62, .g 10, 2, 0x50⟩) ∧
    decode 0x430B00000003E00002D80058 = some (.axor plainHdr ⟨0, 0, 62, .g 11, 3, 0x58⟩) ∧
    decode 0x430C00000003E00003100060 = some (.axand plainHdr ⟨0, 0, 62, .g 12, 2, 0x60⟩) ∧
    decode 0x430D00000003E00003580068 = some (.axchg plainHdr ⟨0, 0, 62, .g 13, 3, 0x68⟩) ∧
    decode 0x430E00000003E00003900070 = some (.acas plainHdr ⟨0, 0, 62, .g 14, 2, 0x70⟩) := by decide

theorem test_decode_fence :
    decode 0x440000000000000000000000 = some (.fence plainHdr 0) ∧
    decode 0x440100014000000000000000 = some (.rel plainHdr 10) ∧
    decode 0x440200020000000000000000 = some (.acq plainHdr 16) ∧
    decode 0x440300034000000000000000 = some (.fenceAx plainHdr 26) ∧
    decode 0x450000000180700000980010 = some (.dst plainHdr ⟨0, 3, 7, .g 2, 3, 0x10⟩) ∧
    decode 0x450100000003800000980040 = some (.rdsum plainHdr ⟨0, 0, 56, .g 2, 3, 0x40⟩) ∧
    decode 0x460000000000000000000000 = some (.cuta plainHdr) ∧
    decode 0x460100000000000000000000 = some (.cutw plainHdr) ∧
    decode 0x46020003F000000000000000 = some (.cutst plainHdr 63) := by decide

theorem test_decode_copy :
    decode 0x600000001080F14140000000 = some (.cpy plainHdr ⟨1, 2, 0, 7, true, false, 5, false, 0, false, true, false, true⟩) ∧
    decode 0x60000003C0030AB280000000 = some (.cpy plainHdr ⟨60, 0, 3, 0, false, true, 10, true, 4, true, false, true, false⟩) ∧
    decode 0x610000009B40000000000000 = some (.nmc plainHdr 9 true false 26) ∧
    decode 0x61010000E000000000000000 = some (.nfence plainHdr 7) := by decide

theorem test_decode_exchange :
    decode 0x62000003FF8C000000000000 = some (.barinit plainHdr 2047 3) ∧
    decode 0x620000000283FC0000000000 = some (.barinitDom plainHdr 5 63 4) ∧
    decode 0x62010003FFC8400000000000 = some (.bararr plainHdr 2047 4 33) ∧
    decode 0x6202000000FD000000000000 = some (.barwait plainHdr 1 62 true) ∧
    decode 0x630000039801FFDFF8000000 = some (.xsend plainHdr (.remote 12 0 31) 63 1023) ∧
    decode 0x6300000000007E2017FE0000 = some (.xsendLm plainHdr (.g 7) 56 2 0xFFC0) ∧
    decode 0x630100000000000000000000 = some (.xbar plainHdr) ∧
    decode 0x64000003FCBCA00000000000 = some (.qpost plainHdr 255 11 true true 5) ∧
    decode 0x64010003FF13400000000000 = some (.qtrig plainHdr 1023 4 26) ∧
    decode 0x6402000001FC000000000000 = some (.qwait plainHdr 1 63 0) ∧
    decode 0x6F0000000000000001800000 = some (.launch plainHdr (.g 6)) ∧
    decode 0x6F0100000000100000A8001A = some (.wloc plainHdr (.g 1) (.g 2) 26) := by decide

theorem test_decode_system :
    decode 0x70000003F00B000000000000 = some (.mfsv plainHdr 63 0x00B) ∧
    decode 0x7001000012FA000000000000 = some (.mtsv plainHdr 1 0x2FA) ∧
    decode 0x700200000000000000000000 = some (.rft plainHdr) ∧
    decode 0x700300000000000000000000 = some (.waiti plainHdr) ∧
    decode 0x700400001088000000000000 = some (.tlbinvPage plainHdr 1 2 true) ∧
    decode 0x700400000090000000000000 = some (.tlbinvSpace plainHdr 2 false) ∧
    decode 0x700400000028000000000000 = some (.tlbinvAll plainHdr true) := by decide

theorem test_decode_vectorFloat :
    decode 0x800000008001F80000080014 = some (.vadd plainHdr ⟨0, 0, false, 0, 0, 31, 0, .const 0, some (.v 20)⟩) ∧
    decode 0x800100008581E20000600009 = some (.vsub plainHdr ⟨1, 1, true, 0, 0, 30, 0, .v 1, some (.const 9)⟩) ∧
    decode 0x800200008A7FD80000880014 = some (.vmul plainHdr ⟨2, 2, false, 3, 15, 29, 0, .const 2, some (.v 20)⟩) ∧
    decode 0x800300008081C20000C80014 = some (.vfma plainHdr ⟨0, 0, true, 0, 0, 28, 0, .v 3, some (.v 20)⟩) ∧
    decode 0x800400008623B80001080014 = some (.vfms plainHdr ⟨1, 2, false, 1, 1, 27, 0, .const 4, some (.v 20)⟩) ∧
    decode 0x800500008000120000880003 = some (.vmin plainHdr ⟨0, 0, false, 0, 0, 1, 0, .v 2, some (.v 3)⟩) ∧
    decode 0x800600008400120000880003 = some (.vmax plainHdr ⟨1, 0, false, 0, 0, 1, 0, .v 2, some (.v 3)⟩) ∧
    decode 0x800700008400120000800000 = some (.vabs plainHdr ⟨1, 0, false, 0, 0, 1, 0, .v 2, none⟩) ∧
    decode 0x800800008800120000800000 = some (.vneg plainHdr ⟨2, 0, false, 0, 0, 1, 0, .v 2, none⟩) ∧
    decode 0x8A0000008000120000000000 = some (.vexp2 plainHdr ⟨0, 0, false, 0, 0, 1, 0, .v 0, none⟩) ∧
    decode 0x8A0100008080120000400000 = some (.vlog2 plainHdr ⟨0, 0, true, 0, 0, 1, 0, .v 1, none⟩) ∧
    decode 0x8A0200008000120000800000 = some (.vrcp plainHdr ⟨0, 0, false, 0, 0, 1, 0, .v 2, none⟩) ∧
    decode 0x8A0300008080120000C00000 = some (.vrsqrt plainHdr ⟨0, 0, true, 0, 0, 1, 0, .v 3, none⟩) ∧
    decode 0x8A0400008000120001000000 = some (.vsqrt plainHdr ⟨0, 0, false, 0, 0, 1, 0, .v 4, none⟩) := by decide

theorem test_decode_vectorInteger :
    decode 0x81000000C000020000480009 = some (.viadd plainHdr ⟨16, 0, false, 0, 0, 0, 0, .v 1, some (.v 9)⟩) ∧
    decode 0x81010000C400120000AFFFFF = some (.visub plainHdr ⟨17, 0, false, 0, 0, 1, 0, .v 2, some (.imm 524287)⟩) ∧
    decode 0x81020000C800220000C80009 = some (.vimul plainHdr ⟨18, 0, false, 0, 0, 2, 0, .v 3, some (.v 9)⟩) ∧
    decode 0x81030000CC003200012FFFFD = some (.vimin plainHdr ⟨19, 0, false, 0, 0, 3, 0, .v 4, some (.imm 524285)⟩) ∧
    decode 0x81040000D000420001480009 = some (.vimax plainHdr ⟨20, 0, false, 0, 0, 4, 0, .v 5, some (.v 9)⟩) ∧
    decode 0x81050000D400520001800000 = some (.viabs plainHdr ⟨21, 0, false, 0, 0, 5, 0, .v 6, none⟩) ∧
    decode 0x81060000D800620001C00000 = some (.vineg plainHdr ⟨22, 0, false, 0, 0, 6, 0, .v 7, none⟩) ∧
    decode 0x81070000DC007200022FFFF9 = some (.viadds plainHdr ⟨23, 0, false, 0, 0, 7, 0, .v 8, some (.imm 524281)⟩) ∧
    decode 0x81080000C000820002480009 = some (.visubs plainHdr ⟨16, 0, false, 0, 0, 8, 0, .v 9, some (.v 9)⟩) ∧
    decode 0x83000000DC00320001080005 = some (.vand plainHdr ⟨23, 0, false, 0, 0, 3, 0, .v 4, some (.v 5)⟩) ∧
    decode 0x83010000D800320001080005 = some (.vor plainHdr ⟨22, 0, false, 0, 0, 3, 0, .v 4, some (.v 5)⟩) ∧
    decode 0x83020000D400320001080005 = some (.vxor plainHdr ⟨21, 0, false, 0, 0, 3, 0, .v 4, some (.v 5)⟩) ∧
    decode 0x83030000D000320001080005 = some (.vandn plainHdr ⟨20, 0, false, 0, 0, 3, 0, .v 4, some (.v 5)⟩) ∧
    decode 0x83040000CC00320001280007 = some (.vshl plainHdr ⟨19, 0, false, 0, 0, 3, 0, .v 4, some (.imm 7)⟩) ∧
    decode 0x83050000C800320001280007 = some (.vshr plainHdr ⟨18, 0, false, 0, 0, 3, 0, .v 4, some (.imm 7)⟩) ∧
    decode 0x83060000C400320001280007 = some (.vsar plainHdr ⟨17, 0, false, 0, 0, 3, 0, .v 4, some (.imm 7)⟩) := by decide

theorem test_decode_vectorCompare :
    decode 0x820000010000F24000480002 = some (.vcmpeq plainHdr ⟨0, 0, false, 0, 0, 15, 4, .v 1, some (.v 2)⟩) ∧
    decode 0x820100010000130000680005 = some (.vcmpne plainHdr ⟨0, 0, false, 0, 0, 1, 16, .v 1, some (.imm 5)⟩) ∧
    decode 0x820200010000180000480002 = some (.vcmplt plainHdr ⟨0, 0, false, 0, 0, 1, 0, .const 1, some (.v 2)⟩) ∧
    decode 0x820300010000137000600002 = some (.vcmple plainHdr ⟨0, 0, false, 0, 0, 1, 23, .v 1, some (.const 2)⟩) ∧
    decode 0x820400010000121000480002 = some (.vcmpun plainHdr ⟨0, 0, false, 0, 0, 1, 1, .v 1, some (.v 2)⟩) ∧
    decode 0x82050000B800120000480002 = some (.vsel plainHdr ⟨14, 0, false, 0, 0, 1, 0, .v 1, some (.v 2)⟩) := by decide

theorem test_decode_vectorConvert :
    decode 0x84000000B225E20000C00000 = some (.vcvt plainHdr ⟨12, 2, false, 1, 2, 30, 0, .v 3, none⟩) ∧
    decode 0x84000000B801E21000D80003 = some (.vcvt plainHdr ⟨14, 0, false, 0, 0, 30, 1, .v 3, some (.s 3)⟩) ∧
    decode 0x840000008F00120000C80004 = some (.vcvtEf plainHdr ⟨3, 3, false, 0, 0, 1, 0, .v 3, some (.v 4)⟩) ∧
    decode 0x85000380800022C001080006 = some (.vmxdot { gneg := false, gpred := 0, stall := 7, w := false } ⟨0, 0, false, 0, 0, 2, 12, .v 4, some (.v 6)⟩) ∧
    decode 0x860000008606220001000000 = some (.vredsum plainHdr ⟨1, 2, false, 0, 3, 2, 0, .v 4, none⟩) ∧
    decode 0x86010000C800220001000000 = some (.vredmax plainHdr ⟨18, 0, false, 0, 0, 2, 0, .v 4, none⟩) := by decide

theorem test_decode_vectorMove :
    decode 0x87000000C400220001080005 = some (.vperm plainHdr ⟨17, 0, false, 0, 0, 2, 0, .v 4, some (.v 5)⟩) ∧
    decode 0x870100008000200000180005 = some (.vbcast plainHdr ⟨0, 0, false, 0, 0, 2, 0, .none, some (.s 5)⟩) ∧
    decode 0x870100008000220000680003 = some (.vbcastElement plainHdr ⟨0, 0, false, 0, 0, 2, 0, .v 1, some (.imm 3)⟩) ∧
    decode 0x87020000B4002200006FFFFD = some (.vslide plainHdr ⟨13, 0, false, 0, 0, 2, 0, .v 1, some (.imm 524285)⟩) ∧
    decode 0x87030000900028003FC00000 = some (.vmov plainHdr ⟨4, 0, false, 0, 0, 2, 0, .const 255, none⟩) ∧
    decode 0x87030000D000240003C00000 = some (.vmovPredicate plainHdr ⟨20, 0, false, 0, 0, 2, 0, .p 15, none⟩) ∧
    decode 0x880000008001F6000047FFC0 = some (.vll plainHdr ⟨0, 0, 31, .s 1, 0, 0x7FFC0⟩) ∧
    decode 0x880100008001E80000400040 = some (.vls plainHdr ⟨0, 0, 30, .const 1, 0, 0x40⟩) ∧
    decode 0x89000000DC00200000280001 = some (.vrand plainHdr ⟨23, 0, false, 0, 0, 2, 0, .none, some (.imm 1)⟩) ∧
    decode 0x89010000000000000018000E = some (.kset plainHdr ⟨0, 0, false, 0, 0, 0, 0, .none, some (.s 14)⟩) ∧
    decode 0x8B0000014000F0000018000E = some (.prange plainHdr ⟨16, 0, false, 0, 0, 15, 0, .none, some (.s 14)⟩) ∧
    decode 0x8B010000DC00F00000000000 = some (.vlen plainHdr ⟨23, 0, false, 0, 0, 15, 0, .none, none⟩) ∧
    decode 0x8C000000DC00F00000000000 = some (.vstat plainHdr ⟨23, 0, false, 0, 0, 15, 0, .none, none⟩) ∧
    decode 0x8C0000010000F0000028000F = some (.vstatPredicate plainHdr ⟨0, 0, false, 0, 0, 15, 0, .none, some (.imm 15)⟩) ∧
    decode 0x8C0100000000000000280008 = some (.vclrf plainHdr ⟨0, 0, false, 0, 0, 0, 0, .none, some (.imm 8)⟩) := by decide

theorem test_decode_tile_1 :
    decode 0xC0000003F800000000000000 = some (.tcfg plainHdr 7 15) ∧
    decode 0xC00100018800000000000000 = some (.tstat plainHdr 3 1) ∧
    decode 0xC00100000E00000000000000 = some (.tstatBank plainHdr true 1) ∧
    decode 0xC002000301E0000000000000 = some (.tclr plainHdr 6 15) ∧
    decode 0xC00200000500000000000000 = some (.tclrBank plainHdr false 8) ∧
    decode 0xC0030000900000000007FFF8 = some (.tldl plainHdr 1 2 0x7FFF8) ∧
    decode 0xC00400009000000000000008 = some (.tstl plainHdr 1 2 8) ∧
    decode 0xC1000003D800000000000000 = some (.wld plainHdr 7 5 true) ∧
    decode 0xC20000008080FF6E00000000 = some (.gmmaF plainHdr ⟨1, 0, 0, false, true, 1, 254, true, 2, 7⟩) ∧
    decode 0xC2010001077F800000000000 = some (.gmmaB plainHdr ⟨2, 0, 3, true, false, 255, 0, false, 0, 0⟩) ∧
    decode 0xC20200025D807F6200000000 = some (.gmmaO plainHdr ⟨4, 5, 6, true, true, 0, 254, true, 2, 1⟩) ∧
    decode 0xC3000002C0FF197200000000 = some (.drain plainHdr ⟨5, true, 3, 252, 12, 2, true, true, 9, 0, false, 0, false, 0⟩) ∧
    decode 0xC30100003FC000281FC00000 = some (.drainAdd plainHdr ⟨0, false, 255, 0, 0, 0, false, true, 4, 0, false, 254, false, 0⟩) ∧
    decode 0xC302000070000100E0000000 = some (.odrain plainHdr ⟨0, true, 192, 0, 0, 2, false, false, 0, 3, true, 0, false, 0⟩) ∧
    decode 0xC303000000408100DFE00000 = some (.join plainHdr ⟨0, false, 1, 2, 0, 2, false, false, 0, 3, false, 255, false, 0⟩) ∧
    decode 0xC40000008080C00000000000 = some (.accld plainHdr ⟨1, false, 2, 3, 0, 0, false, false, 0, 0, false, 0, false, 0⟩) := by decide

theorem test_decode_tile_2 :
    decode 0xC4010003C080C00000000000 = some (.accst plainHdr ⟨7, true, 2, 3, 0, 0, false, false, 0, 0, false, 0, false, 0⟩) ∧
    decode 0xC40200004080C000000FC000 = some (.acccp plainHdr ⟨0, true, 2, 3, 0, 0, false, false, 0, 0, false, 0, false, 252⟩) := by decide

theorem test_decode_continuity :
    decode 0xC80000008000FC0000000000 = some (.csig plainHdr 1 63) ∧
    decode 0xC801000029000C0000000000 = some (.ctest plainHdr 5 2 3) ∧
    decode 0xC802000328000C0000000000 = some (.cstore plainHdr 6 5 3) ∧
    decode 0xC80300002828000000000000 = some (.csheet plainHdr 5 0x28) ∧
    decode 0xC8040000287F000000000000 = some (.ccfg plainHdr 5 0x7F) := by decide

/-- A form of family M that LD accepts. -/
def mOk : MForm := ⟨0, 0, 1, .g 1, 3, 0⟩

/-- A form of family V that VADD accepts. -/
def vOk : VForm := ⟨0, 0, false, 0, 0, 1, 0, .v 2, some (.v 3)⟩

/-- The form of family V with no source that VLEN accepts with FMT 23. -/
def vNone : VForm := ⟨23, 0, false, 0, 0, 1, 0, .none, none⟩

/-- A CPY that is well formed. -/
def cOk : CpyForm := ⟨0, 0, 0, 0, false, false, 0, false, 0, false, false, false, false⟩

/-- A GMMA.F that is well formed. -/
def gOk : GForm := ⟨0, 0, 0, false, false, 0, 0, false, 0, 0⟩

/-- A DRAIN that is well formed. -/
def aOk : AForm := ⟨0, false, 0, 0, 0, 0, false, false, 0, 0, false, 0, false, 0⟩

/-- Every instruction of a list is ill formed on both streams. -/
def allIll (l : List Instr) : Bool := l.all fun i => !i.wf

theorem test_wf_bases : ((([.ld plainHdr mOk, .vadd plainHdr vOk, .cpy plainHdr cOk, .gmmaF plainHdr gOk,
    .drain plainHdr aOk, .vlen plainHdr vNone] : List Instr).all Instr.wf)) = true := by decide

theorem test_wf_scalar : allIll [
    .add plainHdr (.p 1) (.g 1) (.g 1), .add plainHdr (.imm 1) (.g 1) (.g 1), .add plainHdr (.g 1) (.v 1) (.g 1),
    .add plainHdr (.g 1) (.g 1) (.s 1), .add plainHdr (.port 1) (.s 1) (.g 1), .mov plainHdr (.g 1) (.p 1),
    .mov plainHdr (.port 4) (.g 1), .movk plainHdr (.g 1) (.imm 0x10000) (.imm 0), .movk plainHdr (.g 1) (.imm 0) (.imm 4),
    .movk plainHdr (.port 0) (.imm 0) (.imm 0), .sext plainHdr (.g 1) (.g 1) (.imm 0), .zext plainHdr (.g 1) (.g 1) (.imm 65),
    .bfx plainHdr (.g 1) (.g 1) (.imm 63), .bfx plainHdr (.g 1) (.g 1) (.imm (63 + 64 * 2)),
    .bfi plainHdr (.g 1) (.g 1) (.imm 8192), .bfi plainHdr (.port 0) (.g 1) (.imm 64), .cmpeq plainHdr (.port 0) (.g 1) (.g 1),
    .cmplez plainHdr (.v 1) (.g 1) (.g 1), .pand plainHdr (.g 1) (.p 1) (.p 1), .por plainHdr (.p 1) (.g 1) (.p 1),
    .pxor plainHdr (.p 1) (.p 1) (.g 1), .pnot plainHdr (.p 1) (.g 1), .divs plainHdr (.const 1) (.g 1) (.g 1),
    .addsat plainHdr (.g 1) (.remote 0 0 0) (.g 1)] = true := by decide

theorem test_wf_control : allIll [
    .lea plainHdr 1 2 3 0 true 0, .rdsr plainHdr 1 5, .wrsr plainHdr 1 0x10, .rdsx plainHdr 1 1, .wrsx plainHdr 1 0x14,
    .br plainHdr 4096, .call plainHdr (-4096), .brq plainHdr (.port 0) 1, .brqn plainHdr (.port 3) 4096,
    .jmp plainHdr (.p 1), .calli plainHdr (.imm 1), .loop plainHdr (.const 1) 1, .loop plainHdr (.imm 1) 0,
    .loop plainHdr (.g 1) 4096, .xgo plainHdr (.s 1), .safept plainHdr 0xEF 0, .safept plainHdr 0 993,
    .trypop plainHdr (.g 1) (.port 0) (.p 1), .trypop plainHdr (.g 1) (.port 1) (.g 1),
    .trypop plainHdr (.p 1) (.port 1) (.p 1), .trypush plainHdr (.port 1) (.g 1) (.p 1),
    .trypush plainHdr (.port 0) (.p 1) (.p 1), .trypush plainHdr (.port 0) (.g 1) (.g 1),
    .pushb plainHdr (.port 2) (.p 1) (some (.imm 0)), .pushb plainHdr (.port 3) (.p 1) (some (.imm 3)),
    .pushb plainHdr (.port 0) (.p 1) none, .pushb plainHdr (.port 2) (.g 1) none, .send plainHdr (.g 1) (.g 1),
    .send plainHdr (.remote 0 1 0) (.g 1), .send plainHdr (.remote 0 2 1) (.g 1), .send plainHdr (.remote 0 3 0) (.g 1),
    .vsend plainHdr (.remote 0 0 0) (.v 1), .vsend plainHdr (.remote 16 1 0) (.v 1), .vsend plainHdr (.remote 0 1 0) (.s 1),
    .clrp plainHdr (.g 31), .clrp plainHdr (.s 1)] = true := by decide

theorem test_wf_memory : allIll [
    .ll plainHdr { mOk with base := .s 1 }, .ll plainHdr { mOk with sz := 7 }, .ll plainHdr { mOk with scope := 1 },
    .ll plainHdr { mOk with mode := 3 }, .ll plainHdr { mOk with mode := 1, sz := 2 },
    .ll plainHdr { mOk with mode := 1, scope := 27 }, .ls plainHdr { mOk with mode := 2 }, .ls plainHdr { mOk with mode := 6 },
    .ld plainHdr { mOk with mode := 1 }, .ld plainHdr { mOk with scope := 1 }, .st plainHdr { mOk with base := .imm 1 },
    .ldc plainHdr { mOk with sz := 7 }, .ldfe plainHdr { mOk with sz := 2 }, .ldfe plainHdr { mOk with mode := 3 },
    .ldfe plainHdr { mOk with scope := 11 + 16 }, .stfe plainHdr { mOk with mode := 1 }, .stfe plainHdr { mOk with mode := 7 },
    .tryldfe plainHdr { mOk with didx := 63 }, .trystfe plainHdr { mOk with didx := 63 }, .atadd plainHdr { mOk with sz := 4 },
    .atadd plainHdr { mOk with mode := 1 }, .atmin plainHdr mOk, .atmin plainHdr { mOk with mode := 2 },
    .axchg plainHdr { mOk with scope := 1 }, .acas plainHdr mOk, .dst plainHdr { mOk with mode := 3, sz := 2 },
    .dst plainHdr { mOk with scope := 1 }, .rdsum plainHdr mOk, .rdsum plainHdr { mOk with didx := 8, sz := 2 },
    .rdsum plainHdr { mOk with didx := 8, mode := 1 }, .fence plainHdr 27, .rel plainHdr 31, .nfence plainHdr 27,
    .vll plainHdr { mOk with base := .s 1 }, .vll plainHdr { mOk with base := .g 1, sz := 0 },
    .vls plainHdr { mOk with base := .s 1, sz := 0, didx := 32 }] = true := by decide

theorem test_wf_system : allIll [
    .cpy plainHdr { cOk with scope := 1 }, .cpy plainHdr { cOk with acq := true, scope := 27 }, .cpy plainHdr { cOk with gc := 1 },
    .cpy plainHdr { cOk with gm := 1 }, .cpy plainHdr { cOk with mc := true }, .cpy plainHdr { cOk with rule := 1 },
    .cpy plainHdr { cOk with dir := true, fe := true }, .cpy plainHdr { cOk with dir := true, rule := 3, sgn := true },
    .nmc plainHdr 1 false false 1, .barinit plainHdr 1 27, .barinitDom plainHdr 1 1 1, .barinitDom plainHdr 1 1 5,
    .bararr plainHdr 1 5 1, .bararr plainHdr 1 0 1, .barwait plainHdr 1 1 false, .xsend plainHdr (.remote 0 1 0) 1 1,
    .xsend plainHdr (.g 1) 1 1, .xsendLm plainHdr (.remote 0 0 0) 8 1 0, .xsendLm plainHdr (.g 1) 9 1 0,
    .xsendLm plainHdr (.g 1) 8 1 4, .xsendLm plainHdr (.g 1) 8 1 0xFFC8, .qpost plainHdr 1 1 false false 2,
    .qtrig plainHdr 1 1 27, .qwait plainHdr 1 1 28, .launch plainHdr (.imm 1), .wloc plainHdr (.s 1) (.g 1) 0,
    .wloc plainHdr (.g 1) (.const 1) 0, .wloc plainHdr (.g 1) (.g 1) 27, .mfsv plainHdr 1 0x00C, .mtsv plainHdr 1 0x205,
    .taskEnd 0, .moduleReset] = true := by decide

theorem test_wf_vector : allIll [
    .vadd plainHdr { vOk with fmt := 3 }, .vadd plainHdr { vOk with sfmt := 1 }, .vadd plainHdr { vOk with sa := .p 1 },
    .vadd plainHdr { vOk with sb := some (.imm 1) }, .vadd plainHdr { vOk with rm := 3 }, .vadd plainHdr { vOk with stride := 1 },
    .vadd plainHdr { vOk with rm := 1, sbase := 1 }, .vmin plainHdr { vOk with rm := 1 }, .vmax plainHdr { vOk with sp := true },
    .vabs plainHdr vOk, .viadd plainHdr vOk, .vshl plainHdr { vOk with fmt := 16, rm := 1 },
    .viabs plainHdr { vOk with fmt := 16 }, .vcmpeq plainHdr { vOk with didx := 16 }, .vcmpeq plainHdr { vOk with fmt := 1 },
    .vcmpeq plainHdr { vOk with sfmt := 5 }, .vcmpeq plainHdr { vOk with sb := some (.imm 1) },
    .vcmpun plainHdr { vOk with sfmt := 16 }, .vsel plainHdr { vOk with fmt := 5 }, .vcvt plainHdr vOk,
    .vcvt plainHdr { vOk with sb := none, fmt := 7, sfmt := 5 }, .vcvt plainHdr { vOk with sb := none, fmt := 13, rm := 1 },
    .vcvt plainHdr { vOk with sb := none, fmt := 12, didx := 31 }, .vcvt plainHdr { vOk with sb := none, sfmt := 12, sa := .v 31 },
    .vcvt plainHdr { vOk with fmt := 14, sb := none }, .vcvtEf plainHdr { vOk with fmt := 3, rm := 3, sb := some (.v 2) },
    .vcvtEf plainHdr { vOk with fmt := 3, rm := 3, sb := some (.v 1) }, .vcvtEf plainHdr { vOk with rm := 3 }] = true := by decide

theorem test_wf_vector_2 : allIll [
    .vmxdot plainHdr vOk, .vmxdot plainHdr { vOk with sfmt := 8, rm := 1 }, .vmxdot plainHdr { vOk with sfmt := 8, sa := .v 31 },
    .vmxdot plainHdr { vOk with sfmt := 8, sb := some (.v 31) }, .vredsum plainHdr vOk,
    .vredsum plainHdr { vOk with sb := none, rm := 1 }, .vredsum plainHdr { vOk with sb := none, rm := 2, stride := 1 },
    .vredmax plainHdr { vOk with sb := none, fmt := 3 }, .vredmax plainHdr { vOk with sb := none, sp := true },
    .vperm plainHdr vOk, .vperm plainHdr { vOk with fmt := 16, sb := some (.imm 1) }, .vbcast plainHdr { vOk with sb := some (.s 1) },
    .vbcast plainHdr { vOk with sa := .none, sb := some (.imm 1) }, .vbcastElement plainHdr vOk,
    .vslide plainHdr { vOk with sa := .const 1, sb := some (.s 1) }, .vmov plainHdr vOk,
    .vmovPredicate plainHdr { vOk with sa := .p 1, sb := none }, .vmovPredicate plainHdr { vOk with fmt := 20, sb := none },
    .vrand plainHdr { vNone with sb := some (.v 1) }, .vrand plainHdr { vNone with fmt := 0, sb := some (.s 1) },
    .kset plainHdr { vNone with fmt := 0, didx := 0, sb := some (.s 15) },
    .kset plainHdr { vNone with fmt := 0, didx := 0, sb := some (.const 255) },
    .kset plainHdr { vNone with fmt := 0, sb := some (.s 1) }, .vexp2 plainHdr { vOk with sb := none, rm := 2 },
    .vsqrt plainHdr { vOk with sb := none, fmt := 1 }, .prange plainHdr { vNone with sb := some (.s 15) },
    .prange plainHdr { vNone with didx := 16, sb := some (.s 1) }, .prange plainHdr { vNone with fmt := 5, sb := some (.s 1) },
    .vlen plainHdr { vNone with fmt := 16 }, .vlen plainHdr { vNone with fmt := 20 }, .vstat plainHdr { vNone with fmt := 22 },
    .vstatPredicate plainHdr { vNone with fmt := 0, sb := some (.imm 16) },
    .vstatPredicate plainHdr { vNone with fmt := 0, didx := 16, sb := some (.imm 1) },
    .vclrf plainHdr { vNone with fmt := 0, sb := some (.imm 1) },
    .vclrf plainHdr { vNone with fmt := 0, didx := 0, sb := some (.imm 16) }] = true := by decide

theorem test_wf_matrix : allIll [
    .wld plainHdr 0 1 false, .gmmaF plainHdr { gOk with rm := 1 }, .gmmaF plainHdr { gOk with ct := 1 },
    .gmmaF plainHdr { gOk with accr := 255, mm1 := 1 }, .gmmaF plainHdr { gOk with tb := 1 }, .gmmaF plainHdr { gOk with tm := 1 },
    .gmmaF plainHdr { gOk with msk := true }, .gmmaB plainHdr { gOk with tm := 1 }, .gmmaB plainHdr { gOk with tb := 1 },
    .gmmaO plainHdr { gOk with mm1 := 255 }, .gmmaO plainHdr { gOk with accr := 1 }, .gmmaO plainHdr { gOk with tm := 1 },
    .drain plainHdr { aOk with accr := 255, mm1 := 1 }, .drain plainHdr { aOk with fmt := 5 }, .drain plainHdr { aOk with rm := 3 },
    .drain plainHdr { aOk with ct := 1 }, .drain plainHdr { aOk with ns := 1 }, .drain plainHdr { aOk with bank2 := true },
    .drainAdd plainHdr { aOk with ns := 255 }, .drainAdd plainHdr { aOk with td := 1 }, .drainAdd plainHdr { aOk with rm := 2 },
    .odrain plainHdr { aOk with accr := 193 }, .odrain plainHdr { aOk with mm1 := 1 }, .odrain plainHdr { aOk with rm := 2 },
    .odrain plainHdr { aOk with clr := true }, .join plainHdr aOk, .join plainHdr { aOk with ns := 1, rm := 1 },
    .join plainHdr { aOk with ns := 1, add := true }, .accld plainHdr { aOk with fmt := 1 }, .accst plainHdr { aOk with accr2 := 1 },
    .acccp plainHdr { aOk with td := 1 }, .acccp plainHdr { aOk with accr2 := 255, mm1 := 1 }, .csheet plainHdr 0 0x18,
    .ccfg plainHdr 0 6, .ccfg plainHdr 0 0x28] = true := by decide

/-- A word whose OP is unassigned, one whose FN is, one with a bit of [69:66], and reserved bits of several families. -/
theorem test_decode_refuses : [0xE00000000000000000000000, 0x04000000_00000000_00000000, 0x000E0000_00000000_00000000,
    0x00000004_00000000_00000000, 0x00000000_00000000_00000001, 0x00010000_00000000_00000040,
    0x10000000_00000001_00000000, 0xC2000000_00000000_40000000, 0xC2000000_00000000_02000000, 0x70040030_00000000_00000000,
    0xC4030000_00000000_00000000, 0x46000000_00000000_00000001].all (fun w => (decode w).isNone) = true := by decide

/-! ### Witnesses of the hypotheses -/

/-- A core whose A-stream and X-stream may issue, with a few registers set. -/
def busyCore : Core :=
  { Core.idle with
      cyc := 100, a := { Stream.idle with run := true, pc := 10 }, x := { Stream.idle with run := true, pc := 20 },
      g := [(1, 5), (2, 0x8000000000000000), (3, 0xFFFFFFFFFFFFFFFF)], s := [(1, 5), (2, 3)], v := [(1, 7), (2, 9)],
      pa := [(1, true)], px := [(1, BitVec.allOnes 128)] }

/-- A state of one core, whose A-stream or X-stream is the current one. -/
def lone (c : Core) (x : Bool := false) : State :=
  { State.reset with cores := [(0, c)], cur := { core := 0, x := x } }

/-- A state whose current core is Welwick core 32768, its addresses physical ones. -/
def welwick (c : Core := { busyCore with level := .h, x := Stream.idle }) : State :=
  { State.reset with cores := [(32768, c)], cur := { core := 32768, x := false } }

/-- An instruction issues and its needs are met. -/
def served (s : State) (i : Instr) (n : Needs) : Bool := decide (s.issues i) && decide (s.serves n)

/-- An outcome is a next state that meets a condition. -/
def isNext (o : Out) (p : State → Bool := fun _ => true) : Bool :=
  match o with
  | .next t => p t
  | _ => false

theorem wit_RoundTrips :
    (([(.nop plainHdr, 0x00), (.clrp plainHdr (.g 63), 0x32), (.ll plainHdr mOk, 0x40), (.tlbinvAll plainHdr true, 0x70),
       (.vadd plainHdr vOk, 0x80), (.ccfg plainHdr 0 0x7F, 0xC8)] : List (Instr × Nat)).all
      fun e => e.1.wf && (opFn e.1).1 == e.2) = true := by decide

/-- A launch that runs on this device: one level, GANG and a take level where asked for. -/
def aRun (take : Bool := false) : Run :=
  { id := 1, sb := 1, idx := 0, slate := 0, space := 0, d := 1, dIdx := 0, cls := 0,
    levels := [{ name := 0, extent := 8, width := 8, bind := 8, co := false, ord := false, lane := false, bar := true, gang := false,
                 take := take, esz := 0 }], spi := 0, seed := 0, cgrp := 0, dgrp := 0,
    takeLv := if take then some 0 else none, gangLv := none, entry := 0, args := 0, image := [], sheet := none, go := true,
    groups := 1, dealt := 1, places := [], started := 0, endedTasks := [], preempted := false, saved := none, aborted := false,
    retired := false, lastCut := false, turn := 0, startAt := 0, reported := false, allEnded := false, excl := [], pins := [] }

/-- A task of that launch. -/
def aTask (take : Nat := 1) : Task :=
  { run := 1, wid := 0, group := 0, gidx := 0, take := take, seq := 0, errc := 0, cyc0 := 0, watch := none, watchHeld := none,
    preempt := false, ending := false, errTraps := [], safe := none, kept := [], seenBy := [] }

/-- Its storyboard. -/
def aStory : Story :=
  { id := 1, va := 0x40, nth := 0, space := 0, d := 1, dIdx := 0, cls := 0, intr := false, done := 0, donePa := 0, doneFe := false,
    slates := [0], edges := [], check := 0, launches := [.accepted 1], queued := true, t0 := none, t1 := 0, drop0 := 0, cutw := 0,
    finished := false }

/-- Core 0 runs a task of the launch, with page tables that map thirteen pages of 1 GiB: a plain one, a published one, one on the
read-only path, one with full/empty bits, one of peer 1, one that may only be read, a published one of peer 1, one of peer 1 on the
read-only path, one of peer 1 with full/empty bits, a published one with them, two cached ones, of write policy 0 and
1, and one of another stack; the addresses from 2^48 on map the same. -/
def tasked (c : Core := busyCore) (take : Bool := false) (x : Bool := false) : State :=
  let s := { lone { c with task := some aTask } x with runs := [aRun take], stories := [aStory], sptbase := 0x1000, sptlim := 1 }
  let words : List (Nat × Nat) :=
    [(0x1000, 0x2001), (0x2000, 0x3001), (0x2008, 0x3001), (0x3000, 0x4001), (0x4000, 0x4000007F), (0x4008, 0x4000007F + 2 ^ 59),
     (0x4010, 0x40000077 + 2 ^ 60), (0x4018, 0x4000007F + 2 ^ 61), (0x4020, 0x4000007F + 2 ^ 45), (0x4028, 0x40000037),
     (0x4030, 0x4000007F + 2 ^ 59 + 2 ^ 45), (0x4038, 0x40000077 + 2 ^ 60 + 2 ^ 45), (0x4040, 0x4000007F + 2 ^ 61 + 2 ^ 45),
     (0x4048, 0x4000007F + 2 ^ 61 + 2 ^ 59), (0x4050, 0x400000FF), (0x4058, 0x400002FF),
     (0x4060, 0x7F + 2 ^ 36)]
  words.foldl (fun s w => s.memPut w.1 (leBytes w.2 8)) s

/-- A routing table in which peer 1 is a partition of the same module. -/
def near (s : State) : State := { s.memPut 0x7008 (leBytes 3 8) with frtbase := 0x7001 }

/-- That task with g1 at an address of page `k`. -/
def onPage (k : Nat) (c : Core := busyCore) (take : Bool := false) (lo : Nat := 0x40) : State :=
  tasked { c with g := [(1, BitVec.ofNat 64 (k * 2 ^ 30 + lo)), (2, 0x2222222222222222), (3, 3)] } take

/-- Where translation and checks answer a page, they reach it. -/
theorem reaches_of (s : State) (va : Nat) (rd wr : Bool) (p : TlbEntry → State → Bool)
    (h : (match (reach (s.asker s.cur.core) va rd wr (s.translateFor s.cur.core va)).1 with
      | .page t => p t (reach (s.asker s.cur.core) va rd wr (s.translateFor s.cur.core va)).2
      | _ => false) = true) : ∃ t u, s.reaches va rd wr t u ∧ p t u = true := by
  split at h
  · next t e => exact ⟨t, _, Prod.ext e rfl, h⟩
  · cases h

theorem reaches_by (s : State) (va : Nat) (rd wr : Bool) (t : TlbEntry)
    (h : (reach (s.asker s.cur.core) va rd wr (s.translateFor s.cur.core va)).1 = .page t) :
    s.reaches va rd wr t (reach (s.asker s.cur.core) va rd wr (s.translateFor s.cur.core va)).2 := Prod.ext h rfl

/-- A copy of four words between page 0 and LM 0x800, none of them moved. -/
def aCopy (store : Bool := false) (cw : Bool := false) : CopyRun :=
  { form := { cOk with dir := store, cw := cw }, run := some 1, space := 0, sup := false, va := 0x40, esz := 8, dlm := 0x800,
    dims := [{ ext := 4, bnd := 4, stride := 8, pitch := 8 }], cword := 0x900, peers := 0, next := 0, wm := 0x800, lmEnd := 0x820,
    moved := 0, faulted := 0, fault1 := none, ropHeld := none, clipped := false, clipSt := 0, seqBase := 0, gran := none, grans := 0,
    lastLine := none, vec := [], ctx := ⟨true, 0, 0, 0, 0, 0⟩ }

/-- An engine's translation ends at a page that meets a condition. -/
def enginePage (q : Asker) (va : Nat) (rd wr : Bool) (p : TlbEntry → State → Bool) (r : Xlated × State) : Bool :=
  match (reachEngine q va rd wr r).1 with
  | .page t => p t (reachEngine q va rd wr r).2
  | _ => false

/-- Where translation and checks answer an engine a page, they reach it. -/
theorem engine_of (q : Asker) (va : Nat) (rd wr : Bool) (r : Xlated × State) (p : TlbEntry → State → Bool)
    (h : enginePage q va rd wr p r = true) : ∃ t u, reachEngine q va rd wr r = (.page t, u) ∧ p t u = true := by
  unfold enginePage at h
  split at h
  · next t e => exact ⟨t, _, Prod.ext e rfl, h⟩
  · cases h

/-- Where an option of a page and a state is some page, it is. -/
theorem some_of (o : Option (Option TlbEntry × State)) (p : TlbEntry → State → Bool)
    (h : o.any (fun r => r.1.any (fun t => p t r.2)) = true) : ∃ t u, o = some (some t, u) ∧ p t u = true := by
  obtain _ | ⟨_ | t, u⟩ := o
  · cases h
  · cases h
  · exact ⟨t, u, rfl, h⟩

/-- The walk-cache look-ups of a translation whose address shares only the space-table entry with what is cached: whether that
entry is still held is free, and the walk goes on either way. -/
theorem far_walk (s : State) (q : Asker) (va : Nat) (w : WalkEntry)
    (h : walkLevels.map (fun l => s.walks.find? (fun w => w.die == q.die && w.space == q.space && w.level == l &&
      w.prefixVa == walkTag l va)) = [none, none, none, none, some w]) :
    cachedWalk q va s walkLevels = (none, s.draw.2) ∨ cachedWalk q va s walkLevels = (some (15, w.entry), s.draw.2) := by
  simp only [walkLevels, List.map_cons, List.map_nil, List.cons.injEq, and_true] at h
  obtain ⟨h3, h2, h1, h0, h15⟩ := h
  simp only [walkLevels, cachedWalk, h3, h2, h1, h0, h15]
  cases Config.keeps s.draw.1
  · left; simp
  · right; simp [*]

/-- Such a translation ends as its walk does, on both ways. -/
theorem far_translation (s : State) (q : Asker) (va : Nat) (p : Xlated × State → Bool) (w : WalkEntry) (h57 : va < 2 ^ 57)
    (ht : s.tlb.find? (fun t => t.maps q va) = none)
    (h : walkLevels.map (fun l => s.draw.2.walks.find? (fun w => w.die == q.die && w.space == q.space && w.level == l &&
      w.prefixVa == walkTag l va)) = [none, none, none, none, some w])
    (k : ∀ c, (c = (none, s.draw.2.draw.2) ∨ c = (some (15, w.entry), s.draw.2.draw.2)) →
      p (match (match c with
          | (some (15, e), s) => walkFrom q va 5 0 (entryNext e) [] s
          | (some (l, e), s) => walkFrom q va (4 - l) (l + 1) (entryNext e) [] s
          | (none, s) =>
            if s.sptlim ≤ q.space then (.fault 0 0xF 0 0, s)
            else
              let a := s.sptbase.toNat + 8 * q.space
              match s.readEntry q va a with
              | (none, s) => (.wait, s)
              | (some e, s) =>
                if !bitAt e.toNat 0 then (.fault 0 0xF a e, s)
                else if spaceReserved e.toNat then (.fault 2 0xF a e, s)
                else walkFrom q va 5 0 (entryNext e) [(15, e)] s : Walked × State) with
        | (.leaf e level pos path, s) => s.walked q va e level pos path
        | (.fault kind level pos e, s) => (.fault kind level pos e, s)
        | (.wait, s) => (.wait, s)) = true) : p (s.translate q va) = true := by
  have h' := k _ (far_walk s.draw.2 q va w h)
  unfold State.translate
  rw [if_neg (by omega)]
  have ht' : s.draw.2.tlb.find? (fun t => t.maps q va) = none := ht
  simp only [ht']
  exact h'

/-- Where the pages of an array are all there, they are. -/
theorem pages_of (r : Pages × State) (p : List (Nat × TlbEntry) → Bool)
    (h : (match r.1 with
      | .ok ps => p ps
      | _ => false) = true) : ∃ ps, r = (.ok ps, r.2) ∧ p ps = true := by
  split at h
  · next ps e => exact ⟨ps, Prod.ext e rfl, h⟩
  · cases h

/-- The rest of a walk over pages after its first translation ends with every page there, and they meet a condition. -/
def pagesVia (q : Asker) (rd wr : Bool) (stop va f : Nat) (p : List (Nat × TlbEntry) → Bool) (r : Xlated × State) : Bool :=
  match (match reachEngine q va rd wr r with
    | (.page t, s) => walkPages q rd wr stop (t.vbase + 2 ^ t.log) ([] ++ [(va, t)]) f s
    | (.trap c code info, s) => (.trap c code info, s)
    | (.wait, s) => (.wait, s)).1 with
  | .ok ps => p ps
  | _ => false

/-- Then the walk over the pages does. -/
theorem pages_via (q : Asker) (rd wr : Bool) (stop va f : Nat) (p : List (Nat × TlbEntry) → Bool) (s : State) (h : va < stop)
    (k : pagesVia q rd wr stop va f p (s.translate q va) = true) :
    ∃ ps v, walkPages q rd wr stop va [] (f + 1) s = (.ok ps, v) ∧ p ps = true := by
  obtain ⟨ps, e, e'⟩ := pages_of (walkPages q rd wr stop va [] (f + 1) s) p (by
    rw [walkPages, if_neg (by omega)]
    exact k)
  exact ⟨ps, _, e, e'⟩

/-- A state with other translation stores, another walk cache and another count of free values. -/
def withStores (s : State) (d : Nat) (tlb : List TlbEntry) (walks : List WalkEntry) : State :=
  { s with drawn := d, tlb := tlb, walks := walks }

/-- The translation of page 0 that a store may hold, and the table entries that lead to it. -/
def pageZero (place : Nat) : TlbEntry :=
  { place := place, space := 0, vbase := 0, log := 30, pbase := 0x40000000, leaf := 0x4000007F, dirty := true, at0 := 0x4000, n := 1,
    words := [] }
def walkZero (w : WalkEntry) : Bool := [(15, (0x2001 : Word)), (0, 0x3001), (1, 0x4001)].contains (w.level, w.entry)

/-- A state that differs from another in what is cached of page 0's translation only. -/
def Steady (s u : State) : Prop :=
  ∃ d tlb walks, u = withStores s d tlb walks ∧ (∀ t ∈ tlb, t.vbase < 2 ^ 30 → t = pageZero t.place) ∧ ∀ w ∈ walks, walkZero w = true

/-- The tables of page 0 stand in memory, readable for an asker. -/
def tabled (s : State) (q : Asker) : Bool :=
  q.space == 0 && decide (s.sptbase = 0x1000) && decide (0 < s.sptlim) && s.entryKind 0x4000007F 2 == .leaf &&
  [(0x1000, (0x2001 : Word)), (0x2000, 0x3001), (0x3000, 0x4001), (0x4000, 0x4000007F)].all (fun e =>
    s.assigned e.1 && s.covers (homeOf e.1) (s.vecOf q.die) && !tget false (e.1 / 8) s.bad && BitVec.ofNat 64 (s.memRd e.1 8) == e.2)

theorem tabled_read (s : State) (q : Asker) (va d a : Nat) (tlb : List TlbEntry) (walks : List WalkEntry) (e : Word) (h : tabled s q = true)
    (m : (a, e) ∈ [(0x1000, (0x2001 : Word)), (0x2000, 0x3001), (0x3000, 0x4001), (0x4000, 0x4000007F)]) :
    (withStores s d tlb walks).readEntry q va a = (some e, withStores s d tlb walks) := by
  simp only [tabled, Bool.and_eq_true] at h
  obtain ⟨-, h⟩ := h
  have k := List.all_eq_true.1 h _ m
  simp only [Bool.and_eq_true, Bool.not_eq_true', beq_iff_eq] at k
  obtain ⟨⟨⟨k1, k2⟩, k3⟩, k4⟩ := k
  have t : (withStores s d tlb walks).touch a = withStores s d tlb walks := by
    simp [State.touch, show (withStores s d tlb walks).assigned a = true from k1]
  simp only [State.readEntry, t]
  rw [show (withStores s d tlb walks).covers (homeOf a) ((withStores s d tlb walks).vecOf q.die) = true from k2,
    show tget false (a / 8) (withStores s d tlb walks).bad = false from k3,
    show BitVec.ofNat 64 ((withStores s d tlb walks).memRd a 8) = e from k4]
  simp

theorem tabled_kinds (s : State) (q : Asker) (h : tabled s q = true) :
    s.entryKind 0x3001 0 = .table ∧ s.entryKind 0x4001 1 = .table ∧ s.entryKind 0x4000007F 2 = .leaf := by
  refine ⟨by simp [State.entryKind, bitAt, fld], by simp [State.entryKind, bitAt, fld], ?_⟩
  simp only [tabled, Bool.and_eq_true, beq_iff_eq] at h
  exact h.1.2

theorem tabled_from (s : State) (q : Asker) (va d f : Nat) (tlb : List TlbEntry) (walks : List WalkEntry) (path : List (Nat × Word))
    (h : tabled s q = true) (hv : va < 2 ^ 30) :
    let u := withStores s d tlb walks
    walkFrom q va (f + 1) 2 0x4000 path u = (.leaf 0x4000007F 2 0x4000 path, u) ∧
    walkFrom q va (f + 2) 1 0x3000 path u = (.leaf 0x4000007F 2 0x4000 (path ++ [(1, 0x4001)]), u) ∧
    walkFrom q va (f + 3) 0 0x2000 path u = (.leaf 0x4000007F 2 0x4000 (path ++ [(0, 0x3001)] ++ [(1, 0x4001)]), u) := by
  intro u
  obtain ⟨k0, k1, k2⟩ := tabled_kinds s q h
  have f0 : fld va 48 9 = 0 := by simp only [fld]; omega
  have f1 : fld va 39 9 = 0 := by simp only [fld]; omega
  have f2 : fld va 30 9 = 0 := by simp only [fld]; omega
  have a2 (f path) : walkFrom q va (f + 1) 2 0x4000 path u = (.leaf 0x4000007F 2 0x4000 path, u) := by
    simp only [walkFrom, Nat.reduceMul, Nat.reduceSub, f2, Nat.mul_zero, Nat.add_zero]
    rw [tabled_read s q va d 0x4000 tlb walks 0x4000007F h (by simp)]
    simp only [show (withStores s d tlb walks).entryKind 0x4000007F 2 = .leaf from k2]
    rfl
  have a1 (f path) : walkFrom q va (f + 2) 1 0x3000 path u = (.leaf 0x4000007F 2 0x4000 (path ++ [(1, 0x4001)]), u) := by
    rw [walkFrom]
    simp only [f1, Nat.mul_zero, Nat.add_zero]
    rw [tabled_read s q va d 0x3000 tlb walks 0x4001 h (by simp)]
    simp only [show (withStores s d tlb walks).entryKind 0x4001 1 = .table from k1]
    exact a2 f _
  refine ⟨a2 f path, a1 f path, ?_⟩
  rw [walkFrom]
  simp only [Nat.reduceSub, f0, Nat.mul_zero, Nat.add_zero]
  rw [tabled_read s q va d 0x2000 tlb walks 0x3001 h (by simp)]
  simp only [show (withStores s d tlb walks).entryKind 0x3001 0 = .table from k0]
  exact a1 f _

theorem steady_cached (s : State) (q : Asker) (va : Nat) (tlb : List TlbEntry) (walks : List WalkEntry) (ls : List Nat) (d : Nat) :
    ∃ d', cachedWalk q va (withStores s d tlb walks) ls = (none, withStores s d' tlb walks) ∨
      ∃ w ∈ walks, cachedWalk q va (withStores s d tlb walks) ls = (some (w.level, w.entry), withStores s d' tlb walks) := by
  induction ls generalizing d with
  | nil => exact ⟨d, .inl rfl⟩
  | cons l ls ih =>
    rw [cachedWalk]
    split
    · next w e =>
      have e' : walks.find? (fun w => w.die == q.die && w.space == q.space && w.level == l && w.prefixVa == walkTag l va) = some w := e
      have m := List.mem_of_find?_eq_some e'
      have k := List.find?_some e'
      simp only [Bool.and_eq_true, beq_iff_eq] at k
      simp only [show (withStores s d tlb walks).draw = (d, withStores s (d + 1) tlb walks) from rfl]
      by_cases kp : Config.keeps d = true
      · exact ⟨d + 1, .inr ⟨w, m, by rw [if_pos kp, k.1.2]⟩⟩
      · simpa only [if_neg kp] using ih (d + 1)
    · exact ih d

theorem steady_walk (s : State) (q : Asker) (va d : Nat) (tlb : List TlbEntry) (walks : List WalkEntry) (h : tabled s q = true)
    (hv : va < 2 ^ 30) (hw : ∀ w ∈ walks, walkZero w = true) :
    ∃ d' path, (withStores s d tlb walks).walk q va = (.leaf 0x4000007F 2 0x4000 path, withStores s d' tlb walks) ∧
      ∀ p ∈ path, [(15, (0x2001 : Word)), (0, 0x3001), (1, 0x4001)].contains p = true := by
  have n1 : entryNext 0x2001 = 0x2000 := by decide
  have n2 : entryNext 0x3001 = 0x3000 := by decide
  have n3 : entryNext 0x4001 = 0x4000 := by decide
  obtain ⟨d', e | ⟨w, m, e⟩⟩ := steady_cached s q va tlb walks walkLevels d
  · refine ⟨d', [(15, 0x2001)] ++ [(0, 0x3001)] ++ [(1, 0x4001)], ?_, by decide⟩
    have h' := h
    simp only [tabled, Bool.and_eq_true, beq_iff_eq, decide_eq_true_eq] at h'
    obtain ⟨⟨⟨⟨s0, sb⟩, sl⟩, -⟩, -⟩ := h'
    rw [State.walk, e]
    simp only [show (withStores s d' tlb walks).sptlim = s.sptlim from rfl, show (withStores s d' tlb walks).sptbase = s.sptbase from rfl,
      s0, sb, if_neg (show ¬(s.sptlim ≤ 0) by omega), Nat.mul_zero, Nat.add_zero, show (0x1000 : Word).toNat = 0x1000 from by decide]
    rw [tabled_read s q va d' 0x1000 tlb walks 0x2001 h (by simp)]
    simp only []
    rw [if_neg (by decide), if_neg (by decide), n1]
    exact (tabled_from s q va d' 2 tlb walks [(15, 0x2001)] h hv).2.2
  · have k := hw w m
    simp only [walkZero, List.contains_iff_mem, List.mem_cons, List.not_mem_nil, or_false, Prod.mk.injEq] at k
    obtain ⟨l1, l2⟩ | ⟨l1, l2⟩ | ⟨l1, l2⟩ := k <;> rw [l1, l2] at e <;> rw [State.walk, e] <;> simp only [n1, n2, n3]
    · exact ⟨d', _, (tabled_from s q va d' 2 tlb walks [] h hv).2.2, by decide⟩
    · exact ⟨d', _, (tabled_from s q va d' 2 tlb walks [] h hv).2.1, by decide⟩
    · exact ⟨d', _, (tabled_from s q va d' 2 tlb walks [] h hv).1, by decide⟩

/-- What a translation store holds after one more entry was among it or is the new one. -/
theorem mem_addTlb {cap : Nat} {t u : TlbEntry} {l : List TlbEntry} (m : u ∈ addTlb cap t l) : u = t ∨ u ∈ l := by
  simp only [addTlb, List.mem_append, List.mem_filter] at m
  obtain m | m := m
  · obtain m | m := List.mem_cons.1 (List.mem_of_mem_take m)
    · exact .inl m
    · exact .inr (List.mem_filter.1 m).1
  · exact .inr m.1

/-- Every translation in page 0 answers that page, whatever is cached. -/
theorem steady_translate (s u : State) (q : Asker) (va : Nat) (h : tabled s q = true) (hv : va < 2 ^ 30) (k : Steady s u) :
    ∃ p v, u.translate q va = (.page (pageZero p), v) ∧ Steady s v := by
  obtain ⟨d, tlb, walks, rfl, ht, hw⟩ := k
  have h0 : q.space = 0 := by
    simp only [tabled, Bool.and_eq_true, beq_iff_eq] at h
    exact h.1.1.1.1
  obtain ⟨d', path, e, hp⟩ := steady_walk s q va (d + 1) tlb walks h hv hw
  have new : ∃ p v, ((match (withStores s (d + 1) tlb walks).walk q va with
      | (.leaf e level pos path, s) => s.walked q va e level pos path
      | (.fault kind level pos e, s) => (.fault kind level pos e, s)
      | (.wait, s) => (.wait, s)) : Xlated × State) = (.page (pageZero p), v) ∧ Steady s v := by
    have t0 : (withStores s d' tlb walks).entryFor q va 0x4000007F 2 0x4000 = pageZero 0 := by
      simp only [State.entryFor, show leafCont 0x4000007F = false from by decide, Bool.false_and, Bool.false_eq_true, if_false, h0]
      have : va / 2 ^ pageLog 2 = 0 := by show va / 2 ^ 30 = 0; omega
      simp only [this]
      rfl
    refine ⟨q.place, (withStores s d' tlb walks).install q va (pageZero 0) path, ?_, ?_⟩
    · rw [e]
      simp only [State.walked, show leafCont 0x4000007F = false from by decide, Bool.false_eq_true, if_false, t0]
      rfl
    · rw [State.install, if_pos (by decide)]
      refine ⟨_, _, _, rfl, ?_, ?_⟩
      · intro t m hb
        split at m
        · obtain rfl | m := mem_addTlb m
          · rfl
          obtain rfl | m := mem_addTlb m
          · rfl
          exact ht t m hb
        · obtain rfl | m := mem_addTlb m
          · rfl
          exact ht t m hb
      · intro w m
        obtain m | m := List.mem_append.1 m
        · obtain m | m := List.mem_append.1 (List.mem_of_mem_take m)
          · obtain ⟨p, mp, rfl⟩ := List.mem_map.1 m
            exact hp p (List.mem_reverse.1 mp)
          · exact hw w (List.mem_filter.1 m).1
        · exact hw w (List.mem_filter.1 m).1
  unfold State.translate
  rw [if_neg (by omega)]
  simp only [show (withStores s d tlb walks).draw = (d, withStores s (d + 1) tlb walks) from rfl]
  split
  · next t e' _ =>
    have m : t ∈ tlb := List.mem_of_find?_eq_some e'
    have k := List.find?_some e'
    simp only [TlbEntry.maps, Bool.and_eq_true, beq_iff_eq] at k
    have b : t.vbase < 2 ^ 30 := k.2 ▸ Nat.lt_of_le_of_lt (Nat.div_mul_le_self ..) hv
    exact ⟨t.place, withStores s (d + 1) tlb walks, by rw [← ht t m b], d + 1, tlb, walks, rfl, ht, hw⟩
  · exact new

theorem steady_reach (s u : State) (q : Asker) (va : Nat) (rd wr : Bool) (h : tabled s q = true) (hv : va < 2 ^ 30) (k : Steady s u) :
    ∃ p v, reach q va rd wr (u.translate q va) = (.page (pageZero p), v) ∧
      reachEngine q va rd wr (u.translate q va) = (.page (pageZero p), v) ∧ Steady s v := by
  obtain ⟨p, v, e, k⟩ := steady_translate s u q va h hv k
  have c : checkLeaf q.user rd wr 0x4000007F = .ok := by
    cases q.user <;> cases rd <;> cases wr <;> decide
  have r : reach q va rd wr (.page (pageZero p), v) = (.page (pageZero p), v) := by
    simp only [reach, show checkLeaf q.user rd wr (pageZero p).leaf = .ok from c]
  refine ⟨p, v, by rw [e, r], ?_, k⟩
  rw [e]
  simp only [reachEngine, show checkLeaf q.user rd wr (pageZero p).leaf = .ok from c, r]
  rfl

/-- An array within page 0 has that page, whatever is cached. -/
theorem steady_pages (s u : State) (q : Asker) (rd wr : Bool) (stop va f : Nat) (h : tabled s q = true) (h0 : va < stop)
    (h1 : stop ≤ 2 ^ 30) (k : Steady s u) :
    ∃ p v, walkPages q rd wr stop va [] (f + 2) u = (.ok [(va, pageZero p)], v) ∧ Steady s v := by
  obtain ⟨p, v, -, e, k⟩ := steady_reach s u q va rd wr h (by omega) k
  refine ⟨p, v, ?_, k⟩
  have top : (pageZero p).vbase + 2 ^ (pageZero p).log = 2 ^ 30 := by show 0 + 2 ^ 30 = 2 ^ 30; rfl
  rw [walkPages, if_neg (by omega), e]
  simp only [top]
  rw [walkPages, if_pos h1]
  rfl

/-- The bytes of page 0 from an address on. -/
def zeroBytes (s : State) (va n : Nat) : List Byte := (upFrom 0 n).map (fun i => tget 0 (0x40000000 + va + i) s.mem)

/-- A span within 4 KiB of page 0 is read whole, whatever is cached. -/
theorem steady_span (s u : State) (q : Asker) (va n f : Nat) (h : tabled s q = true) (hb : s.bad = []) (hp : s.peerid = 0)
    (hc : s.covers (homeOf (0x40000000 + va)) (s.vecOf q.die) = true) (hn : 0 < n) (h1 : va % 4096 + n ≤ 4096) (hv : va < 2 ^ 30) (k : Steady s u) :
    ∃ v, readSpan q (f + 2) va n [] u = (.bytes (zeroBytes s va n), v) ∧ Steady s v := by
  obtain ⟨p, v, -, e, k⟩ := steady_reach s u q va true false h hv k
  refine ⟨v, ?_, k⟩
  obtain ⟨d, tlb, walks, rfl, -, -⟩ := k
  have hm : min n (4096 - va % 4096) = n := by omega
  have ha : (pageZero p).addr va = 0x40000000 + va := by
    simp only [TlbEntry.addr, pageZero, Nat.mod_eq_of_lt hv]
  have hl : paLocal (0x40000000 + va) = 0x40000000 + va := by simp only [paLocal]; omega
  have hq : paPeer (0x40000000 + va) = 0 := by simp only [paPeer]; omega
  rw [readSpan, if_neg (by omega), e]
  simp only [ha, hl, hq, hm]
  rw [if_neg (by simp [show (withStores s d tlb walks).peerid = 0 from hp]),
    if_neg (by simp [show (withStores s d tlb walks).covers _ ((withStores s d tlb walks).vecOf q.die) = true from hc])]
  have hr : (withStores s d tlb walks).rawBytes 0 0 va (0x40000000 + va) n = (zeroBytes s va n, withStores s d tlb walks) := by
    have : ∀ w, tget false w s.bad = false := by
      intro w; rw [hb]; rfl
    simp [State.rawBytes, this, zeroBytes, withStores]
  rw [hr]
  simp [readSpan]

theorem steady_self (s : State) (h : s.tlb = []) (k : s.walks = []) : Steady s s :=
  ⟨s.drawn, s.tlb, s.walks, rfl, by simp [h], by simp [k]⟩

/-- What is cached of translations decides nothing else. -/
theorem steady_same (s u : State) (k : Steady s u) : u.peerid = s.peerid ∧ (∀ a n, u.memRd a n = s.memRd a n) ∧
    (∀ n, (u.asker n).space = (s.asker n).space) ∧ (∀ n, u.engineAsker n = s.engineAsker n) ∧ u.me = s.me ∧ u.qpTail = s.qpTail ∧
    (∀ n a b, u.takeWait n a b = s.takeWait n a b) ∧ ∀ d a, u.engineFree d a = s.engineFree d a := by
  obtain ⟨d, tlb, walks, rfl, -, -⟩ := k
  exact ⟨rfl, fun _ _ => rfl, fun _ => rfl, fun _ => rfl, rfl, rfl, fun _ _ _ => rfl, fun _ _ => rfl⟩

/-- The checks of a continuity instruction in page 0 end with every page there. -/
theorem steady_cont (s : State) (n : Nat) (take : Bool) (l : List (Nat × Bool)) (h : tabled s { s.engineAsker n with user := true } = true)
    (hp : s.peerid = 0) (hl : ∀ e ∈ l, e.1 < 2 ^ 30) (pas : List (Nat × TlbEntry)) (u : State) (k : Steady s u) :
    ∃ ps v, contPages n take l pas u = (.ok ps, v) := by
  induction l generalizing pas u with
  | nil => exact ⟨pas, u, rfl⟩
  | cons e l ih =>
    obtain ⟨va, rd⟩ := e
    have hq : u.engineAsker n = s.engineAsker n := by obtain ⟨d, tlb, walks, rfl, -, -⟩ := k; rfl
    obtain ⟨p, v, e, -, k'⟩ := steady_reach s u { s.engineAsker n with user := true } va rd true h (hl _ (List.mem_cons_self ..)) k
    have hv : v.peerid = 0 := by obtain ⟨d, tlb, walks, rfl, -, -⟩ := k'; exact hp
    have ha : paPeer ((pageZero p).addr va) = 0 := by
      have := hl _ (List.mem_cons_self ..)
      simp only [TlbEntry.addr, pageZero, paPeer]
      omega
    rw [contPages, hq, e]
    have hf : leafPub (pageZero p).leaf = false := (by decide : leafPub 0x4000007F = false)
    simp only [ha, hv, hf]
    simpa using ih (fun e m => hl e (List.mem_cons_of_mem _ m)) _ v k'

theorem wit_StepRunsDecodedInstruction :
    let s := State.reset.withFetchWord 96 0x00010000_00001000_00800003
    let t := { s with schedule := [] }.atIssue 0 false
    s.schedule = .issue 0 false :: [] ∧ isHub 0 = false ∧ (s.core 0).mayIssue false = true ∧ t.errorDue 0 = none ∧
      t.overdue 0 = false ∧ s.slotBarred 0 false = false ∧ ({ s with schedule := [] } : State).foremost 0 = 0 ∧
      (decode (tget 0 ((s.core 0).stream false).pc (s.core 0).code).toNat).isSome = true ∧
      isNext (step s) = true := by decide +kernel

/-- The word of zeros at a Welwick core's PC is fetched from the memory it reaches. -/
theorem wit_StepRunsDecodedInstruction_welwick :
    let s := { welwick with schedule := [.issue 32768 false] }
    let v := { s with schedule := [] }
    let t := v.atIssue 32768 false
    let va := 16 * (s.core 32768).a.pc
    isHub 32768 = true ∧ (s.core 32768).mayIssue false = true ∧ v.foremost 32768 = 32768 ∧ t.errorDue 32768 = none ∧
    t.overdue 32768 = false ∧
    ∃ pg u, t.reaches va true false pg u ∧ (paPeer (pg.addr va) == s.peerid &&
      u.covers (homeOf (paLocal (pg.addr va))) (u.vecOf Config.hubDie) &&
      decide ((u.homeGet 0 (u.ctxOf 32768) false va (paLocal (pg.addr va)) 16).1 < 2 ^ 96) &&
      (decode (u.homeGet 0 (u.ctxOf 32768) false va (paLocal (pg.addr va)) 16).1).isSome) = true := by
  intro s v t va
  refine ⟨?_, ?_, ?_, ?_, ?_, reaches_of _ _ _ _ (fun pg u => paPeer (pg.addr va) == s.peerid &&
    u.covers (homeOf (paLocal (pg.addr va))) (u.vecOf Config.hubDie) &&
    decide ((u.homeGet 0 (u.ctxOf 32768) false va (paLocal (pg.addr va)) 16).1 < 2 ^ 96) &&
    (decode (u.homeGet 0 (u.ctxOf 32768) false va (paLocal (pg.addr va)) 16).1).isSome) ?_⟩
  all_goals decide +kernel

/-- An ill-formed word, and a task-level stream at slot 3,840. -/
theorem wit_StepTrapsBeforeIssue :
    let s := State.reset.withFetchWord 96 0xE0000000_00000000_00000000
    let t := { s with schedule := [] }.atIssue 0 false
    let u := { lone { busyCore with a := { busyCore.a with pc := 3840 } } with schedule := [.issue 0 false] }
    (s.schedule = .issue 0 false :: [] ∧ (s.core 0).mayIssue false = true ∧ t.errorDue 0 = none ∧ t.overdue 0 = false ∧
      ({ s with schedule := [] } : State).foremost 0 = 0 ∧ s.slotBarred 0 false = false ∧ decode (tget 0 ((s.core 0).stream false).pc (s.core 0).code).toNat = none) ∧
    (isHub 0 = false ∧ (u.core 0).mayIssue false = true ∧ (u.core 0).level = .t ∧ 3840 ≤ ((u.core 0).stream false).pc) := by
  decide

theorem wit_StepKeepsMemoryCanonical :
    let s := { lone busyCore with mem := [(7, 1), (0x1FFFFFFFFFFF, 255)], schedule := [.issue 0 false] }
    Memory.wf s ∧ isNext (step s) = true := by decide +kernel

theorem wit_MemoryReadsWhatWasWritten :
    let s := { State.reset with mem := [(7, 1), (9, 2)] }
    Memory.wf s ∧ tget 0 8 (s.memPut 8 [3, 0]).mem = 3 ∧ tget 0 9 (s.memPut 8 [3, 0]).mem = 0 := by decide +kernel

/-- ILLEGAL, WRONG_STREAM and PRIVILEGED; a wait for W; a pending guard; a guard read too early; a guard that fails; needs that
are not met, and met ones with a source read too early and without. -/
theorem wit_IssueStepsComeFirst :
    let s := lone busyCore
    let pend (r : Reg) : State := lone { busyCore with pends := [{ id := 1, x := false, outs := [(r, none)], masks := [] }] }
    let early := lone { busyCore with sv := [(0, 1)], a := { busyCore.a with landings := [⟨.pa 1, 1, 0, 105⟩, ⟨.g 1, 255, 7, 105⟩] } }
    let guarded : Instr := .add { plainHdr with gpred := 1 } (.g 1) (.g 2) (.g 3)
    let failing : Instr := .add { plainHdr with gpred := 1, gneg := true } (.g 1) (.g 2) (.g 3)
    s.refusal (.add plainHdr (.s 1) (.g 2) (.g 3)) = some 0x01 ∧ s.refusal (.xend plainHdr) = some 0x02 ∧
    s.refusal (.waiti plainHdr) = some 0x03 ∧
    (let i : Instr := .nop { plainHdr with w := true }
     (pend (.g 1)).refusal i = none ∧ i.hdr.w = true ∧ (pend (.g 1)).busy = true) ∧
    ((pend (.pa 1)).refusal guarded = none ∧ (guarded.hdr.w && (pend (.pa 1)).busy) = false ∧ guarded.hdr.gpred ≠ 0 ∧
      (pend (.pa 1)).me.pendingReg false ((pend (.pa 1)).guardReg guarded.hdr) = true) ∧
    (early.refusal guarded = none ∧ (early.tooEarly [early.guardReg guarded.hdr]).isSome = true) ∧
    (s.refusal failing = none ∧ s.tooEarly [s.guardReg failing.hdr] = none ∧ failing.perLane = false ∧ s.passed = false ∧
      s.guard failing.hdr = false) ∧
    ((pend (.g 1)).issues (.add plainHdr (.g 4) (.g 1) (.g 2)) ∧
      isNext (exec (.add plainHdr (.g 4) (.g 1) (.g 2)) (pend (.g 1))) (fun t => t.st.waitFrom.isSome) = true) ∧
    (let q := lone { busyCore with a := { busyCore.a with stage := .released, guarded := some 0 } }
     let i (h : Hdr) : Instr := .add h (.g 0) (.g 0) (.g 0)
     let w : Hdr := { plainHdr with w := true, gpred := 1 }
     candidate 0 1 w 0 = some (i w) ∧ candidate 0 1 plainHdr 0 = some (i plainHdr) ∧ (i w).perLane = false ∧ q.st.guarded.isSome = true ∧
     q.refusal (i w) = none ∧ q.refusal (i plainHdr) = none ∧ q.passed = true) ∧
    (pend (.g 1)).met (needs [.g 1] []) = false ∧
    (early.met (needs [.g 1] []) = true ∧ (early.tooEarly (needs [.g 1] []).reads).isSome = true) ∧
    (s.met (needs [.g 1] []) = true ∧ s.tooEarly (needs [.g 1] []).reads = none) := by decide +kernel

theorem wit_PrivilegeAndStreamChecks :
    isHub (lone busyCore).cur.core = false ∧ Instr.side (.waiti plainHdr) ≠ .event ∧
    hostOnly (.mtsv plainHdr 1 0x107) = true ∧ hostOnly (.mtsv plainHdr 1 0x106) = false ∧ hostOnly (.tlbinvAll plainHdr true) = true := by
  decide

theorem wit_NopOnlyRetires : (lone busyCore).issues (.nop plainHdr) ∧ (lone busyCore true).issues (.nop plainHdr) ∧
    (lone busyCore).issues (.nop { gneg := true, gpred := 2, stall := 15, w := true }) := by decide +kernel

theorem wit_LoopRunsItsTripCount : (0 : Nat) ≤ [(⟨3, 9, 1⟩ : LoopRec)].length ∧ (1 : Nat) ≤ 1 ∧
    (∀ q ∈ [(⟨3, 9, 1⟩ : LoopRec)], q.last ≠ (⟨4, 6, 1⟩ : LoopRec).last) := by decide +kernel

theorem wit_ResultsLandInOrder :
    let s := lone busyCore
    (∀ y, ∀ l ∈ (s.me.stream y).landings, l.dst ≠ .g 1) ∧ (s.me.pends.filter (fun p => p.x == s.cur.x)) = [] ∧
      s.now + 4 ≤ 104 ∧ 1 < 4 ∧ 103 < s.now + 4 := by decide +kernel

theorem wit_ResultsAreWritten :
    let s := lone { busyCore with a := { busyCore.a with landings := [⟨.g 1, 255, 7, 99⟩, ⟨.g 2, 255, 7, 100⟩] },
                                  pends := [{ id := 4, x := false, outs := [(.g 3, some 8)], masks := [] }] }
    (s.core 0).pendingReg false (.g 1) = false ∧
    (∀ l ∈ ((s.core 0).stream false).landings, l.dst = .g 1 → l.lands < (s.core 0).cyc) ∧ 1 ≤ (s.core 0).cyc ∧
    (∀ l ∈ ((s.core 0).stream false).landings, l.dst = .g 2 → (s.core 0).cyc ≤ l.lands) ∧
    (s.core 0).pends = [⟨4, false, [(.g 3, some (8 : Word).toNat)], []⟩] ∧
    (∀ l ∈ ((s.core 0).stream false).landings, l.dst = .g 3 → l.lands < (s.core 0).cyc) ∧
    ((s.core 0).stream true).landings = [] := by decide +kernel

/-- Register, port and immediate operands on both streams. -/
theorem wit_IntegerArithmeticResults :
    let s := lone { busyCore with xq := { entries := [(1, 5)], lastPop := none } }
    let x := lone { busyCore with aq := { entries := [(1, 5), (2, 6)], lastPop := none } } true
    ([Instr.add, .sub, .mul, .mulhs, .mulhz, .and, .or, .xor, .andn, .shl, .shr, .sar, .rot].all fun f =>
      served s (f plainHdr (.g 1) (.g 2) (.imm 63)) (s.needs2 (.g 1) (.g 2) (.imm 63)) &&
      served s (f plainHdr (.port 0) (.port 1) (.const 9)) (s.needs2 (.port 0) (.port 1) (.const 9)) &&
      served x (f plainHdr (.s 15) (.port 0) (.port 0)) (x.needs2 (.s 15) (.port 0) (.port 0))) = true := by decide +kernel

theorem wit_FieldDivisionAndCompareResults :
    let s := lone busyCore
    ([Instr.sext, .zext].all fun f => served s (f plainHdr (.g 1) (.g 2) (.imm 64)) (s.needs2 (.g 1) (.g 2) (.imm 64)) &&
      served s (f plainHdr (.g 1) (.g 2) (.imm 1)) (s.needs2 (.g 1) (.g 2) (.imm 1))) = true ∧
    served s (.bfx plainHdr (.g 1) (.g 2) (.imm 4096)) (s.needs2 (.g 1) (.g 2) (.imm 4096)) = true ∧
    served s (.bfx plainHdr (.g 1) (.g 2) (.imm 127)) (s.needs2 (.g 1) (.g 2) (.imm 127)) = true ∧
    ([Instr.mins, .maxs, .minz, .maxz, .addsat, .subsat, .divs, .rems, .divz, .remz, .cmpeq, .cmpne, .cmplts, .cmples,
        .cmpltz, .cmplez].all fun f =>
      served s (f plainHdr (.g 63) (.g 2) (.g 3)) (s.needs2 (.g 63) (.g 2) (.g 3)) &&
      served s (f plainHdr (.g 1) (.g 2) (.imm 0)) (s.needs2 (.g 1) (.g 2) (.imm 0))) = true := by decide +kernel

theorem wit_MoveAndCountResults :
    let s := lone busyCore
    let n := (dstNeeds s.cur.x (.g 1)).and (srcNeeds s.cur.x (.g 2))
    let m := (((dstNeeds s.cur.x (.g 1)).and (srcNeeds s.cur.x (.g 1))).and (srcNeeds s.cur.x (.g 2))).and (srcNeeds s.cur.x (.imm 127))
    let k := (((dstNeeds s.cur.x (.g 1)).and (srcNeeds s.cur.x (.g 1))).and (srcNeeds s.cur.x (.imm 0xFFFF))).and (srcNeeds s.cur.x (.imm 3))
    served s (.mov plainHdr (.g 1) (.g 2)) n = true ∧ served s (.clz plainHdr (.g 1) (.g 2)) n = true ∧
    served s (.ctz plainHdr (.g 1) (.g 2)) n = true ∧ served s (.popc plainHdr (.g 1) (.g 2)) n = true ∧
    served s (.movk plainHdr (.g 1) (.imm 0xFFFF) (.imm 3)) k = true ∧
    served s (.bfi plainHdr (.g 1) (.g 2) (.imm 127)) m = true := by decide +kernel

theorem wit_PredicateAddressAndSpecialResults :
    let s := lone busyCore
    let x := lone busyCore true
    served s (.pand plainHdr (.p 3) (.p 1) (.p 2)) ((dstNeeds false (.p 3)).and (needs [.pa 1, .pa 2] [])) = true ∧
    served x (.por plainHdr (.p 15) (.p 1) (.p 0)) ((dstNeeds true (.p 15)).and (needs [.px 1, .px 0] [])) = true ∧
    served x (.pxor plainHdr (.port 3) (.p 1) (.p 2)) ((dstNeeds true (.port 3)).and (needs [.px 1, .px 2] [])) = true ∧
    served s (.pnot plainHdr (.port 2) (.p 1)) ((dstNeeds false (.port 2)).and (needs [.pa 1, .pa 1] [])) = true ∧
    served s (.lea plainHdr 63 1 2 7 false 0xFFFFFFFF) (needs [.g 1, .g 2] [.g 63]) = true ∧
    served s (.leax plainHdr 3 1 0 7 true 4) (needs [.g 1] [.g 3]) = true ∧
    ((List.range 5).all fun n => served s (.rdsr plainHdr 1 (BitVec.ofNat 6 n)) (needs [] [.g 1]) &&
      served s (.wrsr plainHdr 1 (BitVec.ofNat 6 n)) (needs [.g 1] [])) = true ∧
    ([0x10, 0x11, 0x12].all fun n => served x (.rdsx plainHdr 1 n) (needs [.key n.toNat] [.s 1])) = true ∧
    ([0, 3, 4, 0x13].all fun n => served x (.rdsx plainHdr 15 n) (needs [] [.s 15])) = true ∧
    ([0, 3, 4, 0x10, 0x11, 0x12, 0x13].all fun n => served x (.wrsx plainHdr 1 n) (needs [.s 1] []) &&
      !x.me.pendingReg true (.key n.toNat)) = true := by decide +kernel

theorem wit_ScalarFrame :
    let s := lone busyCore
    let i : Instr := .add plainHdr (.g 1) (.port 1) (.imm 5)
    s.issues i ∧ (∀ r, s.tooEarly [r] = none) ∧ isNext (exec i s) = true := by
  refine ⟨by decide +kernel, fun r => ?_, by decide +kernel⟩
  rw [State.tooEarly, show bitAt ((lone busyCore).me.svGet 0).toNat 0 = false from by decide]
  rfl

theorem wit_BranchResults :
    let s := lone busyCore
    let x := lone { busyCore with bqa := { entries := [(1, 1)], lastPop := none } } true
    let y := lone { busyCore with bqx := { entries := [(1, 0)], lastPop := none } }
    s.issues (.br plainHdr (-4095)) ∧
    (served s (.jmp plainHdr (.g 3)) (srcNeeds false (.g 3)) = true ∧ isHub s.cur.core = false) ∧
    (served welwick (.jmp plainHdr (.g 3)) (srcNeeds false (.g 3)) = true ∧ isHub welwick.cur.core = true) ∧
    served x (.brq plainHdr (.port 2) 4095) (srcNeeds true (.port 2)) = true ∧ (x.take (.port 2)).1.getLsbD 0 = true ∧
    served y (.brq plainHdr (.port 3) 1) (srcNeeds false (.port 3)) = true ∧ (y.take (.port 3)).1.getLsbD 0 = false ∧
    served x (.brqn plainHdr (.port 2) 4095) (srcNeeds true (.port 2)) = true ∧
    served y (.brqn plainHdr (.port 3) 1) (srcNeeds false (.port 3)) = true := by decide +kernel

theorem wit_LoopInstructionResults :
    let rs (k : Nat) : List LoopRec := List.replicate k ⟨1, 90, 2⟩
    let s (pc k : Nat) : State := lone { busyCore with a := { busyCore.a with pc := pc, loops := rs k } }
    let n := srcNeeds false (.g 1)
    (served (s 4000 0) (.loop plainHdr (.g 1) 96) n = true ∧ (s 4000 0).wrap ≤ 4000 + 96) ∧
    (served (s 4000 0) (.loop plainHdr (.g 1) 95) n = true ∧ 4000 + 95 < (s 4000 0).wrap ∧
      ((s 4000 0).take (.g 1)).1.toNat % 2 ^ 32 ≠ 0 ∧ (s 4000 0).st.loops.length < 4) ∧
    (served (s 10 4) (.loop plainHdr (.g 2) 1) (srcNeeds false (.g 2)) = true ∧ ((s 10 4).take (.g 2)).1.toNat % 2 ^ 32 = 0) ∧
    (served (s 10 4) (.loop plainHdr (.g 1) 1) n = true ∧ 4 ≤ (s 10 4).st.loops.length) ∧
    ((s 10 0).issues (.breakl plainHdr) ∧ (s 10 0).st.loops.length ≤ (s 10 0).st.floor) ∧
    ((s 10 1).issues (.breakl plainHdr) ∧ (s 10 1).st.loops = ⟨1, 90, 2⟩ :: rs 0 ∧ (s 10 1).st.floor ≤ (rs 0).length) := by decide +kernel

theorem wit_CallAndReturnResults :
    let es (k : Nat) : List RetEntry := List.replicate k ⟨7, 0⟩
    let s (k sp : Nat) (sv : Word) : State :=
      lone { busyCore with a := { busyCore.a with rets := es k, spilled := sp }, sv := if sv = 0 then [] else [(9, sv)] }
    let area : Word := 0x800 + 2 * 65536
    isHub (s 0 0 0).cur.core = false ∧
    ((s 15 0 0).issues (.call plainHdr 1) ∧ (s 15 0 0).st.rets.length < 16) ∧
    ((s 16 0 0).issues (.call plainHdr 1) ∧ 16 ≤ (s 16 0 0).st.rets.length ∧ ((s 16 0 0).me.svGet 9).toNat / 2 ^ 16 % 2 ^ 16 ≤ 0) ∧
    ((s 16 1 area).issues (.call plainHdr 1) ∧ (s 16 1 area).st.rets.getLast? = some ⟨7, 0⟩ ∧
      1 < ((s 16 1 area).me.svGet 9).toNat / 2 ^ 16 % 2 ^ 16 ∧ (s 16 1 area).me.lmBlocked (0x800 + 8) 8 true = false) ∧
    served (s 3 0 0) (.calli plainHdr (.g 3)) (srcNeeds false (.g 3)) = true ∧
    ((s 1 0 0).issues (.ret plainHdr) ∧ (s 1 0 0).st.rets = ⟨7, 0⟩ :: []) ∧
    ((s 0 0 0).issues (.ret plainHdr) ∧ (s 0 0 0).st.rets = [] ∧ (s 0 0 0).st.spilled = 0) ∧
    ((s 0 2 area).issues (.ret plainHdr) ∧ (s 0 2 area).st.rets = [] ∧ 0 < (s 0 2 area).st.spilled ∧
      (s 0 2 area).me.lmBlocked (0x800 + 8) 8 false = false) := by decide +kernel

/-- A Welwick core's call that spills, and the refill of its return before and after the answer. -/
theorem wit_CallAndReturnResults_welwick :
    let s (rets : List RetEntry) (k : Nat) (st : Stage) : State :=
      welwick { busyCore with level := .h, x := Stream.idle, sv := [(0x23, 0x800 + 2 * 2 ^ 57)],
                              a := { busyCore.a with rets := rets, spilled := k, stage := st } }
    let c := s (List.replicate 16 ⟨7, 0⟩) 1 .start
    let e := s [] 2 .start
    (c.issues (.call plainHdr 1) ∧ isHub c.cur.core = true ∧ c.st.rets.getLast? = some ⟨7, 0⟩ ∧ 16 ≤ c.st.rets.length ∧
      1 < (c.me.svGet 0x23).toNat / 2 ^ 57 % 2 ^ 7 ∧ (c.me.svGet 0x23).toNat / 8 % 2 ^ 54 * 8 = 0x800) ∧
    (∃ pg u, c.reaches (0x800 + 8 * 1) false true pg u ∧ true = true) ∧
    (e.issues (.ret plainHdr) ∧ e.st.rets = [] ∧ 0 < e.st.spilled ∧ e.st.stage = .start) ∧
    (∃ pg u, e.reaches (0x800 + 8 * (2 - 1)) true false pg u ∧ true = true) ∧
    (let a := s [] 2 (.answered true 0x1007); a.issues (.ret plainHdr) ∧ a.st.stage = .answered true 0x1007) := by
  refine ⟨?_, reaches_of _ _ _ _ (fun _ _ => true) ?_, ?_, reaches_of _ _ _ _ (fun _ _ => true) ?_, ?_⟩
  all_goals decide +kernel

theorem wit_StreamStartAndEnd :
    let s := lone busyCore
    let i := lone { busyCore with x := Stream.idle }
    let x := lone busyCore true
    let b := lone { busyCore with pends := [{ id := 1, x := true, outs := [(.s 1, none)], masks := [] }] } true
    (served s (.xgo plainHdr (.g 1)) (srcNeeds false (.g 1)) = true ∧ s.me.x.run = true) ∧
    (served i (.xgo plainHdr (.g 1)) (srcNeeds false (.g 1)) = true ∧ i.me.x.run = false) ∧
    (x.issues (.xend plainHdr) ∧ x.busy = false) ∧ b.issues (.xend plainHdr) ∧ b.busy = true := by decide +kernel

theorem wit_TaskEndAndSafePoint :
    let s := tasked
    let p := tasked { busyCore with x := Stream.idle }
    let q : State := { p with cores := [(0, { p.me with task := some { aTask with preempt := true } })] }
    let r := tasked { busyCore with lm := [(0xF, 0x80)] }
    let v := tasked { busyCore with level := .s }
    let n : Needs := { needs [] [] with lm := [(0, 16, false)] }
    s.me.task = some aTask ∧ s.issues (.tend plainHdr) ∧
    (served s (.safept plainHdr 0 992) n = true ∧ (s.constSlot 1).toNat / 2 ^ 58 = 0 ∧ (aTask).preempt = false) ∧
    (served q (.safept plainHdr 0 0) n = true ∧ q.me.task = some { aTask with preempt := true } ∧ (q.constSlot 1).toNat / 2 ^ 58 = 0 ∧
      q.me.x.run = false ∧ q.queued q.cur.core = [] ∧ tget none (q.cur.core % 8) (q.gang (gangOf q.cur.core)).arrivals = none) ∧
    (q.me.x.halted = false ∧ q.me.level ≠ .s) ∧
    (served v (.safept plainHdr 0 0) n = true ∧ v.me.level = .s ∧ (v.constSlot 1).toNat / 2 ^ 58 = 0) ∧
    (isHub welwick.cur.core = true ∧ welwick.issues (.tend plainHdr) ∧ welwick.sending welwick.cur.core = false ∧ welwick.releases 5) ∧
    (served r (.safept plainHdr 0 0) n = true ∧ (r.constSlot 1).toNat / 2 ^ 58 ≠ 0) := by decide +kernel

theorem wit_TrapInstructionsRaise :
    let s := lone busyCore
    let b : State := { lone busyCore true with dbgctl := 1 }
    (s.issues (.trap plainHdr 0xFFFF) ∧ isHub s.cur.core = false ∧ s.me.level = .t) ∧
    (s.issues (.brk plainHdr 1) ∧ bitAt s.dbgctl.toNat 0 = false) ∧ (b.issues (.brk plainHdr 1) ∧ bitAt b.dbgctl.toNat 0 = true) ∧
    (let t : State := { tasked busyCore true with dbgctl := 1 }
     t.issues (.brk plainHdr 1) ∧ t.runs = [aRun true] ∧ t.me.task = some aTask ∧ (aTask).run = (aRun true).id ∧
     (aRun true).takeLv.isSome = true ∧ t.suspended (aRun true) = false) := by decide +kernel

theorem wit_QueueAndPresenceResults :
    let s := lone busyCore
    let f := lone { busyCore with xq := { entries := [(1, 5)], lastPop := none } }
    let full := lone { busyCore with aq := { entries := List.replicate 16 (1, 5), lastPop := none } }
    let x := lone busyCore true
    let fl := lone { busyCore with a := { busyCore.a with landings := [⟨.g 32, 255, 7, 105⟩] } }
    (s.me.poppable 1 s.now = 0 ∧ served s (.trypop plainHdr (.g 1) (.port 1) (.p 2)) ((needs [] [.g 1]).and (needs [] [.pa 2])) = true) ∧
    (0 < f.me.poppable 1 f.now ∧ served f (.trypop plainHdr (.g 1) (.port 1) (.p 15)) ((dstNeeds false (.g 1)).and (needs [] [.pa 15])) = true ∧
      regOf false (.g 1) ≠ some (.pa 15)) ∧
    (served s (.trypush plainHdr (.port 0) (.g 1) (.p 2)) ((srcNeeds false (.g 1)).and (needs [] [.pa 2])) = true ∧
      s.me.room 0 s.now = true) ∧
    (served full (.trypush plainHdr (.port 0) (.g 1) (.p 2)) ((srcNeeds false (.g 1)).and (needs [] [.pa 2])) = true ∧
      full.me.room 0 full.now = false) ∧
    served s (.pushb plainHdr (.port 2) (.p 1) none) ((dstNeeds false (.port 2)).and (needs [.pa 1] [])) = true ∧
    ([0, 1, 2].all fun k => served x (.pushb plainHdr (.port 3) (.p 1) (some (.imm k))) ((dstNeeds true (.port 3)).and (needs [.px 1] []))) = true ∧
    (regOf false (.g 32) = some (.g 32) ∧ served s (.clrp plainHdr (.g 32)) (needs [] [.g 32]) = true ∧
      s.me.inFlight false (.g 32) s.now = false) ∧
    (served x (.clrp plainHdr (.v 31)) (needs [] [.v 31]) = true ∧ x.me.inFlight true (.v 31) x.now = false) ∧
    (served fl (.clrp plainHdr (.g 32)) (needs [] [.g 32]) = true ∧ fl.me.inFlight false (.g 32) fl.now = true) := by decide +kernel

theorem wit_TrapEntrySavesAndVectors : isHub 32767 = false ∧ ((lone busyCore).core 0).level = .t ∧ 0x25 < 256 := by decide +kernel

theorem wit_DoubleTrapAbortsTheLaunch :
    let s := tasked { busyCore with level := .s }
    isHub 0 = false ∧ (s.core 0).level = .s ∧ s.runOf 0 = some (aRun false) ∧
    s.stories.find? (fun q => q.id == (aRun false).sb) = some aStory ∧ (aRun false).d ≤ 1 ∧
    (s.errhead + 2 ^ 32 - s.errtail) % 2 ^ 32 ≠ 2 ^ s.errsize ∧
    (served s (.mtsv plainHdr 1 0xB) (needs [.g 1] []) = true ∧ (s.me.reg (.g 1)).testBit 0 = true) := by decide +kernel

/-- A Welwick core, a compute core with a stage put aside and without. -/
theorem wit_ReturnFromTrapRestores :
    let hub := welwick
    let n := needs [] ((upFrom 1 15).map Reg.pa)
    let s (ad : Option (Nat × Stage)) (tpca : Word) : State := lone { busyCore with level := .s, sv := [(2, tpca)], a := { busyCore.a with aside := ad } }
    (isHub 32768 = true ∧ served hub (.rft plainHdr) n = true ∧ hub.st.aside = none) ∧
    (isHub (s none 7).cur.core = false ∧ served (s none 7) (.rft plainHdr) n = true ∧ (s none 7).me.a.aside = none) ∧
    (served (s (some (7, .start)) 8) (.rft plainHdr) n = true ∧ (s (some (7, .start)) 8).me.a.stage.ofGang = false ∧
      ((s (some (7, .start)) 8).me.svGet 2).toNat % 4096 = 7 + 1) ∧
    (served (s (some (7, .start)) 9) (.rft plainHdr) n = true ∧ ((s (some (7, .start)) 9).me.svGet 2).toNat % 4096 ≠ 7 + 1) := by decide +kernel

theorem wit_SupervisorRegisterResults :
    let s := lone { busyCore with level := .s }
    let hub := welwick
    let w : State := { s with cores := [(0, { s.me with mail := [[1]] })] }
    ([0, 1, 2, 3, 4, 5, 6, 7, 8, 9, 0xA].all fun n => served s (.mfsv plainHdr 1 n) (needs [] [.g 1]) &&
      served s (.mtsv plainHdr 1 n) (needs [.g 1] []) && !svDevice n.toNat) = true ∧
    (served s (.mfsv plainHdr 63 0x262) (needs [] [.g 63]) = true ∧ svDevice 0x262 = true) ∧
    (served hub (.mtsv plainHdr 1 0x110) (needs [.g 1] []) = true ∧ svDevice 0x110 = true ∧
      
      (hub.devWrite (writerOf hub.cur.core) 0x110 5).any (fun u => decide (u.cur = hub.cur ∧ u.me = hub.me)) = true) ∧
    (let r : State := { hub with reel := some ⟨0, [], 0⟩ }
     served r (.mtsv plainHdr 1 0x115) (needs [.g 1] []) = true ∧ (r.devWrite (writerOf r.cur.core) 0x115 5).isNone = true) ∧
    (s.issues (.waiti plainHdr) ∧ isHub s.cur.core = false ∧ ¬(s.me.mail ≠ [] ∨ s.me.task.any Task.preempt = true)) ∧
    (let i : State := { hub with intpend := 8 }
     i.issues (.waiti plainHdr) ∧ isHub i.cur.core = true ∧ i.intpend ≠ 0) ∧
    (w.issues (.waiti plainHdr) ∧ w.me.mail ≠ []) := by decide +kernel

/-- The accesses to each page of the test tables. -/
theorem wit_TranslationChecksPermissions :
    (∃ t u, (onPage 0).reaches 0x40 true true t u ∧ (leafW t.leaf && leafR t.leaf && leafU t.leaf) = true) ∧
    (∃ t u, (onPage 2).reaches 0x80000040 true false t u ∧ leafRop t.leaf = true) ∧
    (match (reach ((onPage 5).asker 0) 0x140000040 false true ((onPage 5).translateFor 0 0x140000040)).1 with
     | .trap c _ i => c == 0x16 && i == 0x140000040
     | _ => false) = true ∧
    (match (reach ((onPage 2).asker 0) 0x80000040 false true ((onPage 2).translateFor 0 0x80000040)).1 with
     | .trap c _ _ => c == 0x12 || c == 0x16
     | _ => false) = true :=
  ⟨reaches_of _ _ _ _ (fun t _ => leafW t.leaf && leafR t.leaf && leafU t.leaf) (by decide +kernel),
   reaches_of _ _ _ _ (fun t _ => leafRop t.leaf) (by decide +kernel), by decide +kernel, by decide +kernel⟩

theorem wit_LocalMemoryResults :
    let s (a : Nat) (full : Bool := false) (st : Stage := .start) : State :=
      lone { busyCore with a := { busyCore.a with stage := st }, g := [(1, BitVec.ofNat 64 a), (2, 0x1122334455667788)],
                           lm := [(0x800, 5)], lmFull := if full then [(256, true)] else [] }
    let wr := (s 0x800).setMe { (s 0x800).me with copies := [(0, some aCopy)] }
    let m (sz : BitVec 3) (mode : BitVec 3) : MForm := ⟨if mode = 0 then 0 else 16, mode, 2, .g 1, sz, 0⟩
    let n (s : State) (m : MForm) : Needs := s.needsM m [] [.g 2]
    let k (s : State) (m : MForm) : Needs := s.needsM m [.g 2] []
    ([s 65536, s 65529, s 65528, s 0x801].all fun s => served s (.ll plainHdr (m 3 0)) (n s (m 3 0)) &&
      served s (.ls plainHdr (m 3 0)) (k s (m 3 0))) = true ∧
    (65536 < (s 65529).addrOf (m 3 0) + 8 ∧ (s 65528).addrOf (m 3 0) + 8 ≤ 65536 ∧ (s 65528).addrOf (m 3 0) % 8 = 0) ∧
    ((s 0x801).addrOf (m 3 0) + 8 ≤ 65536 ∧ (s 0x801).addrOf (m 3 0) % 8 ≠ 0) ∧
    ((s 65528).me.lmBlocked 65528 8 false = false ∧ (s 65528).me.lmBlocked 65528 8 true = false) ∧
    (served (s 0x800) (.ll plainHdr (m 6 0)) (n (s 0x800) (m 6 0)) = true ∧ szSigned (m 6 0).sz = true ∧
      (s 0x800).st.stage ≠ .waited ∧ (s 0x800).now = 100 ∧ ∀ y, ∀ l ∈ ((s 0x800).me.stream y).landings, l.dst ≠ .g 2) ∧
    (served wr (.ll plainHdr (m 0 0)) (n wr (m 0 0)) = true ∧ served wr (.ls plainHdr (m 0 0)) (k wr (m 0 0)) = true ∧
      wr.me.lmBlocked 0x800 1 true = true ∧ wr.me.lmBlocked 0x800 1 false = true) ∧
    (let u := s 0x800 true .released
     (m 3 2).mode ≠ 0 ∧ u.scopeOf 0 (m 3 2).scope = some 0 ∧ u.releases 0 ∧ u.st.stage ≠ .lmWait 0x800 ∧ 0x800 + 8 ≤ 65536 ∧
     u.addrOf (m 3 2) = 0x800 ∧ served u (.ll plainHdr (m 3 2)) (n u (m 3 2)) = true ∧ u.me.lmBlocked 0x800 8 false = false ∧
     modeMet 2 (u.me.lmFullAt 0x800) = true ∧ (u.afterRelease 0).acqBusy = false ∧ inIdent 0x800 = false) ∧
    (let u := s 0x800 false
     u.scopeOf 0 (m 3 1).scope = some 0 ∧ u.releases 0 ∧ served u (.ll plainHdr (m 3 1)) (n u (m 3 1)) = true ∧
     modeMet 1 (u.me.lmFullAt 0x800) = false ∧ (u.beginSync 0x800).feExpired = false) ∧
    (let u := lone { (s 0x800).me with cyc := 2 ^ 24, a := { busyCore.a with stage := .lmWait 0x800, waitFrom := some 0 } }
     served u (.ll plainHdr (m 3 1)) (n u (m 3 1)) = true ∧ served u (.ls plainHdr (m 3 3)) (k u (m 3 3)) = true ∧
     (u.beginSync 0x800).feExpired = true ∧ u.me.lmBlocked 0x800 8 false = false ∧ u.me.lmBlocked 0x800 8 true = false) ∧
    (let u := s 0x800 false
     served u (.ls plainHdr (m 3 3)) (k u (m 3 3)) = true ∧ u.releases 0 ∧ u.me.lmBlocked 0x800 8 true = false ∧
     modeMet 3 (u.me.lmFullAt 0x800) = true) ∧
    (let u := s 0x800 true
     served u (.ls plainHdr (m 3 3)) (k u (m 3 3)) = true ∧ u.releases 0 ∧ modeMet 3 (u.me.lmFullAt 0x800) = false) := by decide +kernel

theorem wit_DeviceLoadAndStoreResults :
    let m : MForm := ⟨0, 0, 2, .g 1, 3, 0⟩
    let n (s : State) : Needs := s.needsM m [] [.g 2]
    let k (s : State) : Needs := s.needsM m [.g 2] []
    ([onPage 0, onPage 0 (lo := 0x41), onPage 2].all fun s => served s (.ld plainHdr m) (n s) && served s (.ldc plainHdr m) (n s) &&
      served s (.st plainHdr m) (k s) && (s.takeRun 0).isNone) = true ∧
    ((onPage 0).addrOf m % 8 = 0 ∧ (onPage 0 (lo := 0x41)).addrOf m % 8 ≠ 0) ∧
    (∃ t u, (onPage 0).reaches ((onPage 0).addrOf m) true false t u ∧
      (!leafRop t.leaf && paPeer (t.addr ((onPage 0).addrOf m)) == 0 && leafCl t.leaf != 1) = true) ∧
    (∃ t u, (onPage 2).reaches ((onPage 2).addrOf m) true false t u ∧ (leafRop t.leaf && paPeer (t.addr ((onPage 2).addrOf m)) == 0) = true) ∧
    (∃ t u, (onPage 0).reaches ((onPage 0).addrOf m) false true t u ∧
      (paPeer (t.addr ((onPage 0).addrOf m)) == 0 && leafCl t.leaf != 1) = true) := by
  refine ⟨by decide +kernel, by decide +kernel, reaches_of _ _ _ _ (fun t _ => !leafRop t.leaf && paPeer (t.addr _) == 0 && leafCl t.leaf != 1) (by decide +kernel),
    reaches_of _ _ _ _ (fun t _ => leafRop t.leaf && paPeer (t.addr _) == 0) (by decide +kernel),
    reaches_of _ _ _ _ (fun t _ => paPeer (t.addr _) == 0 && leafCl t.leaf != 1) (by decide +kernel)⟩

/-- Cached pages of both write policies: a line that holds the bytes, where the free value keeps it, one that does not, none, and a
store of the stream to them under way. -/
theorem wit_DeviceLoadAndStoreResults_cached :
    let m : MForm := ⟨0, 0, 2, .g 1, 3, 0⟩
    let line (v : BitVec 64) : CacheLine := ⟨0, 0x40000040, v, 0, [(0, 7)], 0, false, false, 0x40⟩
    let q : Req := ⟨5, .stream 0 false, 0, 0x40000040, 0x40, 0, .store (leBytes 5 8), .flight, 1, 0, [], none, false, false, 0, ⟨true, 0, 0, 0, 0, 0⟩⟩
    let with' (l : List CacheLine) (r : List Req) (s : State) : State := { s with lines := l, reqs := r }
    let cached (s : State) (rd wr : Bool) (p : TlbEntry → State → Bool) : Prop :=
      ∃ t u, s.reaches (s.addrOf m) rd wr t u ∧ (leafCl t.leaf == 1 && paPeer (t.addr (s.addrOf m)) == 0 && p t u) = true
    (onPage 10).meOwner.cluster = some 0 ∧
    ([onPage 10, onPage 11].all fun s => served s (.ld plainHdr m) (s.needsM m [] [.g 2]) &&
      served s (.st plainHdr m) (s.needsM m [.g 2] []) && (s.takeRun 0).isNone && decide (s.addrOf m % 8 = 0)) = true ∧
    cached (with' [line 0xFF] [] (onPage 10)) true false (fun t u => u.lines == [line 0xFF] &&
      lineBits (paLocal (t.addr ((onPage 10).addrOf m))) 8 &&& (line 0xFF).valid == lineBits (paLocal (t.addr ((onPage 10).addrOf m))) 8 &&
      !u.ownInFlight (paLocal (t.addr ((onPage 10).addrOf m))) 8) ∧
    (∀ u : State, u.lines = [line 0xFF] → Config.keeps u.drawn = true → (u.lookLine 0 0x40000040).1 = some (line 0xFF)) ∧
    (∀ u : State, u.lines = [line 1] → ∀ l, (u.lookLine 0 0x40000040).1 = some l →
      ¬(lineBits 0x40000040 8 &&& l.valid = lineBits 0x40000040 8)) ∧
    cached (with' [line 1] [] (onPage 10)) true false (fun _ u => u.lines == [line 1]) ∧
    cached (with' [] [q] (onPage 10)) true false (fun t u => u.ownInFlight (paLocal (t.addr ((onPage 10).addrOf m))) 8) ∧
    cached (onPage 10) false true (fun t _ => leafWp t.leaf == 0) ∧ cached (onPage 11) false true (fun t u => leafWp t.leaf == 1 &&
      ((u.markDirty t).lineAt 0 (paLocal (t.addr ((onPage 11).addrOf m)))).isNone) := by
  refine ⟨by decide +kernel, by decide +kernel, ?_, ?kept, ?short, ?_, ?_, ?_, ?_⟩
  case kept =>
    intro u h k
    simp [State.lookLine, State.lineAt, h, State.draw, k]
  case short =>
    intro u h l e
    simp only [State.lookLine, State.lineAt, h, State.draw, List.find?_cons, show ((0 : Nat) == 0 && (0x40000040 : Nat) == 0x40000040 / 64 * 64) = true from by decide] at e
    split at e
    · cases e
      decide
    · cases e
  all_goals exact reaches_of _ _ _ _ _ (by decide +kernel)

set_option maxRecDepth 4000 in
/-- A store and an atomic to a published page and to peer 1, in the cut group and outside it, and DST outside a take launch. -/
theorem wit_DeferredWritesBecomeRecords :
    let m (mode : BitVec 3) : MForm := ⟨0, mode, 2, .g 1, 3, 0⟩
    let k (s : State) (mode : BitVec 3) : Needs := s.needsM (m mode) [.g 2] []
    let grouped (s : State) : State :=
      { (s.memPut 0x5000 (leBytes (0x10000 + 2 * 2 ^ 32) 8 ++ leBytes 0x6000 8)).memPut 0x6002 [1] with cgtbase := 0x5000, cgtn := 1 }
    let p := onPage 1 busyCore true
    let q := grouped (onPage 4 busyCore true)
    let o := onPage 4 busyCore true
    ([p, q, o].all fun s => served s (.st plainHdr (m 0)) (k s 0) && served s (.dst plainHdr (m 4)) (k s 4) &&
      ([Instr.atadd, .ator, .atand].all fun f => served s (f plainHdr (m 0)) (k s 0)) &&
      ([Instr.atmin, .atmax].all fun f => served s (f plainHdr (m 1)) (k s 1)) && s.me.task == some aTask &&
      s.takeRun 0 == some (aRun true) && decide (s.addrOf (m 0) % 8 = 0)) = true ∧ (aTask).seq < 2 ^ 32 ∧
    ((onPage 0).takeRun 0 = none ∧ served (onPage 0) (.dst plainHdr (m 4)) (k (onPage 0) 4) = true) ∧
    (let w := onPage 1 { busyCore with task := some { aTask with seq := 2 ^ 32 } } true
     served w (.st plainHdr (m 0)) (k w 0) = true ∧ 2 ^ 32 ≤ 2 ^ 32) ∧
    (∃ t u, p.reaches (p.addrOf (m 0)) false true t u ∧ (paPeer (t.addr (p.addrOf (m 0))) == 0 && leafPub t.leaf) = true) ∧
    (∃ t u, p.reaches (p.addrOf (m 0)) true true t u ∧ (paPeer (t.addr (p.addrOf (m 0))) == 0 && leafPub t.leaf) = true) ∧
    (∃ t u, q.reaches (q.addrOf (m 0)) false true t u ∧
      (paPeer (t.addr (q.addrOf (m 0))) == 1 && u.inGroup (aRun true) (paPeer (t.addr (q.addrOf (m 0))))) = true) ∧
    (∃ t u, o.reaches (o.addrOf (m 0)) false true t u ∧
      (paPeer (t.addr (o.addrOf (m 0))) == 1 && !u.inGroup (aRun true) (paPeer (t.addr (o.addrOf (m 0))))) = true) := by
  refine ⟨by decide +kernel, by decide +kernel, by decide +kernel, by decide +kernel, reaches_of _ _ _ _ (fun t _ => paPeer (t.addr _) == 0 && leafPub t.leaf) (by decide +kernel),
    reaches_of _ _ _ _ (fun t _ => paPeer (t.addr _) == 0 && leafPub t.leaf) (by decide +kernel),
    reaches_of _ _ _ _ (fun t u => paPeer (t.addr _) == 1 && u.inGroup (aRun true) (paPeer (t.addr _))) (by decide +kernel),
    reaches_of _ _ _ _ (fun t u => paPeer (t.addr _) == 1 && !u.inGroup (aRun true) (paPeer (t.addr _))) (by decide +kernel)⟩

/-- Accesses to peer 1 outside a take launch and in one: a plain page, a published one and one on the read-only path, with the cut
before the task's take open and closed and with a way to the peer and without. -/
theorem wit_DeferredWritesBecomeRecords_remote :
    let m (mode : BitVec 3) : MForm := ⟨0, mode, 2, .g 1, 3, 0⟩
    let st (s : State) (mode : BitVec 3) : Needs := s.needsM (m mode) [.g 2] []
    let ld (s : State) : Needs := s.needsM (m 0) [] [.g 2]
    let cut (s : State) : State := { s with cuts := [⟨0, 1, 0, .arrived, [], 0, 0, 0, none, []⟩] }
    let far (s : State) (c : State → State) (rd wr : Bool) (p : TlbEntry → State → Bool) : Prop :=
      ∃ t u, (c s).reaches (s.addrOf (m 0)) rd wr t u ∧ (paPeer (t.addr (s.addrOf (m 0))) == 1 && p t u) = true
    ([onPage 4, onPage 7, onPage 4 busyCore true, onPage 6 busyCore true, cut (onPage 6 busyCore true), near (onPage 6 busyCore true)].all fun s =>
      served s (.ld plainHdr (m 0)) (ld s) && served s (.ldc plainHdr (m 0)) (ld s) && served s (.st plainHdr (m 0)) (st s 0) &&
      ([Instr.atadd, .ator, .atand].all fun f => served s (f plainHdr (m 0)) (st s 0)) &&
      ([Instr.atmin, .atmax].all fun f => served s (f plainHdr (m 1)) (st s 1)) && decide (s.addrOf (m 0) % 8 = 0) && s.peerid == 0) = true ∧
    ((onPage 4).takeRun 0 = none ∧ (onPage 7).takeRun 0 = none ∧ (onPage 4 busyCore true).takeRun 0 = some (aRun true) ∧
      (near (onPage 6 busyCore true)).takeRun 0 = some (aRun true)) ∧
    far (onPage 4) id true false (fun _ _ => true) ∧ far (onPage 4) id false true (fun _ _ => true) ∧
    far (onPage 4) id true true (fun _ _ => true) ∧ far (onPage 7) id true false (fun t _ => leafRop t.leaf) ∧
    far (onPage 7 busyCore true) id true false (fun t _ => leafRop t.leaf) ∧
    far (onPage 4 busyCore true) id true false (fun t _ => !leafPub t.leaf) ∧
    far (onPage 6 busyCore true) cut true false (fun t u => leafPub t.leaf && u.takeWait 0 false true) ∧
    far (onPage 6 busyCore true) near true false (fun t u => leafPub t.leaf && leafCl t.leaf != 1 && !u.takeWait 0 false true && u.reachable 1) ∧
    far (onPage 6 busyCore true) id true false (fun t u => leafPub t.leaf && !u.takeWait 0 false true && !u.reachable 1) := by
  refine ⟨by decide +kernel, by decide +kernel, ?_, ?_, ?_, ?_, ?_, ?_, ?_, ?_, ?_⟩ <;>
    exact reaches_of _ _ _ _ _ (by decide +kernel)

/-- A returning atomic and a synchronising access of a page of peer 1 and of a published page, outside a take launch and in one. -/
theorem wit_SynchronisingAccessResults_take :
    let m (mode : BitVec 3) : MForm := ⟨if mode.toNat < 2 then 0 else 18, mode, 2, .g 1, 3, 0⟩
    let at' (p : Nat) (take : Bool) (q : TlbEntry → Bool) : Prop :=
      ∃ t u, (onPage p busyCore take).reaches ((onPage p).addrOf (m 0)) true true t u ∧ q t = true
    let peer (n : Nat) (t : TlbEntry) : Bool := paPeer (t.addr ((onPage 4).addrOf (m 0))) == n
    ([onPage 4, onPage 8, onPage 4 busyCore true, onPage 8 busyCore true, onPage 1 busyCore true, onPage 9 busyCore true].all fun s =>
      ([Instr.axadd, .axor, .axand, .axchg].all fun f => served s (f plainHdr (m 0)) (s.needsM (m 0) [.g 2] [.g 2])) &&
      ([Instr.axmin, .axmax].all fun f => served s (f plainHdr (m 1)) (s.needsM (m 1) [.g 2] [.g 2])) &&
      served s (.acas plainHdr (m 0)) (s.needsM (m 0) [.g 2, .g 3] [.g 2]) &&
      served s (.ldfe plainHdr (m 2)) (s.needsM (m 2) [] [.g 2]) && (s.scopeOf 0 18).isSome && decide (s.addrOf (m 0) % 8 = 0) &&
      s.st.stage == .start && s.peerid == 0) = true ∧
    at' 4 false (peer 1) ∧ at' 4 true (peer 1) ∧ at' 1 true (fun t => peer 0 t && leafPub t.leaf) ∧
    at' 8 false (fun t => peer 1 t && leafFe t.leaf) ∧ at' 8 true (fun t => peer 1 t && leafFe t.leaf) ∧
    at' 9 true (fun t => peer 0 t && leafPub t.leaf && leafFe t.leaf) := by
  refine ⟨by decide +kernel, ?_, ?_, ?_, ?_, ?_, ?_⟩ <;> exact reaches_of _ _ _ _ (fun t _ => _) (by decide +kernel)

theorem wit_SynchronisingAccessResults :
    let m (mode : BitVec 3) : MForm := ⟨if mode = 0 then 16 else 18, mode, 2, .g 1, 3, 0⟩
    let ok (s : State) (i : Instr) (mode : BitVec 3) (isLoad tr : Bool) : Bool :=
      served s i (s.needsM (m mode) (if isLoad then [] else [.g 2]) ((if isLoad then [.g 2] else []) ++ (if tr then [.g 3] else []))) &&
        (s.scopeOf 0 (m mode).scope).isSome
    let all (s : State) : Bool := ok s (.ldfe plainHdr (m 0)) 0 true false && ok s (.ldfe plainHdr (m 2)) 2 true false &&
      ok s (.stfe plainHdr (m 3)) 3 false false && ok s (.stfe plainHdr (m 0)) 0 false false && ok s (.tryldfe plainHdr (m 1)) 1 true true && ok s (.trystfe plainHdr (m 3)) 3 false true
    let s := onPage 3
    let a := onPage 3 { busyCore with a := { busyCore.a with stage := .answered true 7 } }
    let b := onPage 3 { busyCore with a := { busyCore.a with stage := .answered false 0 } }
    (all s && all (onPage 3 (lo := 0x41)) && all (onPage 0) && all a && all b) = true ∧ s.st.stage = .start ∧
    ((onPage 3 (lo := 0x41)).addrOf (m 0) % 8 ≠ 0 ∧ s.addrOf (m 0) % 8 = 0 ∧ (s.takeRun 0).isNone = true) ∧
    (∃ t u, (onPage 0).reaches ((onPage 0).addrOf (m 0)) true false t u ∧ leafFe t.leaf = false) ∧
    (∃ t u, s.reaches (s.addrOf (m 0)) true false t u ∧
      (leafFe t.leaf && paPeer (t.addr (s.addrOf (m 0))) == 0 && decide (u.releases 2)) = true) ∧
    (∃ t u, s.reaches (s.addrOf (m 0)) true true t u ∧
      (leafFe t.leaf && paPeer (t.addr (s.addrOf (m 0))) == 0 && decide ((u.markDirty t).releases 2) && decide (u.releases 2)) = true) ∧
    (a.scopeOf 0 20 = some 4 ∧ (m 2).mode ≠ 0 ∧
      let i : Instr := .ldfe plainHdr { m 2 with scope := 20 }
      served a i (a.needsM { m 2 with scope := 20 } [] [.g 2]) = true) ∧
    (a.st.stage = .answered true 7 ∧ 7 < 2 ^ 64 ∧ a.acqBusy = false) ∧ (b.st.stage = .answered false 0 ∧ b.acqBusy = false) := by
  refine ⟨by decide +kernel, by decide +kernel, by decide +kernel, ?_,
    reaches_of _ _ _ _ (fun t u => leafFe t.leaf && paPeer (t.addr _) == 0 && decide (u.releases 2)) (by decide +kernel),
    reaches_of _ _ _ _ (fun t u => leafFe t.leaf && paPeer (t.addr _) == 0 && decide ((u.markDirty t).releases 2) && decide (u.releases 2)) (by decide +kernel),
    by decide +kernel, by decide +kernel, by decide +kernel⟩
  obtain ⟨t, u, h, k⟩ := reaches_of (onPage 0) ((onPage 0).addrOf ⟨16, 0, 2, .g 1, 3, 0⟩) true false (fun t _ => !leafFe t.leaf) (by decide +kernel)
  exact ⟨t, u, h, by simpa using k⟩

theorem wit_AtomicsGoToTheirHome :
    let m (mode sz : BitVec 3) : MForm := ⟨0, mode, 2, .g 1, sz, 0⟩
    let s := onPage 0
    (∃ t u, s.reaches (s.addrOf (m 0 3)) true true t u ∧ paPeer (t.addr (s.addrOf (m 0 3))) = s.peerid) ∧
    (s.addrOf (m 0 3) % 8 = 0 ∧ s.takeRun 0 = none) ∧
    ([Instr.atadd, .ator, .atand].all fun f => served s (f plainHdr (m 0 3)) (s.needsM (m 0 3) [.g 2] [])) = true ∧
    ([Instr.atmin, .atmax].all fun f => served s (f plainHdr (m 1 3)) (s.needsM (m 1 3) [.g 2] [])) = true ∧
    ([Instr.axadd, .axor, .axand, .axchg].all fun f => served s (f plainHdr (m 0 0)) (s.needsM (m 0 0) [.g 2] [.g 2])) = true ∧
    ([Instr.axmin, .axmax].all fun f => served s (f plainHdr (m 0 2)) (s.needsM (m 0 2) [.g 2] [.g 2])) = true ∧
    served s (.acas plainHdr (m 0 3)) (s.needsM (m 0 3) [.g 2, .g 3] [.g 2]) = true := by
  refine ⟨?_, by decide +kernel, by decide +kernel, by decide +kernel, by decide +kernel, by decide +kernel, by decide +kernel⟩
  obtain ⟨t, u, h, k⟩ := reaches_of (onPage 0) ((onPage 0).addrOf ⟨0, 0, 2, .g 1, 3, 0⟩) true true
    (fun t _ => paPeer (t.addr ((onPage 0).addrOf ⟨0, 0, 2, .g 1, 3, 0⟩)) == (onPage 0).peerid) (by decide +kernel)
  exact ⟨t, u, h, by simpa using k⟩

theorem wit_FenceResults :
    let s := tasked
    let i (f : BitVec 5) : List Instr := [.fence plainHdr f, .rel plainHdr f, .acq plainHdr f, .fenceAx plainHdr f]
    (s.scopeOf 0 1 = none ∧ ((i 1).all fun e => decide (s.issues e)) = true) ∧
    (s.scopeOf 0 0 = some 8 ∧ s.scopeOf 0 20 = some 4 ∧ s.scopeOf 0 16 = some 0) ∧
    (((i 20) ++ (i 16) ++ (i 0)).all fun e => decide (s.issues e)) = true ∧
    (s.releases 0 ∧ s.releases 4 ∧ s.releases 8 ∧ s.acqBusy = false ∧ s.st.stage ≠ .released ∧ (s.afterRelease 4).ownReqs s.meOwner = [] ∧
      (s.afterRelease 4).acqBusy = false ∧ (s.afterRelease 0).acqBusy = false) ∧
    (let v := s.setMe ((s.me.lmFlush false).lmFlush true)
     v.releases 4 ∧ (v.afterRelease 4).ownReqs s.meOwner = [] ∧ (v.afterRelease 4).acqBusy = false) := by decide +kernel

/-- Each cut instruction outside a take launch and in one, with the cut before the task's open and closed; DST and RDSUM. -/
theorem wit_CutInstructionResults :
    let m (mode : BitVec 3) : MForm := ⟨0, mode, 2, .g 1, 3, 0⟩
    let m8 : MForm := ⟨0, 0, 56, .g 1, 3, 0⟩
    let ds := (List.range 8).map (fun i => Reg.g (m8.didx.toNat + i))
    let o := tasked
    let t := onPage 0 busyCore true
    let arrived := onPage 0 { busyCore with a := { busyCore.a with stage := .cutArrived 1 } } true
    let cut (st : CutState) (s : State) : State := { s with cuts := [⟨0, 1, 0, st, [], 0, 0, 0, none, []⟩] }
    let r : State := { onPage 4 busyCore true with rdap := [(3, 0x1001)] }
    (o.takeRun 0 = none ∧ o.issues (.cuta plainHdr) ∧ o.issues (.cutw plainHdr) ∧
      served o (.cutst plainHdr 1) (needs [] [.g 1]) = true ∧ served o (.rdsum plainHdr m8) (o.needsM m8 [] ds) = true) ∧
    (t.takeRun 0 = some (aRun true) ∧ t.me.task = some aTask) ∧
    ([0, 1, 2, 3, 4, 5, 6, 7].all fun k => served t (.dst plainHdr (m k)) (t.needsM (m k) [.g 2] [])) = true ∧
    (t.addrOf (m 0) % 8 = 0 ∧ t.takeWait 0 true false = false) ∧
    (∃ pg u, t.reaches (t.addrOf (m 0)) false true pg u ∧
      (paPeer (pg.addr (t.addrOf (m 0))) == t.peerid && !leafPub pg.leaf && leafCl pg.leaf != 1) = true) ∧
    (∃ pg u, t.reaches (t.addrOf (m 0)) true true pg u ∧ (paPeer (pg.addr (t.addrOf (m 0))) == t.peerid && !leafPub pg.leaf) = true) ∧
    (served r (.rdsum plainHdr m8) (r.needsM m8 [] ds) = true ∧ r.addrOf m8 % 64 = 0) ∧
    (∃ pg u, r.reaches (r.addrOf m8) true false pg u ∧
      (u.aperture (paPeer (pg.addr (r.addrOf m8))) && !u.takeWait 0 false true) = true) ∧
    served t (.cutst plainHdr 63) (needs [] [.g 63]) = true ∧
    ((cut .arrived t).issues (.cutw plainHdr) ∧ (cut .arrived t).cutOpen 1 (prevTake 1) = true) ∧
    (t.issues (.cutw plainHdr) ∧ t.cutOpen 1 (prevTake 1) = false ∧ t.acqBusy = false) ∧
    (arrived.issues (.cuta plainHdr) ∧ arrived.st.stage = .cutArrived (aTask).take ∧ arrived.cutOpen 1 (prevTake 1) = false ∧
      arrived.cutHeld 1 = false) ∧
    ((cut .applying arrived).issues (.cuta plainHdr) ∧ (cut .applying arrived).cutOpen 1 (prevTake 1) = true) ∧
    (t.issues (.cuta plainHdr) ∧ t.st.stage ≠ .cutArrived (aTask).take ∧ t.enginesBusy 0 = false ∧ t.releases 8) := by
  refine ⟨by decide +kernel, by decide +kernel, by decide +kernel, by decide +kernel,
    reaches_of _ _ _ _ (fun pg _ => paPeer (pg.addr _) == 0 && !leafPub pg.leaf && leafCl pg.leaf != 1) (by decide +kernel),
    reaches_of _ _ _ _ (fun pg _ => paPeer (pg.addr _) == 0 && !leafPub pg.leaf) (by decide +kernel), by decide +kernel,
    reaches_of _ _ _ _ (fun pg u => u.aperture (paPeer (pg.addr _)) && !u.takeWait 0 false true) (by decide +kernel), by decide +kernel, by decide +kernel, by decide +kernel,
    by decide +kernel, by decide +kernel, by decide +kernel⟩

theorem wit_InvalidationResults :
    let s := lone { busyCore with level := .s }
    let hub (st : Stage) (is : List InvalRun) : State :=
      { lone Core.idle with cores := [(32768, { busyCore with level := .h, x := Stream.idle, a := { busyCore.a with stage := st } })],
                            cur := ⟨32768, false⟩, invals := is }
    let w : InvalRun := ⟨7, ⟨7, 0, 0, 0x40, []⟩, [0], [], [], []⟩
    let i : List (Instr × Needs) := [(.tlbinvPage plainHdr 1 2 true, needs [.g 1, .g 2] []), (.tlbinvSpace plainHdr 2 false, needs [.g 2] []),
      (.tlbinvAll plainHdr true, needs [] [])]
    s.refusal (.tlbinvAll plainHdr true) = some 0x03 ∧
    ([hub .start [], hub (.tlbSent 7) [w], hub (.tlbSent 7) []].all fun s => i.all fun e => served s e.1 e.2) = true ∧
    ((hub .start []).st.stage = .start ∧ (hub .start []).releases 5 ∧
      ((hub .start []).afterRelease 5).ownReqs (hub .start []).meOwner = []) ∧
    ((hub (.tlbSent 7) [w]).st.stage = .tlbSent 7 ∧ (hub (.tlbSent 7) [w]).invals.any (fun v => v.id == 7) = true ∧
      (hub (.tlbSent 7) []).invals.any (fun v => v.id == 7) = false) ∧
    (∃ v ∈ (hub .start [w]).invals, v.id = w.msg.id ∧ 0 ∈ v.dies) ∧
    (let d := { w with dies := [] }
     (hub .start [d]).invals = [d] ∧ d.dies = [] ∧ d.reqs = [] ∧ d.nmcs = [] ∧ (hub .start [d]).concernedLater d.msg = false) ∧
    (let d := { w with dies := [], dones := [1] }
     (hub .start [d]).invals = [d] ∧ ∀ q ∈ d.dones, (hub .start [d]).donePending q = false) := by
  decide

/-- A request of each kind that its home may perform, and the waits of the others. -/
theorem wit_HomesPerformRequests :
    let rq (k : ReqKind) (pend : Option Nat) : Req :=
      ⟨5, .stream 0 false, 0, 0x40000040, 0x40, 0, k, .flight, if k.writes then 1 else 0, 0, [], pend, false, false, 0, ⟨true, 0, 0, 0, 0, 0⟩⟩
    let st (k : ReqKind) (stage : Stage) : State :=
      { lone { busyCore with a := { busyCore.a with stage := stage, waitFrom := some 0 }, cyc := 2 ^ 24,
                             pends := [{ id := 9, x := false, outs := [(.g 2, none)], masks := [] }] } with reqs := [rq k (some 9)], mem := [(0x40000040, 7)] }
    let ks : List ReqKind := [.store (leBytes 5 8), .load 8 true false, .atomic 0 1 false true 200 0, .atomic 6 8 true true 7 9,
      .sync 1 true false 0, .sync 3 false true 4]
    (ks.all fun k => let s := st k (.request 5)
      decide (s.reqs.find? (fun q => q.id == 5) = some (rq k (some 9))) && s.homeReady (rq k (some 9)) && paPeer (rq k none).pa == s.peerid &&
      !s.badIn 0x40000040 8 && s.reqs.all (fun q => q.st != .listed)) = true ∧
    (let s := st (.sync 1 true false 0) (.request 5)
     (s.core 0).pends = [⟨9, false, [(.g 2, none)], []⟩] ∧ (s.core 0).a.stage = .request 5 ∧ paLocal 0x40000040 % 8 = 0 ∧
     modeMet 1 (tget false (0x40000040 / 8) s.full) = false ∧ modeMet 3 (tget false (0x40000040 / 8) s.full) = true ∧
     (s.core 0).a.waitFrom = some 0 ∧ 0 + 2 ^ 24 ≤ (s.core 0).cyc ∧ (s.core 0).runnable false = true ∧ (s.core 0).level = .t) ∧
    (let s : State := { State.reset with reqs := [{ rq (.sync 1 true false 0) none with st := .backoff 0 }] }
     s.reqs = [{ rq (.sync 1 true false 0) none with st := .backoff 0 }] ∧ 0 ≤ s.dcyc) := by decide +kernel

theorem wit_SendsAndMailboxResults :
    let c : Core := { busyCore with g := [(1, 8), (2, 9), (3, 0xFFFFFFFFFFFF8008)], s := [(15, 8)], v := [(31, 5)], presV := [(31, true)] }
    let s (x : Bool) : State := let t := tasked c false x
      { t with cores := t.cores ++ [(8, { Core.idle with task := some aTask })] }
    let k (a : Desc) (t : BitVec 6) : Needs := (srcNeeds false a).and (needs [.g t.toNat] [])
    let sc : SendMsg := ⟨8, 1, 0, 0, 31, 5, ⟨true, 0, 0, 0, 0, 0⟩⟩
    let fullBox : State := { s false with cores := [(8, { Core.idle with task := some aTask, inbox := List.replicate 32 1 })] }
    (served (s false) (.send plainHdr (.remote 3 0 31) (.imm 5)) (k (.imm 5) 3) = true ∧
      (s false).fellow 0 ((s false).me.reg (.g 3) % 2 ^ 15) = some aTask) ∧
    (served (s false) (.send plainHdr (.remote 2 2 0) (.g 1)) (k (.g 1) 2) = true ∧ (s false).fellow 0 ((s false).me.reg (.g 2) % 2 ^ 15) = none) ∧
    (served (s true) (.vsend plainHdr (.remote 15 1 0) (.v 31)) (needs [.s 15, .v 31] []) = true ∧
      (s true).fellow 0 ((s true).me.reg (.s 15) % 2 ^ 15) = some aTask) ∧
    ((s false).awaits 8 1 0 = true ∧ (s false).behindHeld sc = false ∧ (s false).awaits 9 1 0 = false ∧
      ((s false).core 8).inbox.length < 32) ∧
    (fullBox.awaits 8 1 0 = true ∧ fullBox.behindHeld sc = false ∧ 32 ≤ (fullBox.core 8).inbox.length) ∧
    (let h : State := { s false with cores := [(8, { Core.idle with held := [sc], inbox := List.replicate 31 1, heldMail := [(none, [1])] })] }
     (h.core 8).held = sc :: [] ∧ (h.core 8).inbox.length < 32 ∧ (h.core 8).heldMail = (none, [1]) :: [] ∧ (h.core 8).mail.length < 16) := by
  decide

/-- Core 0 with a copy in channel 0 and a shape record of four words at LM 0x1000. -/
def copying (c : Option CopyRun) (a : Nat := 0x1000) : State :=
  tasked { busyCore with
    g := [(1, BitVec.ofNat 64 a)], copies := if c.isSome then [(0, c)] else [],
    lm := [(0x1000, 0x40), (0x1007, 0x62), (0x1009, 0x08), (0x1010, 4), (0x1012, 4), (0x1014, 8), (0x101A, 8)] }

/-- A busy channel, each trap, a start; an element of a load copy and of a store copy; a clip box and a completion. -/
theorem wit_CopyResults :
    let f : CpyForm := { cOk with gs := 1 }
    let n := needs ([Reg.g 1] ++ [] ++ []) []
    let ok (s : State) (f : CpyForm) : Bool := served s (.cpy plainHdr f) n
    let done : CopyRun := { aCopy with next := 4, moved := 4 }
    let clip : CopyRun := { done with clipped := true }
    (ok (copying (some aCopy)) f = true ∧ (tget none 0 (copying (some aCopy)).me.copies).isSome = true) ∧
    (ok (copying none) { f with dir := true, rule := 1 } = true ∧ (copying none).takeRun 0 = none) ∧
    ((copying (some clip)).copyReleases 0 clip = true ∧ (copying (some done)).copyReleases 0 done = true) ∧
    (ok (copying none 0x1008) f = true ∧ 0x1008 % 16 ≠ 0) ∧ (ok (copying none 0xFF90) f = true ∧ 65536 < 0xFF90 + 128) ∧
    (ok (copying none 0x2000) f = true ∧ readShape ((copying none).me.lmView false) 0x2000 f 0 0 = none) ∧
    (ok (copying none) f = true ∧ (readShape ((copying none).me.lmView false) 0x1000 f 0 0).map CopyRun.va = some 0x40 ∧
      (copying none).me.lmBlocked 0x1000 128 false = false) ∧
    (∃ pg u, reachEngine ((copying none).engineAsker 0) 0x40 true false
        ((copying none).translate ((copying none).engineAsker 0) 0x40) = (.page pg, u) ∧ (paPeer (pg.addr 0x40) == 0) = true) ∧
    (tget none 0 ((copying (some aCopy)).core 0).copies = some aCopy ∧ (aCopy).next < dimsTotal (aCopy).dims ∧
      (aCopy).form.mc = false ∧ (aCopy).gran = none) ∧
    (∃ pg u, (copying (some aCopy)).elementPage 0 aCopy ((aCopy).vaAt 0) = some (some pg, u) ∧
      (paPeer (pg.addr ((aCopy).vaAt 0)) == 0 && !u.takeWait 0 true ((u.copyTake aCopy).isSome && leafPub pg.leaf) &&
        u.covers (homeOf (paLocal (pg.addr ((aCopy).vaAt 0)))) (aCopy).vec && !u.badIn (paLocal (pg.addr ((aCopy).vaAt 0))) 8) = true) ∧
    (∃ pg u, (copying (some (aCopy true))).elementPage 0 (aCopy true) ((aCopy true).vaAt 0) = some (some pg, u) ∧
      (paPeer (pg.addr ((aCopy true).vaAt 0)) == 0 && (u.copyTake (aCopy true)).isNone && !leafRop pg.leaf &&
        !u.takeWait 0 true false) = true) ∧
    ((copying (some clip)).copyWritten 0 0 clip = true ∧ clip.clipped = true ∧ clip.clipSt = 0 ∧
      ((copying (some clip)).core 0).mail.length < 16 ∧ ((copying (some clip)).core 0).heldMail = []) ∧
    (let d : CopyRun := { done with form := { done.form with cw := true } }
     (copying (some d)).copyWritten 0 0 d = true ∧ d.clipped = false ∧ d.fault1 = none ∧ d.ropHeld = none ∧ d.form.cw = true ∧
     inIdent d.cword = false ∧ d.cword % 8 = 0 ∧ d.moved < 2 ^ 32 ∧ d.faulted < 2 ^ 32) := by
  refine ⟨?_, ?_, ?_, ?_, ?_, ?_, ?_, engine_of _ _ _ _ _ (fun pg _ => paPeer (pg.addr 0x40) == 0) ?_,
    ?_, some_of _ (fun pg u => paPeer (pg.addr _) == 0 && !u.takeWait 0 true ((u.copyTake aCopy).isSome && leafPub pg.leaf) &&
        u.covers (homeOf (paLocal (pg.addr _))) (aCopy).vec && !u.badIn (paLocal (pg.addr _)) 8) ?_,
    some_of _ (fun pg u => paPeer (pg.addr _) == 0 && (u.copyTake (aCopy true)).isNone && !leafRop pg.leaf &&
        !u.takeWait 0 true false) ?_, ?_, ?_⟩
  all_goals decide +kernel

/-- A SET of two granules at 0x40 whose completion record is at 2^48 + 0x100, at LM 0x1000. -/
def nmcRecord : List (Nat × Byte) := [(0x1008, 0x40), (0x1020, 2), (0x1031, 1), (0x1036, 1)]

/-- Core 0 with that record, or with one whose completion record is on peer 1. -/
def commanding (far : List (Nat × Byte) := []) : State :=
  tasked { busyCore with g := [(1, 0x1000)], lm := nmcRecord.take 3 ++ far ++ nmcRecord.drop 3 }

/-- Core 0 with a command of page 0 and of 2^48 + 12 GiB, whose page is of another stack; its completion record is in page 0. -/
def stacked : State :=
  tasked { busyCore with g := [(1, 0x1000)],
                         lm := [(0x1000, 2), (0x1008, 0x40), (0x1010, 0x40), (0x1014, 3), (0x1016, 1), (0x1020, 2), (0x1031, 1)] }

/-- What that record reads as. -/
def nmcSet : NmcCmd :=
  { id := 0, core := 0, run := none, stack := 0, opc := 0, addrP := 0x40, addrG := 0, addrM := 0, ng := 2, a := 0, b := 0,
    doneVa := 2 ^ 48 + 0x100, donePa := 0, doneFe := false, doneRop := false, donePub := false, acq := false, rel := false, scope := 0,
    pages := [], next := 0, ndone := 0, nskip := 0, fskip := 0, ctr := 0, nheld := 0, rop1 := none, pub1 := none, takeRun := false,
    vec := [], after := [], ctx := ⟨false, 0, 0, 0, 0, 0⟩ }

/-- The record's arrays and its completion record reach pages of this device, whatever the walk cache still holds. -/
theorem wit_nmcPages :
    readNmc (commanding.me.lmView false) 0x1000 = some nmcSet ∧
    ∃ ps u pg w, walkArrays (commanding.engineAsker 0) nmcSet.ng nmcSet.arrays [] commanding = (.ok ps, u) ∧
      u.cur.core = 0 ∧ reachEngine (u.engineAsker 0) nmcSet.doneVa false true (u.translate (u.engineAsker 0) nmcSet.doneVa) = (.page pg, w) ∧
      (!ps.isEmpty && ps.all (fun p => paPeer p.2.pbase == 0 && homeOf (paLocal p.2.pbase) == homeOf 0x40000000)) = true ∧
      (paPeer pg.pbase == 0 && w.peerid == 0 && !w.takeWait 0 true false) = true := by
  refine ⟨by decide +kernel, ?_⟩
  obtain ⟨ps, e, h⟩ := pages_of (walkArrays (commanding.engineAsker 0) nmcSet.ng nmcSet.arrays [] commanding)
    (fun ps => !ps.isEmpty && ps.all (fun p => paPeer p.2.pbase == 0 && homeOf (paLocal p.2.pbase) == homeOf 0x40000000)) (by decide +kernel)
  obtain ⟨pg, w, e', h'⟩ := engine_of _ _ _ _ _ _
    (far_translation (walkArrays (commanding.engineAsker 0) nmcSet.ng nmcSet.arrays [] commanding).2
      ((walkArrays (commanding.engineAsker 0) nmcSet.ng nmcSet.arrays [] commanding).2.engineAsker 0) nmcSet.doneVa
      (enginePage ((walkArrays (commanding.engineAsker 0) nmcSet.ng nmcSet.arrays [] commanding).2.engineAsker 0) nmcSet.doneVa false true
        (fun pg w => paPeer pg.pbase == 0 && w.peerid == 0 && !w.takeWait 0 true false))
      ⟨0, 0, 15, 0, 0x2001⟩ (by decide +kernel) (by decide +kernel) (by decide +kernel)
      (by rintro c (rfl | rfl) <;> decide +kernel))
  exact ⟨ps, _, pg, w, e, by decide +kernel, e', h, h'⟩

/-- A completion record on peer 1. -/
theorem wit_nmcFar :
    let s := commanding [(0x1034, 1)]
    let c : NmcCmd := { nmcSet with doneVa := 2 ^ 48 + 2 ^ 32 + 0x100 }
    served s (.nmc plainHdr 1 false false 0) (needs [.g 1] []) = true ∧ readNmc (s.me.lmView false) 0x1000 = some c ∧
    ∃ ps u pg w, walkArrays (s.engineAsker 0) c.ng c.arrays [] s = (.ok ps, u) ∧ u.cur.core = 0 ∧
      reachEngine (u.engineAsker 0) c.doneVa false true (u.translate (u.engineAsker 0) c.doneVa) = (.page pg, w) ∧
      ((ps ++ [(c.doneVa, pg)]).find? (fun p => paPeer p.2.pbase != w.peerid)).isSome = true := by
  intro s c
  refine ⟨by decide +kernel, by decide +kernel, ?_⟩
  obtain ⟨ps, e, h⟩ := pages_of (walkArrays (s.engineAsker 0) c.ng c.arrays [] s) (fun ps => !ps.isEmpty) (by decide +kernel)
  obtain ⟨pg, w, e', h'⟩ := engine_of _ _ _ _ _ _
    (far_translation (walkArrays (s.engineAsker 0) c.ng c.arrays [] s).2
      ((walkArrays (s.engineAsker 0) c.ng c.arrays [] s).2.engineAsker 0) c.doneVa
      (enginePage ((walkArrays (s.engineAsker 0) c.ng c.arrays [] s).2.engineAsker 0) c.doneVa false true
        (fun pg w => paPeer pg.pbase == 1 && w.peerid == 0))
      ⟨0, 0, 15, 0, 0x2001⟩ (by decide +kernel) (by decide +kernel) (by decide +kernel)
      (by rintro c (rfl | rfl) <;> decide +kernel))
  refine ⟨ps, _, pg, w, e, by decide +kernel, e', ?_⟩
  simp only [Bool.and_eq_true, beq_iff_eq] at h'
  exact List.find?_isSome.2 ⟨(c.doneVa, pg), by simp, by simp [h'.1, h'.2]⟩

/-- Pages of several stacks. -/
theorem wit_nmcStacks :
    let s := stacked
    ∃ c ps u pg w, served s (.nmc plainHdr 1 false false 0) (needs [.g 1] []) = true ∧ readNmc (s.me.lmView false) 0x1000 = some c ∧
      walkArrays (s.engineAsker 0) c.ng c.arrays [] s = (.ok ps, u) ∧
      reachEngine (u.engineAsker 0) c.doneVa false true (u.translate (u.engineAsker 0) c.doneVa) = (.page pg, w) ∧
      (∀ p ∈ ps ++ [(c.doneVa, pg)], paPeer p.2.pbase = w.peerid) ∧
      ∃ p ∈ ps, ∃ q ∈ ps, homeOf (paLocal p.2.pbase) ≠ homeOf (paLocal q.2.pbase) := by
  intro s
  let c : NmcCmd := { nmcSet with opc := 2, addrG := 2 ^ 48 + 12 * 2 ^ 30 + 0x40, doneVa := 0x100 }
  let q := s.engineAsker 0
  have hq : tabled s q = true := by decide +kernel
  have hs : Steady s s := steady_self _ (by decide +kernel) (by decide +kernel)
  let r := walkPages q true true (0x40 + 128) 0x40 [] 2 s
  obtain ⟨p0, v0, e0, -⟩ := steady_pages s s q true true (0x40 + 128) 0x40 0 hq (by decide) (by decide) hs
  have er : r.2 = v0 := by show (walkPages q true true (0x40 + 128) 0x40 [] 2 s).2 = v0; rw [e0]
  obtain ⟨t, v, e1, h1⟩ := engine_of _ _ _ _ _ _
    (far_translation r.2 q c.addrG
      (enginePage q c.addrG true false (fun t v => paPeer t.pbase == 0 && homeOf (paLocal t.pbase) == 1 &&
        decide (c.addrG + 128 ≤ t.vbase + 2 ^ t.log) && decide (v = withStores s v.drawn v.tlb v.walks) &&
        v.tlb.all (fun t => decide (t.vbase < 2 ^ 30 → t = pageZero t.place)) && v.walks.all walkZero))
      ⟨0, 0, 15, 0, 0x2001⟩ (by decide +kernel) (by decide +kernel) (by decide +kernel)
      (by rintro c (rfl | rfl) <;> decide +kernel))
  simp only [Bool.and_eq_true, beq_iff_eq, decide_eq_true_eq, List.all_eq_true] at h1
  obtain ⟨⟨⟨⟨⟨h1, h2⟩, h3⟩, h4⟩, h5⟩, h6⟩ := h1
  have kv : Steady s v := ⟨_, _, _, h4, h5, h6⟩
  obtain ⟨p2, w, -, e2, kw⟩ := steady_reach s v q c.doneVa false true hq (by decide) kv
  have hv : v.engineAsker 0 = q := (steady_same _ _ kv).2.2.2.1 0
  have hw : w.peerid = 0 := (steady_same _ _ kw).1
  have z : paPeer (pageZero p0).pbase = 0 ∧ homeOf (paLocal (pageZero p0).pbase) = 0 :=
    (by decide : paPeer 0x40000000 = 0 ∧ homeOf (paLocal 0x40000000) = 0)
  have e3 : walkPages q true false (c.addrG + 128) c.addrG [(0x40, pageZero p0)] 2 v0 =
      (.ok ([(0x40, pageZero p0)] ++ [(c.addrG, t)]), v) := by
    rw [walkPages, if_neg (by omega), ← er, e1]
    simp only []
    rw [walkPages, if_pos h3]
  refine ⟨c, [(0x40, pageZero p0)] ++ [(c.addrG, t)], v, pageZero p2, w, by decide +kernel, by decide +kernel, ?_, ?_, ?_, ?_⟩
  · show walkArrays q 2 [(0x40, true, true), (c.addrG, true, false)] [] s = _
    rw [walkArrays, show walkPages q true true (0x40 + 64 * 2) 0x40 [] (2 / 64 + 2) s = _ from e0]
    simp only []
    rw [walkArrays, show walkPages q true false (c.addrG + 64 * 2) c.addrG _ (2 / 64 + 2) v0 = _ from e3]
    rfl
  · rw [hv]; exact e2
  · rw [hw]
    intro p m
    simp only [List.mem_append, List.mem_cons, List.not_mem_nil, or_false] at m
    obtain (rfl | rfl) | rfl := m
    · exact z.1
    · exact h1
    · exact (by decide : paPeer 0x40000000 = 0)
  · refine ⟨_, List.mem_append_left _ (List.mem_singleton.2 rfl), _, List.mem_append_right _ (List.mem_singleton.2 rfl), ?_⟩
    rw [h2, z.2]
    decide

/-- A command of each operation, its record in LM, the places it needs, a granule written and held, and completion. -/
theorem wit_NearMemoryResults :
    let s (a : Nat) (k : List NmcCmd) (cp : Table (Option CopyRun) := []) : State :=
      { tasked { busyCore with g := [(1, BitVec.ofNat 64 a)], lm := nmcRecord, copies := cp } with nmcs := k }
    let i : Instr := .nmc plainHdr 1 false false 0
    let c : NmcCmd :=
      { id := 3, core := 0, run := some 1, stack := 0, opc := 4, addrP := 0x40, addrG := 0x1040, addrM := 0x2040, ng := 2, a := 1, b := 2,
        doneVa := 0x100, donePa := 0x40000100, doneFe := true, doneRop := false, donePub := false, acq := false, rel := false, scope := 0,
        pages := [⟨0, 30, 0x40000000, false, false⟩], next := 0, ndone := 0, nskip := 0, fskip := 0, ctr := 0, nheld := 0, rop1 := none,
        pub1 := none, takeRun := false, vec := [], after := [], ctx := ⟨true, 0, 0, 0, 0, 0⟩ }
    let held : NmcCmd := { c with pages := [⟨0, 30, 0x40000000, true, false⟩] }
    ([s 0x1000 [], s 0x1008 [], s 0x1040 [], s 0x1000 (List.replicate 16 c), s 0x1000 [] [(0, some { aCopy with wm := 0x1000, lmEnd := 0x1020 })]].all
      fun t => served t i (needs [.g 1] [])) = true ∧
    (16 ≤ ((s 0x1000 (List.replicate 16 c)).nmcs.filter (fun d => d.core == 0)).length) ∧
    ((s 0x1000 [] [(0, some { aCopy with wm := 0x1000, lmEnd := 0x1020 })]).me.lmBlocked 0x1000 64 false = true) ∧
    (0x1008 % 64 ≠ 0 ∧ readNmc ((s 0x1000 []).me.lmView false) 0x1040 = none ∧ (readNmc ((s 0x1000 []).me.lmView false) 0x1000).isSome = true ∧
      (s 0x1000 []).me.lmBlocked 0x1000 64 false = false) ∧
    ((s 0 []).issues (.nfence plainHdr 21) ∧ (s 0 []).scopeOf 0 21 = some 5 ∧ (s 0 []).nmcs.any (fun d => d.core == 0) = false ∧
      (s 0 []).releases 5 ∧ (s 0 [c]).nmcs.any (fun d => d.core == 0) = true ∧ (s 0 [c]).issues (.nfence plainHdr 21)) ∧
    ((((List.range 5).map (fun k => ({ c with opc := k } : NmcCmd))) ++ [held]).all fun c => (s 0 [c]).nmcs.find? (fun d => d.id == 3) == some c && (s 0 [c]).nmcFirst c && decide (c.next < c.ng) &&
      !(s 0 [c]).reqs.any (fun r => c.after.contains r.id) && (s 0 [c]).covers 0 c.vec && (s 0 [c]).nmcFree c) = true ∧
    (c.heldAt 0x40 = (false, false) ∧ c.heldAt 0x2040 = (false, false) ∧ c.paOf 0x40 + 64 ≤ c.paOf 0x2040 ∧
      (∀ a ∈ [c.paOf 0x40, c.paOf 0x1040, c.paOf 0x2040], (s 0 [c]).badIn a 64 = false) ∧ held.heldAt 0x40 ≠ (false, false)) ∧
    (let d : NmcCmd := { c with next := 2, ndone := 2 }
     (s 0 [d]).nmcs.find? (fun e => e.id == 3) = some d ∧ (s 0 [d]).nmcFirst d = true ∧ d.ng ≤ d.next ∧ d.donePa % 8 = 0 ∧
     (s 0 [d]).engineFree d.stack d.donePa = true ∧ (s 0 [{ d with rel := true }]).nmcHeld { d with rel := true } = false ∧
     d.doneRop = false ∧ d.donePub = false ∧ d.rop1 = none ∧ d.pub1 = none ∧ ∀ q ∈ (s 0 [d]).reqs, q.st ≠ .listed) := by decide +kernel

/-- An exchange send not granted, too late, early and in its slot; its landing; the exchange barrier. -/
theorem wit_ExchangeResults :
    let sheet : Sheet := ⟨8, [(3, 0, 1), (5, 0, 1)], 20⟩
    let r (sh : Option Sheet) : Run := { aRun with sheet := sh, places := [⟨[0, 9], 0, 0, true, [0, 9]⟩] }
    let s (dcyc : Nat) (st : Stage) (sh : Option Sheet) (xs : List XGroup) : State :=
      { tasked { busyCore with g := [(1, 9), (2, 7)], xbarAt := some 0, a := { busyCore.a with stage := st } } with
        runs := [r sh], dcyc := dcyc, xgroups := xs }
    let n := needs [.g 1, .g 2] []
    let m (src : BitVec 6) := (srcNeeds false (.g 1)).and (needs ((List.range 8).map (fun j => Reg.g (src.toNat + j))) [])
    let t := s 3 .start (some sheet) []
    ([s 0 .start (some sheet) [], t, s 4 .start (some sheet) [], s 4 (.slotWait 9 [5]) (some sheet) []].all fun s =>
      served s (.xsend plainHdr (.remote 1 0 31) 2 3) n && served s (.xsendLm plainHdr (.g 1) 0 3 0xFFC0) (m 0) && s.granted 0 3 9) = true ∧
    (served t (.xsend plainHdr (.remote 1 0 31) 2 4) n = true ∧ t.granted 0 4 9 = false ∧ t.slotCount 0 = 3) ∧
    ((s 4 .start (some sheet) []).slotCount 0 = 4 ∧ (s 0 .start (some sheet) []).slotCount 0 = 0 ∧
      (s 4 (.slotWait 9 [5]) (some sheet) []).st.stage = .slotWait 9 [5] ∧ (s 2 (.slotWait 9 [5]) (some sheet) []).slotCount 0 < 3 ∧
      t.st.stage = .start) ∧
    (t.awaits 0 1 0 = true ∧ t.awaits 9 1 0 = false ∧ inIdent 0xFFC0 = false ∧ 0xFFC0 % 8 = 0) ∧
    ((s 3 .start none []).issues (.xbar plainHdr) ∧ (s 3 .start none []).runOf 0 = some (r none) ∧ (s 3 .start none []).me.task = some aTask ∧
      t.issues (.xbar plainHdr) ∧ t.st.stage ≠ .xbarArrived ∧ t.releases ((r (some sheet)).xbarScope 0)) ∧
    (let u := s 3 .xbarArrived (some sheet) [⟨1, 0, [0], none, [(0, 1)]⟩]
     u.issues (.xbar plainHdr) ∧ 0 ∈ (u.xgroup 1 0).arrived ∧ (u.run? 1).isSome = true ∧ (u.xgroup 1 0).arrived ≠ [] ∧
     (∀ e ∈ (u.tasksOf (r (some sheet))).filter (fun e => e.2.group == 0), e.1 ∈ (u.xgroup 1 0).arrived) ∧ u.landingDue 1 = false) ∧
    (let u := s 3 .xbarArrived (some sheet) [⟨1, 0, [], some 2, []⟩]
     u.issues (.xbar plainHdr) ∧ 0 ∉ (u.xgroup 1 0).arrived ∧ u.acqBusy = false) := by decide +kernel

/-- Each identifier state that BARINIT, BARARR and BARWAIT meet, and a barrier message. -/
theorem wit_BarrierResults :
    let e : BarEntry := { BarEntry.unbound with bound := true }
    let s (b : BarEntry) (st : Stage := .start) (m : Table Byte := [(0x1000, 1)]) : State :=
      tasked { busyCore with g := [(1, 0x1000), (2, 0x1004)], bars := if b = BarEntry.unbound then [] else [(2047, b)], lm := m, cyc := 2 ^ 24,
                             a := { busyCore.a with stage := st, waitFrom := if st = .start then none else some 0 } }
    let arrived : BarEntry := { e with arrived := true }
    let done : BarEntry := { arrived with done := true, value := 5 }
    let r : Run := { aRun with levels := [{ name := 0, extent := 8, width := 8, bind := 1, co := false, ord := false, lane := false,
                                            bar := true, gang := false, take := false, esz := 0 }] }
    let t := s .unbound
    (t.issues (.barinit plainHdr 2047 0) ∧ t.runOf 0 = some aRun ∧ (∃ x, (aRun).levels[0]? = some x ∧ x.bar = true ∧ x.bind ≠ 0) ∧
      (t.me.bar 2047).arrived = false ∧ ((s arrived).me.bar 2047).arrived = true ∧ (s arrived).issues (.barinit plainHdr 2047 0)) ∧
    (t.issues (.barinit plainHdr 2047 1) ∧ t.issues (.barinit plainHdr 2047 16)) ∧
    (served t (.barinitDom plainHdr 2047 1 2) (needs [.g 1] []) = true ∧ served t (.barinitDom plainHdr 2047 2 4) (needs [.g 2] []) = true ∧
      0x1004 % 8 ≠ 0 ∧ 0x1000 + 128 ≤ 65536 ∧ t.me.lmBlocked 0x1000 128 false = false ∧ bitAt (t.me.lmRd false 0x1000 128) 0 = true ∧
      t.me.lmRd false 0x1000 128 < 2 ^ 8 ∧ (t.fellow 0 0).isSome = true) ∧
    (2 ^ 8 ≤ (s .unbound .start [(0x1000, 1), (0x1001, 1)]).me.lmRd false 0x1000 128 ∧
      served (s .unbound .start [(0x1000, 1), (0x1001, 1)]) (.barinitDom plainHdr 2047 1 2) (needs [.g 1] []) = true) ∧
    (served t (.bararr plainHdr 2047 0 0) (needs [] []) = true ∧ (t.me.bar 2047).bound = false ∧
      served (s e) (.bararr plainHdr 2047 2 1) (needs [.g 1] []) = true ∧ ((s e).me.bar 2047).bound = true ∧ (s e).releases ((s e).barScope 0 e) ∧
      (let b : BarInst := { newInst 1 2047 e with cores := [(0, 2, 0x1000)] }
       b.sentUp = false ∧ (s e).missing aRun b = false ∧ (s e).begun aRun b = true ∧ ((aRun).barDevices b).length ≤ 1)) ∧
    (served t (.barwait plainHdr 2047 0 false) (needs [] []) = true ∧
      served (s arrived) (.barwait plainHdr 2047 1 true) (needs [] [.g 1]) = true ∧ (s arrived).feExpired = false ∧
      (s arrived (.barWait 2047)).feExpired = true ∧ ((s arrived (.barWait 2047)).core 0).runnable false = true ∧
      served (s done) (.barwait plainHdr 2047 1 true) (needs [] [.g 1]) = true ∧ ((s done).me.bar 2047).done = true ∧
      ((s done).me.bar 2047).mismatch = false ∧ (s done).acqBusy = false ∧
      ((s { done with mismatch := true }).me.bar 2047).mismatch = true) ∧
    (t.runOfMsg 0x40 0 0 = some aRun ∧ r.levels.length = 1) := by decide +kernel

/-- Core 0 with a queue-pair context of sixteen entries in page 0 and an entry of one word at LM 0x1000, its source at 0x100, or on
peer 1. -/
def posting (c : Nat := 0x0401) (a : Nat := 0x1000) (far : Bool := false) : State :=
  { (tasked { busyCore with g := [(1, BitVec.ofNat 64 a)],
                            lm := [(0x1011, 1)] ++ (if far then [(0x1014, 1), (0x1016, 1)] else []) ++ [(0x1020, 8)] }).memPut
      0x40001000 (leBytes c 8) with qpbase := 0x1000 }

/-- The entry that the record reads as. -/
def qpWord : QpEntry :=
  { core := 0, opc := 0, red := 0, trig := 0, thresh := 0, laddr := 0x100, raddr := 0, len := 8, evReuse := 0, evLocal := 0,
    evAll := 0, evRemote := 0, acq := false, rel := false, scope := 0, space := 0, port := false, remote := 0, phase := 0, pos := 0,
    user := false, run := 0, lost := false, data := [], vec := [], ctx := ⟨false, 0, 0, 0, 0, 0⟩ }

/-- What the context reads as. -/
def qpHeld (place : Nat) : QpContext :=
  { space := 0, port := false, size := 16, ring := 0, remote := 0, va := 0x1000, pa := 0x40001000, page := pageZero place }

/-- The context, the entry's page and the ring's page are reached, whatever the translation stores still hold. -/
theorem wit_qpPages :
    ∃ u v w c va page ps, posting.qpContext 0 0 = (.ok c, u) ∧ c.space = (u.asker 0).space ∧
      readQpEntry (u.me.lmView false) 0x1000 = some qpWord ∧
      walkPages (u.engineAsker 0) true false (qpWord.laddr + qpWord.len) qpWord.laddr [] (qpWord.len / 4096 + 2) u = (.ok ps, v) ∧
      (∀ p ∈ ps, paPeer p.2.pbase = v.peerid) ∧ v.ringPage 0 0 c = (.page va page, w) ∧
      (tget [] 0 posting.qps).length < c.size ∧ ∀ x ∈ c.writes va page [] [], w.engineFree Config.hubDie x.2.1 = true := by
  let q : Asker := { posting.engineAsker 0 with user := false }
  have hq : tabled posting q = true := by decide +kernel
  have h' : tabled posting (posting.engineAsker 0) = true := by decide +kernel
  have m0 : posting.memRd 0x40001000 8 = 0x401 ∧ posting.memRd 0x40001008 8 = 0 ∧ posting.memRd 0x40001010 8 = 0 := by decide +kernel
  have vc : validContext 0x401 0 = true := by decide
  obtain ⟨p, u, -, e1, k1⟩ := steady_reach posting posting q 0x1000 true true hq (by decide) (steady_self _ (by decide +kernel) (by decide +kernel))
  have m1 : posting.peerid = 0 ∧ (posting.asker 0).space = 0 ∧ posting.qpTail = [] ∧ posting.takeWait 0 true false = false ∧
      readQpEntry (posting.me.lmView false) 0x1000 = some qpWord := by decide +kernel
  obtain ⟨u1, u2, u3, u4, u5, -, u7, -⟩ := steady_same _ _ k1
  rw [m1.1] at u1
  obtain ⟨p2, v, e2, k2⟩ := steady_pages posting u (posting.engineAsker 0) true false 0x108 0x100 0 h' (by decide) (by decide) k1
  obtain ⟨p3, w, -, e3, k3⟩ := steady_reach posting v q 0 false true hq (by decide) k2
  obtain ⟨v1, -, -, v4, -, v6, -⟩ := steady_same _ _ k2
  rw [m1.1] at v1
  obtain ⟨w1, -, -, -, -, -, -, w8⟩ := steady_same _ _ k3
  rw [m1.1] at w1
  have free : ∀ d a, posting.engineFree d a = true := by
    have e : posting.chain = [] ∧ posting.lastTo = [] := by decide +kernel
    intro d a
    simp [State.engineFree, e, tget]
  refine ⟨u, v, w, qpHeld p, 0, some (pageZero p3), [(0x100, pageZero p2)], ?_, ?_, ?_, ?_, ?_, ?_, ?_, fun x _ => (w8 ..).trans (free ..)⟩
  · rw [State.qpContext]
    simp only [show posting.qpbase.toNat + 64 * 0 = 0x1000 from by decide +kernel]
    rw [show reachEngine { posting.engineAsker 0 with user := false } 0x1000 true true
      (posting.translate { posting.engineAsker 0 with user := false } 0x1000) = _ from e1]
    simp only [show paLocal ((pageZero p).addr 0x1000) = 0x40001000 from (by decide : paLocal ((pageZero 0).addr 0x1000) = 0x40001000),
      show paPeer ((pageZero p).addr 0x1000) = 0 from (by decide : paPeer ((pageZero 0).addr 0x1000) = 0), u1, u2, u7, m0, vc, m1.2.2.2.1,
      show leafPub (pageZero p).leaf = false from (by decide : leafPub 0x4000007F = false), ne_eq, not_true_eq_false, if_false, if_true,
      Bool.false_eq_true]
    rfl
  · rw [u3, m1.2.1]; rfl
  · rw [u5]; exact m1.2.2.2.2
  · rw [u4]; exact e2
  · rw [v1]
    simp only [List.mem_singleton, forall_eq]
    exact (by decide : paPeer (pageZero 0).pbase = 0)
  · rw [State.ringPage, v4, v6, m1.2.2.1]
    simp only [show (qpHeld p).ring + 64 * (tget 0 0 ([] : Table Nat) % (qpHeld p).size) = 0 from rfl]
    rw [show reachEngine { posting.engineAsker 0 with user := false } 0 false true
      (v.translate { posting.engineAsker 0 with user := false } 0) = _ from e3]
    simp only [show paPeer ((pageZero p3).addr 0) = 0 from (by decide : paPeer ((pageZero 0).addr 0) = 0), w1, if_true]
  · exact (by decide +kernel : (tget [] 0 posting.qps).length < 16)

set_option maxRecDepth 4000 in
/-- The source of an entry may lie on peer 1. -/
theorem wit_qpFar :
    let u := ((posting (far := true)).qpContext 0 0).2
    let e : QpEntry := { qpWord with laddr := 2 ^ 48 + 2 ^ 32 + 0x100 }
    readQpEntry (u.me.lmView false) 0x1000 = some e ∧ ((posting (far := true)).qpContext 0 0).1 = .ok (qpHeld (posting.engineAsker 0).place) ∧
    (u.asker 0).space = 0 ∧ u.takeRun 0 = none ∧
    ∃ ps v, walkPages (u.engineAsker 0) true false (e.laddr + e.len) e.laddr [] (e.len / 4096 + 2) u = (.ok ps, v) ∧
      (ps.any fun p => paPeer p.2.pbase != 0) = true := by
  intro u e
  let p : List (Nat × TlbEntry) → Bool := fun ps => ps.any fun p => paPeer p.2.pbase != 0
  have k : pagesVia (u.engineAsker 0) true false (e.laddr + e.len) e.laddr 1 p (u.translate (u.engineAsker 0) e.laddr) = true := by
    refine far_translation u _ e.laddr _ ⟨0, 0, 15, 0, 0x2001⟩ ?_ ?_ ?_ ?_
    case refine_4 => rintro c (rfl | rfl) <;> decide +kernel
    all_goals decide +kernel
  have fe : e.len / 4096 + 2 = 1 + 1 := by decide
  rw [fe]
  refine ⟨?_, ?_, ?_, ?_, pages_via _ _ _ _ _ 1 p u ?_ k⟩
  all_goals decide +kernel

/-- An entry of one word in a phase, on queue pair 0, with trigger counter 0 at a value. -/
def queued (ph : Nat) (tr : Table Word) : State :=
  { posting with qps := [(0, [{ qpWord with phase := ph, thresh := 1 }])], trig := tr }

theorem wit_QueuePairResults_counters :
    let s := posting
    let n := needs [.g 1] []
    let t : State := { s with trig := [(1023, 0x1000)] }
    s.scopeOf 0 1 = none ∧ s.scopeOf 0 26 = some 10 ∧ ([1, 26].all fun f => served s (.qtrig plainHdr 1023 1 f) n &&
      served s (.qwait plainHdr 1023 1 f) n) = true ∧ s.releases 10 ∧ (tget 0 1023 s.trig).toNat < s.me.reg (.g 1) ∧ s.acqBusy = false ∧
    t.issues (.qwait plainHdr 1023 1 26) ∧ t.me.reg (.g 1) ≤ (tget 0 1023 t.trig).toNat := by decide +kernel

/-- Contexts not valid, not yet readable, of another space and good; entries misaligned, bad and good; a ring with room and a full one. -/
theorem wit_QueuePairResults_post :
    let n := needs [.g 1] []
    let f : State := { posting with qps := [(0, List.replicate 16 qpWord)] }
    let b : State := { posting with vec := [(64 * dieOf 0, 5)] }
    ([posting, posting 0, posting 0x10401, posting 0x0401 0x1008, posting 0x0401 0x1040, f, b].all fun s =>
      served s (.qpost plainHdr 0 1 false false 0) n && !s.me.lmBlocked (s.me.reg (.g 1)) 64 false) = true ∧
    ((posting 0).qpContext 0 0).1 = .bad ∧ (b.qpContext 0 0).1 = .wait ∧
    ((posting 0x10401).qpContext 0 0).1 = .ok { qpHeld (posting.engineAsker 0).place with space := 1 } ∧
    ((posting 0x10401).qpContext 0 0).2.cores = (posting 0x10401).cores ∧ ((posting 0x10401).asker 0).space = 0 ∧
    0x1008 % 64 ≠ 0 ∧ readQpEntry ((posting 0x0401 0x1040).me.lmView false) 0x1040 = none ∧ (tget [] 0 posting.qps).length < 16 ∧
    16 ≤ (tget [] 0 f.qps).length := by decide +kernel

theorem wit_QueuePairResults_events :
    let e (ph : Nat) : QpEntry := { qpWord with phase := ph, thresh := 1 }
    (List.range 4).all (fun ph => tget [] 0 (queued ph []).qps == [] ++ e ph :: []) = true ∧
    (tget 0 (e 0).trig (queued 0 []).trig).toNat < (e 0).thresh ∧ (e 0).thresh ≤ (tget 0 (e 0).trig (queued 0 [(0, 1)]).trig).toNat ∧
    ((queued 1 []).sourceWord (e 1) ((e 1).laddr + (e 1).pos)).any (fun r => r.1.length == 8 && decide ((e 1).len ≤ (e 1).pos + 8) &&
      !r.2.qpLost (e 1) && r.2.qpLost { e 1 with port := true, remote := 1 }) = true ∧
    ((queued 1 []).sourceWord { e 1 with len := 16 } (e 1).laddr).isSome = true ∧ 0 + 8 < 16 ∧
    ((queued 1 []).sourceWord { e 1 with vec := [(0, 5)] } (e 1).laddr).isNone = true := by decide +kernel

theorem wit_QueuePairResults_pull :
    posting.cuts = [] ∧ posting.assigned 0x40000040 = true ∧ posting.published 0x40000040 = true ∧ posting.badIn 0x40000040 64 = false ∧ posting.assigned (2 ^ 44) = false := by
  decide +kernel

/-- A word of a queue-pair write reaches a plain page of this device. -/
theorem wit_qpTarget :
    ∃ pg u, reachEngine ⟨Config.hubDie, none, 0, false, 0, true, ⟨true, 0, 0, 0, 0, 0⟩⟩ 0x100 true true
        (posting.translate ⟨Config.hubDie, none, 0, false, 0, true, ⟨true, 0, 0, 0, 0, 0⟩⟩ 0x100) = (.page pg, u) ∧
      (paPeer (pg.addr 0x100) == posting.peerid && !leafRop pg.leaf && !leafPub pg.leaf &&
        !(u.markDirty pg).badIn (paLocal (pg.addr 0x100)) 8 && u.engineFree Config.hubDie (paLocal (pg.addr 0x100))) = true :=
  engine_of _ _ _ _ _ (fun pg u => paPeer (pg.addr 0x100) == posting.peerid && !leafRop pg.leaf && !leafPub pg.leaf &&
    !(u.markDirty pg).badIn (paLocal (pg.addr 0x100)) 8 && u.engineFree Config.hubDie (paLocal (pg.addr 0x100))) (by decide +kernel)

/-- A core whose X-stream may issue, with every vector register present. -/
def vecCore : Core :=
  { busyCore with presV := (List.range 32).map (fun i => (i, true)), s := [(1, 0x800), (2, 3), (14, 5)], vflags := 0x0003000200010004,
                  px := [(1, 0x000000FF00000000FFFF0000FFFF000F)], tctr := [(1, 7)], tc := [(1, 0x0000000000001C00)] }

/-- The X-stream of that core. -/
def vecState (c : Core := vecCore) : State := lone c true

/-- Forms of family V with p0 and with a guard of some bytes. -/
def vecServed (i : Hdr → VForm → Instr) (f : VForm) (keeps : Bool) (reads writes : List Reg) : Bool :=
  [plainHdr, { plainHdr with gpred := 1 }, { plainHdr with gpred := 1, gneg := true }].all fun h =>
    served vecState (i h f) (needsV h f keeps reads writes)

/-- Grids below, at and above a value; codes of every format; values within a format's range and beyond it. -/
theorem wit_VectorLaneResults_rounding :
    ((-1 : Int) ≤ 0 ∧ (0 : Int) < 1) ∧
    ((List.range 8).all fun f => (decodeF f 1).isFin && (decodeF f ([0x7F7FFFFF, 0x7F7F, 0x7BFF, 0x7B, 0x7E, 0x1F, 0x1F, 0x7].getD f 0)).isFin &&
      (decodeF f ([0x7F7FFFFF, 0x7F7F, 0x7BFF, 0x7B, 0x7E, 0x1F, 0x1F, 0x7].getD f 0)).lt
        (.fin false (roundUnits .rz 1 200 (gridExp f 1 200)) (gridExp f 1 200))) = true := by decide +kernel

/-- Terms with a NaN, an infinity of each sign, both, zeros, and finite terms far apart. -/
theorem wit_GangEngineResults_window :
    let t (x : Ex) : Term := Term.of x
    let xs (l : List Ex) : List Ex := (l.map t).map Term.v
    let big : Ex := .fin false 3 100
    let tiny : Ex := .fin true 5 (-100)
    (Ex.nan ∈ xs [.nan] ∧ (∃ p ∈ [Term.prod (.inf false) .zero], p.made = true) ∧ ∀ p ∈ [t .nan], p.made = false) ∧
    (Ex.inf false ∈ xs [.inf false, .inf true] ∧ Ex.inf true ∈ xs [.inf false, .inf true]) ∧
    (Ex.nan ∉ xs [.inf false] ∧ Ex.inf true ∉ xs [.inf false] ∧ Ex.inf false ∉ xs [.inf true]) ∧
    ((∀ x ∈ xs [.fin true 0 0, .fin true 0 3], x.isZero = true ∧ x.sign = true) ∧ ∀ x ∈ xs [.zero, .fin true 0 0], x.isZero = true) ∧
    ((∀ x ∈ xs [big, tiny, .zero], x.isFin = true) ∧ (∃ x ∈ xs [big, tiny, .zero], x.isZero = false ∧ x.log = big.log) ∧
      ∀ x ∈ xs [big, tiny, .zero], x.isZero = false → x.log ≤ big.log) := by decide +kernel

theorem wit_VectorLaneResults_float :
    ([Instr.vadd, .vsub, .vmul].all fun i => vecServed i vOk true [] [.v 1] &&
      vecServed i { vOk with fmt := 2, sa := .const 9, rm := 2, stride := 3, sbase := 2 } true [] [.v 1]) = true ∧
    ([Instr.vfma, .vfms].all fun i => vecServed i vOk true [.v 1] [.v 1]) = true ∧
    ([Instr.vmin, .vmax].all fun i => vecServed i { vOk with fmt := 1 } true [] [.v 1]) = true ∧
    ([Instr.vabs, .vneg].all fun i => vecServed i { vOk with sb := none } true [] [.v 1]) = true := by decide +kernel

theorem wit_VectorLaneResults_integer :
    ([Instr.viadd, .visub, .vimul, .vimin, .vimax, .viadds, .visubs, .vand, .vor, .vxor, .vandn, .vshl, .vshr, .vsar].all fun i =>
      vecServed i { vOk with fmt := 16, didx := 31, sb := some (.imm 0x7FFFF) } true [] [.v 31] &&
      vecServed i { vOk with fmt := 23 } true [] [.v 1]) = true ∧
    ([Instr.viabs, .vineg].all fun i => vecServed i { vOk with fmt := 18, sb := none } true [] [.v 1]) = true ∧
    vecServed .vbcast { vOk with sa := .none, sb := some (.s 2) } true [] [.v 1] = true ∧
    vecServed .vmov { vOk with sb := none } true [] [.v 1] = true ∧ vecServed .vlen { vNone with fmt := 17 } true [] [.v 1] = true ∧
    vecServed .vperm { vOk with fmt := 19 } true [] [.v 1] = true ∧ vecServed .vbcastElement { vOk with sb := some (.imm 31) } true [] [.v 1] = true ∧
    vecServed .vslide { vOk with sb := some (.imm 0x7FFFF) } true [] [.v 1] = true ∧
    ([22, 23].all fun k => vecServed .vrand { vNone with fmt := k, sb := some (.s 1) } true [] [.v 1]) = true ∧
    vecServed .vmovPredicate { vOk with fmt := 20, sa := .p 1, sb := none } true [] [.v 1] = true := by decide +kernel

theorem wit_VectorLaneResults_predicate :
    ([Instr.vcmpeq, .vcmpne, .vcmplt, .vcmple].all fun i => vecServed i { vOk with didx := 15, sfmt := 23 } true [] [.px 15] &&
      vecServed i { vOk with didx := 0, sfmt := 3 } true [] [.px 0]) = true ∧
    vecServed .vcmpun { vOk with didx := 2, sfmt := 4 } true [] [.px 2] = true ∧
    vecServed .prange { vNone with didx := 15, sb := some (.s 14) } true [.s 15] [.px 15] = true ∧
    vecServed .vsel vOk false [] [.v 1] = true ∧ vecServed .vredmax { vOk with sb := none } false [] [.v 1] = true ∧
    vecServed .vredmax { vOk with fmt := 16, sb := none } false [] [.v 1] = true ∧
    vecServed .vredsum { vOk with fmt := 1, sb := none, rm := 2 } false [] [.v 1] = true ∧
    (List.range (lanes 32)).filter (laneOn (vecState.laneMask { plainHdr with gpred := 1 }) 32) ≠ [] := by decide +kernel

theorem wit_VectorConversionResults :
    vecServed .vcvt { vOk with fmt := 17, sfmt := 0, sb := none } true [] [.v 1] = true ∧
    vecServed .vcvt { vOk with fmt := 12, sfmt := 0, sb := none } true [] [.v 1, .v 2] = true ∧
    vecServed .vcvt { vOk with fmt := 0, sfmt := 8, sb := none } true [.v 3] [.v 1] = true ∧
    vecServed .vcvt { vOk with fmt := 14, sfmt := 0, sb := some (.s 2) } true [] [.v 1] = true ∧
    vecServed .vcvtEf { vOk with fmt := 7, rm := 3, sb := some (.v 3) } true [.v 3] [.v 1, .v 3] = true ∧
    vecServed .vmxdot { vOk with sfmt := 12, sa := .v 4, sb := some (.v 6) } true [.v 5, .v 7, .v 1] [.v 1] = true ∧
    ([Instr.vexp2, .vlog2, .vrcp, .vrsqrt, .vsqrt].all fun i => vecServed i { vOk with sb := none } true [] [.v 1]) = true ∧
    vecServed .vstat vNone true [] [.v 1] = true ∧
    vecServed .vstatPredicate { vNone with fmt := 0, didx := 3, sb := some (.imm 15) } true [] [.px 3] = true ∧
    vecState.issues (.vclrf plainHdr { vNone with fmt := 0, didx := 0, sb := some (.imm 8) }) ∧
    (let f : VForm := { vNone with fmt := 0, didx := 0, sb := some (.s 14) }
     served vecState (.kset plainHdr f) (needs [.s 14, .s 15] []) = true) ∧
    (let f : VForm := { vNone with fmt := 0, didx := 0, sb := some (.const 0xFE) }
     served vecState (.kset plainHdr f) { needs [] [] with lm := [(8 * 0xFE, 16, false)] } = true) := by decide +kernel

/-- In range and at its edges, misaligned, and held back by a copy; a shape taken and refused; counters. -/
theorem wit_VectorAndTileMemoryResults :
    let m (off : BitVec 19) : MForm := ⟨0, 0, 31, .s 1, 0, off⟩
    let s := vecState
    let b := vecState { vecCore with copies := [(0, some aCopy)] }
    let ok (s : State) (off : BitVec 19) : Bool := served s (.vll plainHdr (m off)) (s.needsM (m off) [] [.v 31]) &&
      served s (.vls plainHdr (m off)) (s.needsM (m off) [.v 31] []) && served s (.tldl plainHdr 1 1 off) (needs [.s 1] [.t 1]) &&
      served s (.tstl plainHdr 1 1 off) (needs [.s 1, .t 1] [])
    let edge : BitVec 19 := 63360
    (([0, 4, edge, edge + 8].all fun o => ok s o) && ok b 0) = true ∧
    (s.addrOf (m 0) = 0x800 ∧ s.addrOf (m 4) % 8 ≠ 0 ∧ s.addrOf (m edge) + 128 = 65536 ∧ 65536 < s.addrOf (m (edge + 8)) + 128) ∧
    (s.me.lmBlocked 0x800 128 true = false ∧ b.me.lmBlocked 0x800 128 true = true ∧ b.me.lmBlocked 0x800 128 false = true) ∧
    (tcFoot (s.me.shape 1) ≤ 4096 ∧ 0x800 + tcFoot (s.me.shape 1) ≤ 65536 ∧ 0 < tcFoot (s.me.shape 1)) ∧
    (served s (.tcfg plainHdr 7 3) (needs [.s 3] []) = true ∧ served s (.tcfg plainHdr 7 14) (needs [.s 14] []) = true ∧
      tcOk (BitVec.ofNat 64 (s.me.reg (.s 3))) = true ∧ tcOk (BitVec.ofNat 64 (s.me.reg (.s 14))) = false) ∧
    (served s (.tstat plainHdr 1 2) (needs [] [.s 2]) = true ∧ s.tileHeld 0 1 false = false ∧
      s.issues (.tclr plainHdr 1 15) ∧ s.readBlocked (.t 1) = false) := by decide +kernel

/-- Gang 0 with eight X-streams of one GANG launch; tiles 0 to 6 are BF16 and tile 7 FP32, each 64 rows of 8; `k` of slots 1 to 7
have arrived with the instruction, the first of them with another one where asked for. -/
def ganged (i : Instr) (sr : Option Nat) (k : Nat := 7) (st : Stage := .start) (cont : Cont := Cont.zero) (odd : Bool := false) : State :=
  let c : Core := { vecCore with x := { vecCore.x with stage := st }, s := [(1, 0x10000), (2, 0x100000000), (3, 0)].filter (fun e => e.2 != 0),
                                 tc := (List.range 8).map (fun t => (t, if t = 7 then 118720 else 118721)) }
  let g : Gang := { Gang.idle with station := some ⟨false, List.replicate 8 (118721, []), []⟩, cont := cont }
  let s : State := { tasked c false true with gangs := [(0, g)] }
  let s : State := { s with cores := (List.range 8).map (fun n => (n, s.me)), runs := [{ aRun with gangLv := some 0 }] }
  { s with gangs := [(0, { g with arrivals := (List.range k).map (fun n =>
      (n + 1, some (s.arrivalOf (if odd && n == 0 then .tclrBank plainHdr true 15 else i) sr))) })] }

/-- The continuity unit with a signature of block 0, and an entry pending. -/
def tested (p : List (Nat × Nat)) : Cont := { Cont.zero with geom := 0x100000000, sigv := true, pend := p, csbase := 0x1000000000000 }

/-- Every gang instruction with a form it accepts: what it reads and writes and the s register it names. -/
def gangForms : List (Instr × List Reg × List Reg × Option Nat) :=
  let j : AForm := { aOk with td := 7, mm1 := 63 }
  [(.wld plainHdr 1 0 false, [.t 1], [], none), (.gmmaF plainHdr { gOk with ta := 2, mm1 := 63 }, [.t 2], [], none),
   (.gmmaB plainHdr { gOk with ta := 2, mm1 := 63 }, [.t 2], [], none),
   (.gmmaO plainHdr { gOk with ta := 2, tb := 3, mm1 := 63 }, [.t 2, .t 3], [], none),
   (.drain plainHdr { j with td := 6, fmt := 1, sidx := 4 }, [], [.t 6], some 4), (.drainAdd plainHdr { aOk with sidx := 4 }, [], [], some 4),
   (.odrain plainHdr aOk, [], [], none), (.join plainHdr { aOk with ns := 255 }, [], [], none), (.accld plainHdr j, [.t 7], [], none),
   (.accst plainHdr j, [], [.t 7], none), (.acccp plainHdr { aOk with accr2 := 255 }, [], [], none), (.tclrBank plainHdr true 15, [], [], none),
   (.csig plainHdr 1 0, [.t 1], [], none), (.csheet plainHdr 4 0x28, [], [.s 4], none), (.ccfg plainHdr 4 2, [], [], some 4)]

/-- A first arrival, a wait, the last arrival, a trap to take; each form enters; different instructions do not. -/
theorem wit_GangArrivalResults :
    (gangForms.all fun e =>
      let n := needs (e.2.1 ++ (e.2.2.2.map Reg.s).toList) e.2.2.1
      let s := ganged e.1 e.2.2.2
      let w := ganged e.1 e.2.2.2 6 .gangArrived
      let p := ganged e.1 e.2.2.2 6
      served s e.1 n && s.belowGang 0 && (((s.gangArrive e.1 e.2.2.2).gang 0).allArrived.any fun arr =>
        arr.all fun a => gangBody a.instr == gangBody e.1 && !a.breach &&
          roleKeys (fun k => a.tcs.getD k 0) a.instr == roleKeys (fun k => (slot0 arr).tcs.getD k 0) (slot0 arr).instr) &&
      (s.gang 0).queue.isEmpty &&
      served p e.1 n && ((p.gangArrive e.1 e.2.2.2).gang 0).allArrived.isNone &&
      served w e.1 n && (w.gang 0).allArrived.isNone && w.st.stage == .gangArrived) = true := by decide +kernel

theorem wit_GangArrivalResults_stops :
    let i : Instr := .odrain plainHdr aOk
    let s := ganged i none 7 .start Cont.zero true
    let b : Instr := .accld plainHdr { aOk with td := 1 }
    let t := ganged b none
    let l : State := lone vecCore true
    let u := ganged i none 7 (.gangTrap 0x21 0 2 0)
    (served l i (needs [] []) && !l.belowGang 0) = true ∧ (served u i (needs [] []) && u.st.stage == .gangTrap 0x21 0 2 0) = true ∧
    (served s i (needs [] []) && ((s.gangArrive i none).gang 0).allArrived.any fun arr =>
      arr.any fun a => gangBody a.instr != gangBody (slot0 arr).instr) = true ∧
    (served t b (needs [.t 1] []) && ((t.gangArrive b none).gang 0).allArrived.any fun arr => arr.all fun a => a.breach) = true ∧
    (served l (.tstatBank plainHdr true 4) (needs [] [.s 4]) && served s (.tstatBank plainHdr true 4) (needs [] [.s 4]) &&
      s.belowGang 0 && (s.queued 0).isEmpty) = true := by decide +kernel

/-- The checks of the continuity instructions: one that translates nothing, and one that fails. -/
theorem wit_contCheck :
    let i : Instr := .csheet plainHdr 4 0x28
    let s := ganged i none
    let b : Instr := .csig plainHdr 1 1
    let t := ganged b none
    (((s.gangArrive i none).gang 0).allArrived.any fun arr => ((s.gangArrive i none).contCheck 0 arr i).1 == .ok []) = true ∧
    (((t.gangArrive b none).gang 0).allArrived.any fun arr => ((t.gangArrive b none).contCheck 0 arr b).1 == .fail 0x24 0 0) = true := by
  decide +kernel

/-- CTEST and CSTORE with every tile mapped in page 0. -/
theorem wit_contCheck_pages :
    let i : Instr := .ctest plainHdr 4 1 0
    let c : Instr := .cstore plainHdr 1 4 0
    let k (p : List (Nat × Nat)) : Cont := { tested p with csbase := 0x100000, cstbase := 0x200000 }
    let s := ganged i (some 4) 7 .start (k [])
    let t := ganged c (some 4) 7 .start (k [(0, 0)])
    (served s i (needs [.s 4] [.px 1]) && served t c (needs [.t 1, .s 4] []) && s.belowGang 0 && t.belowGang 0 && (s.gang 0).queue.isEmpty &&
      (t.gang 0).queue.isEmpty) = true ∧
    (∃ arr ps v, ((s.gangArrive i (some 4)).gang 0).allArrived = some arr ∧
      (arr.all fun a => gangBody a.instr == gangBody i && !a.breach && roleKeys (fun k => a.tcs.getD k 0) a.instr ==
        roleKeys (fun k => (slot0 arr).tcs.getD k 0) (slot0 arr).instr) = true ∧
      (s.gangArrive i (some 4)).contCheck 0 arr i = (.ok ps, v)) ∧
    ∃ arr ps v, ((t.gangArrive c (some 4)).gang 0).allArrived = some arr ∧
      (arr.all fun a => gangBody a.instr == gangBody c && !a.breach && roleKeys (fun k => a.tcs.getD k 0) a.instr ==
        roleKeys (fun k => (slot0 arr).tcs.getD k 0) (slot0 arr).instr) = true ∧
      (t.gangArrive c (some 4)).contCheck 0 arr c = (.ok ps, v) := by
  intro i c k s t
  refine ⟨by decide +kernel, ?_, ?_⟩
  · obtain ⟨arr, h, h1, h2, h3⟩ : ∃ arr, ((s.gangArrive i (some 4)).gang 0).allArrived = some arr ∧
        (arr.all fun a => gangBody a.instr == gangBody i && !a.breach && roleKeys (fun k => a.tcs.getD k 0) a.instr ==
          roleKeys (fun k => (slot0 arr).tcs.getD k 0) (slot0 arr).instr) = true ∧
        ((s.gangArrive i (some 4)).gang 0).cont.holds arr i = true ∧
        (((s.gangArrive i (some 4)).gang 0).cont.addresses arr i).all (fun e => decide (e.1 < 2 ^ 30)) = true :=
      ⟨(((s.gangArrive i (some 4)).gang 0).allArrived).getD [], by decide +kernel, by decide +kernel, by decide +kernel, by decide +kernel⟩
    obtain ⟨ps, v, e⟩ := steady_cont (s.gangArrive i (some 4)) 0 ((s.gangArrive i (some 4)).takeRun 0).isSome
      (((s.gangArrive i (some 4)).gang 0).cont.addresses arr i) (by decide +kernel) (by decide +kernel)
      (fun e m => of_decide_eq_true (List.all_eq_true.1 h3 e m)) [] _ (steady_self _ (by decide +kernel) (by decide +kernel))
    exact ⟨arr, ps, v, h, h1, by rw [State.contCheck, h2]; exact e⟩
  · obtain ⟨arr, h, h1, h2, h3⟩ : ∃ arr, ((t.gangArrive c (some 4)).gang 0).allArrived = some arr ∧
        (arr.all fun a => gangBody a.instr == gangBody c && !a.breach && roleKeys (fun k => a.tcs.getD k 0) a.instr ==
          roleKeys (fun k => (slot0 arr).tcs.getD k 0) (slot0 arr).instr) = true ∧
        ((t.gangArrive c (some 4)).gang 0).cont.holds arr c = true ∧
        (((t.gangArrive c (some 4)).gang 0).cont.addresses arr c).all (fun e => decide (e.1 < 2 ^ 30)) = true :=
      ⟨(((t.gangArrive c (some 4)).gang 0).allArrived).getD [], by decide +kernel, by decide +kernel, by decide +kernel, by decide +kernel⟩
    obtain ⟨ps, v, e⟩ := steady_cont (t.gangArrive c (some 4)) 0 ((t.gangArrive c (some 4)).takeRun 0).isSome
      (((t.gangArrive c (some 4)).gang 0).cont.addresses arr c) (by decide +kernel) (by decide +kernel)
      (fun e m => of_decide_eq_true (List.all_eq_true.1 h3 e m)) [] _ (steady_self _ (by decide +kernel) (by decide +kernel))
    exact ⟨arr, ps, v, h, h1, by rw [State.contCheck, h2]; exact e⟩

/-- Gang 0 with an instruction at the head of its queue, whose eight arrivals are those of `ganged`. -/
def engaged (i : Instr) (sent : Option Nat := none) (cyc : Nat := 100) (j : Option OpenJoin := none)
    (pages : List (Nat × TlbEntry) := []) (outs : List (Reg × Option Nat) := []) : State :=
  let s := ganged i none 8
  let o : GangOp := { id := 5, instr := i, arr := List.replicate 8 (s.arrivalOf i none), sent := sent, pages := pages, vec := [],
                       run := some 1, ctx := ⟨true, 0, 0, 0, 0, 0⟩ }
  { s with cores := (List.range 8).map (fun n => (n, { s.me with cyc := cyc, pends := [⟨5, true, outs, []⟩] })),
           gangs := [(0, { s.gang 0 with arrivals := [], queue := [o], join := j })] }

/-- A join of two contributions to row 0, one of them held where asked for. -/
def joining (h : Bool := false) : OpenJoin :=
  { opId := 5, form := { aOk with ns := 2 }, held := if h then [(0, some [0x3F800000])] else [], opened := 100, run := some 1 }

/-- Each instruction of the matrix queue at its head, with tiles as the rules of the drains ask for. -/
theorem wit_GangEngineResults :
    let j : AForm := { aOk with td := 7, mm1 := 63 }
    (([.wld plainHdr 1 0 false, .gmmaF plainHdr { gOk with ta := 2, mm1 := 63 }, .drain plainHdr { j with td := 6, fmt := 1, clr := true },
       .gmmaB plainHdr { gOk with ta := 2, mm1 := 63 }, .gmmaO plainHdr { gOk with ta := 2, tb := 3, mm1 := 63 },
       .accst plainHdr j, .accld plainHdr j, .acccp plainHdr { aOk with accr2 := 128 }, .odrain plainHdr aOk,
       .odrain plainHdr { aOk with add := true }, .tclrBank plainHdr true 9, .csig plainHdr 1 0,
       .csheet plainHdr 4 0x28, .ccfg plainHdr 4 2, .join plainHdr { aOk with ns := 2 }, .drainAdd plainHdr aOk] : List Instr).all fun i =>
      let s := engaged i
      (s.gang 0).queue.any (fun o => o.instr == i && o.arr.length == 8 && o.sent.isNone &&
        o.arr.all (fun a => tcOk (a.tcs.getD 7 0) && tcCols (a.tcs.getD 7 0) == 8 && decide (64 ≤ tcRows (a.tcs.getD 7 0)) &&
          tcFmt (a.tcs.getD 7 0) == 0 && tcOk (a.tcs.getD 6 0) && tcCols (a.tcs.getD 6 0) == 8 &&
          decide (64 ≤ tcRows (a.tcs.getD 6 0)) && tcFmt (a.tcs.getD 6 0) == 1)) &&
      (s.gang 0).queue.length == 1 && (s.gang 0).arrivals.isEmpty && (s.gang 0).join.isNone &&
      (s.gang 0).station.any (fun st => !st.sparse && fmtClass (tcFmt (bandAt (storedBands st.bands) 0).1) == some 1)) = true ∧
    isMxFmt 0 = false ∧ isMxFmt 1 = false ∧ isMxFmt 8 = true ∧
    (let s := engaged (.csheet plainHdr 4 0x28) none 100 none [] [(.s 4, none)]
     (List.range 8).all fun k => (s.core k).pends == [⟨5, true, [(.s 4, none)], []⟩]) = true := by decide +kernel

/-- Products of each class, with a dense stationary operand and a sparse one; the moving and the masking tiles are those of the arrivals. -/
theorem wit_GangEngineResults_products :
    ([(118721, 1), (118728, 0), (118731, 0), (118732, 2)].all fun e => [true, false].all fun sp =>
      [Instr.gmmaF plainHdr gOk, .gmmaB plainHdr gOk, .gmmaO plainHdr { gOk with ta := 2, tb := 3 }].all fun i =>
        let s := engaged i
        let st : Station := ⟨sp, List.replicate 8 (BitVec.ofNat 64 e.1, []), List.replicate 8 (118721, [])⟩
        let t : State := { s with gangs := [(0, { s.gang 0 with station := some st, queue := (s.gang 0).queue.map (fun o =>
          { o with arr := o.arr.map (fun a => { a with tcs := List.replicate 8 (BitVec.ofNat 64 e.1) }) }) })] }
        (t.gang 0).station == some st && fmtClass (tcFmt (bandAt (storedBands st.bands) 0).1) == some e.2 &&
        (t.gang 0).queue.any (fun o => o.instr == i && fmtClass (tcFmt (bandAt (t.bandsOf 0 o.arr 2) 0).1) == some e.2)) = true := by
  decide +kernel

/-- CTEST and CSTORE at the head of the queue, their pages reached: an entry and a sheet byte in pages that are dirty or not, eight tiles. -/
theorem wit_GangEngineResults_pages :
    let p (d : Bool) : TlbEntry := { pageZero 0 with dirty := d }
    let s (d : Bool) := engaged (.ctest plainHdr 4 1 0) none 100 none [(0x40000000, p d), (0x40000200, p d)] [(.px 1, none)]
    let q := (List.range 8).map fun k => (0x40000000 + 4096 * k, pageZero 0)
    let t := engaged (.cstore plainHdr 1 4 0) none 100 none q
    (([true, false].all fun d => ((s d).gang 0).queue.any (fun o => o.instr == .ctest plainHdr 4 1 0 &&
        o.pages == [(0x40000000, p d), (0x40000200, p d)] && (s d).contReady 0 o.vec o.pages && (s d).allCleared 0 o.id && o.id == 5 &&
        o.pages.all fun q => decide (0x40000000 + 128 ≤ q.2.at0 ∨ q.2.at0 + 8 * q.2.n ≤ 0x40000000) &&
          decide (0x40000200 + 1 ≤ q.2.at0 ∨ q.2.at0 + 8 * q.2.n ≤ 0x40000200)) &&
        !(s d).badIn 0x40000000 128 && !(s d).badIn 0x40000200 1 &&
        (List.range 8).all fun k => ((s d).core k).pends == [⟨5, true, [(.px 1, none)], []⟩]) &&
      (t.gang 0).queue.any (fun o => o.instr == .cstore plainHdr 1 4 0 && o.arr.length == 8 && o.pages == q && q.length == 8 &&
        t.contReady 0 o.vec q && (List.range 8).all fun k =>
          tcFoot (((o.arr[k]?).map (fun a => a.tcs.getD 1 0)).getD 0) == 1024 && !t.badIn (0x40000000 + 4096 * k) 1024)) = true := by
  decide +kernel

/-- A second and a first contribution to an open join, its timeout, that of a contribution, and that of the wired barrier. -/
theorem wit_GangEngineResults_join :
    let c : Contribution := { src := 1, opId := 9, dst := 0, slot := 1, mm1 := 0, rows := [], run := 1, ctx := ⟨true, 0, 0, 0, 0, 0⟩ }
    let s := engaged (.join plainHdr { aOk with ns := 2 }) none 100 (some (joining true))
    let u := engaged (.join plainHdr { aOk with ns := 2 }) none 100 (some joining)
    let l := engaged (.join plainHdr { aOk with ns := 2 }) none (100 + 2 ^ 24) (some joining)
    let d := engaged (.drainAdd plainHdr aOk) (some 100) (100 + 2 ^ 24)
    let b := ganged (.odrain plainHdr aOk) none 7 .gangArrived
    let w : State := { b with cores := (List.range 8).map (fun n => (n, { b.me with cyc := 100 + 2 ^ 20 })) }
    (c.dst == 0 && !s.noTarget c && (joining true).run == some c.run && decide (c.slot < (joining true).form.ns.toNat) &&
      c.mm1 == (joining true).form.mm1.toNat && (tget none c.slot (joining true).held).isNone &&
      (tput none c.slot (some c.rows) (joining true).held).length == (joining true).form.ns.toNat &&
      !u.noTarget c && (tput none c.slot (some c.rows) joining.held).length != joining.form.ns.toNat &&
      !l.joinPaused 0 && decide (joining.opened + 2 ^ 24 ≤ (l.core 0).cyc) &&
      !d.drainPaused 0 && decide (100 + 2 ^ 24 ≤ (d.core 0).cyc) &&
      (w.core 1).x.stage == .gangArrived && (w.core 1).runnable true && !w.gangPaused 0 &&
      (tget none 1 (w.gang 0).arrivals).any (fun a => decide (a.since + 2 ^ 20 ≤ (w.core 1).cyc))) = true := by decide +kernel

/-- A storyboard of one launch at 0x1000, its slate at 0x3000 with one level of eight cores, its job card at 0x4000 and its constant
image at 0x5000, all in page 0. -/
def storied (c : Core := busyCore) : State :=
  let words : List (Nat × Nat) :=
    [(0x1000, 0x0000000000010001), (0x1008, 0x2000), (0x1010, 0x3000), (0x3000, 0x0000000100010001), (0x3010, 0x4000), (0x3018, 0x5000),
     (0x3080 + 8, 0x4300000008)]
  words.foldl (fun s w => s.memPut (0x40000000 + w.1) (leBytes w.2 8)) (tasked { c with g := [(1, 0x1000)] })

/-- The queue of its class is full. -/
def crowded : State := { storied with stories := List.replicate 64 aStory }

/-- Everything of a submission that takes the storyboard, from a state whose stores hold page 0 only. -/
theorem steady_submit (s : State) (w : Nat) (h : tabled s (s.unitAsker 0) = true)
    (h' : tabled ({ s with submits := tput 0 0x1000 (tget 0 0x1000 s.submits + 1) s.submits }).fresh.2 (s.unitAsker 0) = true)
    (hb : s.bad = []) (hp : s.peerid = 0) (k : Steady s s)
    (hc : s.covers (homeOf (0x40000000 + 0x1000)) (s.vecOf Config.hubDie) = true)
    (hd : s.covers (homeOf (0x40000000 + 0x1010)) (s.vecOf Config.hubDie) = true)
    (h1 : zeroBytes s 0x1000 16 = leBytes 0x10001 8 ++ leBytes 0x2000 8) (h2 : zeroBytes s 0x1010 8 = leBytes 0x3000 8)
    (hq : s.queuedIn w < 64) :
    ∃ u pg v x, s.span 0 0x1000 16 = (.bytes (leBytes 0x10001 8 ++ leBytes 0x2000 8), u) ∧ u.queuedIn w < 64 ∧
      reachEngine (s.unitAsker 0) 0x2000 false true (u.translate (s.unitAsker 0) 0x2000) = (.page pg, v) ∧
      leafRop pg.leaf = false ∧ paPeer (pg.addr 0x2000) = v.peerid ∧
      ((({ v with submits := tput 0 0x1000 (tget 0 0x1000 s.submits + 1) v.submits }).markDirty pg).fresh.2).span 0 0x1010 8 =
        (.bytes (leBytes 0x3000 8), x) := by
  obtain ⟨u, e1, k1⟩ := steady_span s s (s.unitAsker 0) 0x1000 16 0 h hb hp hc (by decide) (by decide) (by decide) k
  obtain ⟨p, v, -, e2, k2⟩ := steady_reach s u (s.unitAsker 0) 0x2000 false true h (by decide) k1
  have hu : u.queuedIn w = s.queuedIn w := by obtain ⟨d, tlb, walks, rfl, -, -⟩ := k1; rfl
  obtain ⟨d, tlb, walks, rfl, ht, hw⟩ := k2
  obtain ⟨x, e3, -⟩ := steady_span _ (withStores (({ s with submits := tput 0 0x1000 (tget 0 0x1000 s.submits + 1) s.submits }).fresh.2) d tlb walks)
    (s.unitAsker 0) 0x1010 8 0 h' hb hp hd (by decide) (by decide) (by decide) ⟨d, tlb, walks, rfl, ht, hw⟩
  refine ⟨u, pageZero p, _, x, ?_, by omega, e2, (by decide : leafRop 0x4000007F = false), ?_, ?_⟩
  · rw [← h1]; exact e1
  · show _ = s.peerid
    rw [hp]
    exact (by decide : paPeer ((pageZero 0).addr 0x2000) = 0)
  · rw [← h2]; exact e3

theorem wit_LaunchUnitResults_submit :
    let s := storied
    tabled s (s.unitAsker 0) = true ∧
    (∃ u pg v x, s.span 0 0x1000 16 = (.bytes (leBytes 0x10001 8 ++ leBytes 0x2000 8), u) ∧ u.queuedIn 0 < 64 ∧
      reachEngine (s.unitAsker 0) 0x2000 false true (u.translate (s.unitAsker 0) 0x2000) = (.page pg, v) ∧
      leafRop pg.leaf = false ∧ paPeer (pg.addr 0x2000) = v.peerid ∧
      ((({ v with submits := tput 0 0x1000 (tget 0 0x1000 s.submits + 1) v.submits }).markDirty pg).fresh.2).span 0 0x1010 8 =
        (.bytes (leBytes 0x3000 8), x)) ∧
    fieldOf (leBytes 0x10001 8 ++ leBytes 0x2000 8) 8 8 = 0x2000 ∧ fieldOf (leBytes 0x10001 8 ++ leBytes 0x2000 8) 0 2 = 1 ∧
    fieldOf (leBytes 0x10001 8 ++ leBytes 0x2000 8) 2 2 = 1 ∧ fieldOf (leBytes 0x10001 8 ++ leBytes 0x2000 8) 4 2 = 0 ∧
    graphOk 1 [] = true :=
  ⟨by decide +kernel, steady_submit storied 0 (by decide +kernel) (by decide +kernel) (by decide +kernel) (by decide +kernel)
    (steady_self _ (by decide +kernel) (by decide +kernel)) (by decide +kernel) (by decide +kernel) (by decide +kernel)
    (by decide +kernel) (by decide +kernel), by decide, by decide, by decide, by decide, by decide⟩

/-- That submission is taken. -/
theorem steady_submitted (s : State)
    (hs : tabled s (s.unitAsker 0) = true ∧
      tabled ({ s with submits := tput 0 0x1000 (tget 0 0x1000 s.submits + 1) s.submits }).fresh.2 (s.unitAsker 0) = true ∧
      s.bad = [] ∧ s.peerid = 0 ∧ (∀ t ∈ s.tlb, t.vbase < 2 ^ 30 → t = pageZero t.place) ∧ (∀ w ∈ s.walks, walkZero w = true) ∧
      s.covers (homeOf (0x40000000 + 0x1000)) (s.vecOf Config.hubDie) = true ∧
      s.covers (homeOf (0x40000000 + 0x1010)) (s.vecOf Config.hubDie) = true ∧
      zeroBytes s 0x1000 16 = leBytes 0x10001 8 ++ leBytes 0x2000 8 ∧ zeroBytes s 0x1010 8 = leBytes 0x3000 8 ∧ s.queuedIn 0 < 64) :
    ∃ t, s.submit 0x1000 0 1 0 0 = some t := by
  obtain ⟨h, h', hb, hp, ht, hw, hc, hd, h1, h2, hq⟩ := hs
  obtain ⟨u, p, v, x, e1, e2, e3, e4, e5, e6⟩ := steady_submit s 0 h h' hb hp ⟨s.drawn, s.tlb, s.walks, rfl, ht, hw⟩ hc hd h1 h2 hq
  have f0 : fieldOf (leBytes 0x10001 8 ++ leBytes 0x2000 8) 8 8 = 0x2000 := by decide
  have f1 : fieldOf (leBytes 0x10001 8 ++ leBytes 0x2000 8) 0 2 = 1 := by decide
  have f2 : fieldOf (leBytes 0x10001 8 ++ leBytes 0x2000 8) 2 2 = 1 := by decide
  have f3 : fieldOf (leBytes 0x10001 8 ++ leBytes 0x2000 8) 4 2 = 0 := by decide
  have f4 : fieldOf (leBytes 0x10001 8 ++ leBytes 0x2000 8) 6 1 = 0 := by decide
  have f5 : fieldOf (leBytes 0x10001 8 ++ leBytes 0x2000 8) 7 1 = 0 := by decide
  have g : graphOk 1 [] = true := by decide
  unfold State.submit
  simp only [e1, f0, f1, f2, f3, f4, f5, show max (0 % 4) 0 = 0 from rfl, if_neg (Nat.not_le.2 e2), e3, e4, e5]
  simp [e6, g, fld, upFrom]

/-- The state in which LAUNCH of that storyboard submits it. -/
def launching : State :=
  let v := storied.afterRelease 5
  let w := (reach (v.asker v.cur.core) 0x1000 true false (v.translateFor v.cur.core 0x1000)).2
  w.mergeVec Config.hubDie (w.vecOf (dieOf 0))

/-- LAUNCH of that storyboard: the release is done, the address reached, and the submission takes it. -/
theorem wit_LaunchUnitResults_launch :
    let s := storied
    let i : Instr := .launch plainHdr (.g 1)
    let v := storied.afterRelease 5
    let w := (reach (v.asker v.cur.core) 0x1000 true false (v.translateFor v.cur.core 0x1000)).2
    (served s i (srcNeeds s.cur.x (.g 1)) && (s.take (.g 1)).1.toNat == 0x1000) = true ∧ s.releases 5 ∧
    (∃ pg, v.reaches 0x1000 true false pg w ∧
      w.takeWait 0 (paPeer (pg.addr 0x1000) == w.peerid) (leafPub pg.leaf) = false) ∧ w.runOf 0 = some aRun ∧
    ∃ t, launching.submit 0x1000 0 1 0 0 = some t :=
  ⟨by decide +kernel, by decide +kernel, ⟨pageZero 0, reaches_by _ _ _ _ _ (by decide +kernel), by decide +kernel⟩, by decide +kernel,
    steady_submitted launching (by decide +kernel)⟩

/-- LAUNCH in a take launch, the cut before its take not applied. -/
theorem wit_LaunchUnitResults_early :
    let s : State := { onPage 0 busyCore true with cuts := [⟨0, 1, 0, .arrived, [], 0, 0, 0, none, []⟩] }
    served s (.launch plainHdr (.g 1)) (srcNeeds false (.g 1)) = true ∧ (s.take (.g 1)).1.toNat = 0x40 ∧ s.releases 5 ∧
    ∃ pg w, (s.afterRelease 5).reaches 0x40 true false pg w ∧
      ((w.runOf 0).isSome && w.takeWait 0 (paPeer (pg.addr 0x40) == w.peerid) (leafPub pg.leaf)) = true :=
  ⟨by decide +kernel, by decide +kernel, by decide +kernel, reaches_of _ _ _ _ (fun pg w => (w.runOf 0).isSome &&
    w.takeWait 0 (paPeer (pg.addr 0x40) == w.peerid) (leafPub pg.leaf)) (by decide +kernel)⟩

/-- A level of eight cores of one gang, a launch of it with one group undealt, and a state of one die that runs the class. -/
def coreLevel : TreeLevel :=
  { name := 0, extent := 8, width := 8, bind := 1, co := true, ord := false, lane := false, bar := true, gang := false, take := false, esz := 0 }
def undealt : Run := { aRun with levels := [coreLevel], dealt := 0, image := List.replicate 240 0 }
def binding (r : Run) : State := { State.reset with runs := [r], stories := [aStory], partLog := 0, lctl := 0x1F, ctx := 1 }

/-- Its storyboard with the launch waiting. -/
def waiting : Story := { aStory with slates := [0x3000], launches := [.waiting] }

/-- The slate of that storyboard passes. -/
theorem steady_slate (s : State) (y : Story) (h : tabled s (s.unitAsker 0) = true) (hb : s.bad = []) (hp : s.peerid = 0)
    (k : Steady s s) (hy : (y.slates.getD 0 0).toNat = 0x3000) (hs : y.space = 0)
    (hc : ∀ a ∈ [0x3000, 0x4000, 0x5000], s.covers (homeOf (0x40000000 + a)) (s.vecOf Config.hubDie) = true)
    (b1 : (let b := zeroBytes s 0x3000 384
      let es := (upFrom 0 16).map (fun k => fieldOf b (0x80 + 16 * k) 16)
      let ls := (es.take 1).map levelOf
      fieldOf b 0 2 == 1 && fieldOf b 2 1 == 1 && fld (fieldOf b 3 1) 2 6 == 0 && fieldOf b 4 2 == 1 && fieldOf b 6 2 == 0 &&
        fieldOf b 0xC 4 == 0 && fieldOf b 0x28 4 == 0 && fieldOf b 0x2C 84 == 0 && fieldOf b 0x10 8 == 0x4000 &&
        fieldOf b 0x18 8 == 0x5000 && fieldOf b 0x20 8 == 0 && !(es.drop 1).any (· != 0) && (levelFault ls es 0 0 1).isNone &&
        (s.capacityFault ls y.d).isNone && (levelsWhere ls TreeLevel.take).isEmpty) = true)
    (b2 : zeroBytes s 0x4000 16 = leBytes 0 16) :
    ∃ r u, checkSlate y 0 s = (.pass r, u) := by
  obtain ⟨u1, e1, k1⟩ := steady_span s s (s.unitAsker 0) 0x3000 384 0 h hb hp (hc _ (by decide)) (by decide) (by decide) (by decide) k
  obtain ⟨u2, e2, k2⟩ := steady_span s u1 (s.unitAsker 0) 0x4000 16 0 h hb hp (hc _ (by decide)) (by decide) (by decide) (by decide) k1
  obtain ⟨u3, e3, -⟩ := steady_span s u2 (s.unitAsker 0) 0x5000 2048 0 h hb hp (hc _ (by decide)) (by decide) (by decide) (by decide) k2
  simp only [Bool.and_eq_true, beq_iff_eq, Option.isNone_iff_eq_none, List.isEmpty_iff, Bool.not_eq_true'] at b1
  obtain ⟨⟨⟨⟨⟨⟨⟨⟨⟨⟨⟨⟨⟨⟨c1, c2⟩, c3⟩, c4⟩, c5⟩, c6⟩, c7⟩, c8⟩, c9⟩, c10⟩, c11⟩, c12⟩, c13⟩, c14⟩, c15⟩ := b1
  have q1 : u1.unitAsker 0 = s.unitAsker 0 := by obtain ⟨d, tlb, walks, rfl, -, -⟩ := k1; rfl
  have q2 : u2.unitAsker 0 = s.unitAsker 0 := by obtain ⟨d, tlb, walks, rfl, -, -⟩ := k2; rfl
  have q3 : ∀ ls d, u1.capacityFault ls d = s.capacityFault ls d := by obtain ⟨d, tlb, walks, rfl, -, -⟩ := k1; intro ls d; rfl
  have g1 : s.span 0 0x3000 384 = (.bytes (zeroBytes s 0x3000 384), u1) := e1
  have g2 : u1.span 0 0x4000 16 = (.bytes (leBytes 0 16), u2) := by rw [State.span, q1, ← b2]; exact e2
  have g3 : u2.span 0 0x4010 0 = (.bytes [], u2) := rfl
  have g4 : u2.span 0 0x5000 2048 = (.bytes (zeroBytes s 0x5000 2048), u3) := by rw [State.span, q2]; exact e3
  have f1 : fieldOf (leBytes 0 16) 2 1 = 0 := by decide
  have f2 : fieldOf (leBytes 0 16) 0 2 = 0 := by decide
  have f3 : fieldOf (leBytes 0 16) 3 13 = 0 := by decide
  unfold checkSlate
  simp only [hs, hy, g1, c1, c2, c3, c4, c5, c6, c7, c8, c9, c10, c11, c12, c13, c14, c15, q3]
  simp [checkRecords, checkSheet, g2, g3, g4, f1, f2, f3, Config.svSlot, fld]

theorem wit_LaunchUnitResults_check :
    let s : State := { storied with stories := [waiting] }
    let f : Story := { waiting with slates := [0x2000000000000] }
    let z : Story := { waiting with slates := [0x9000] }
    (∃ r u, checkSlate waiting 0 s = (.pass r, u)) ∧ s.story? waiting.id = some waiting ∧ s.acceptable waiting 0 = true ∧ s.unitBusy = false ∧
    ({ binding undealt with stories := [waiting] } : State).unitBusy = true ∧
    ({ s with stories := [aStory] }).story? 1 = some aStory ∧ ({ s with stories := [aStory] }).acceptable aStory 0 = false ∧
    (s.span 0 0x2000000000000 384).1 = .fault ∧ (checkSlate f 0 s).1 = .fault 0x0E 0 ∧ (checkSlate z 0 s).1 = .fault 0x01 0 ∧
    (checkSlate z 0 s).2.story? 1 = some waiting ∧
    crowded.submit 0x1000 0 1 0 0 = none := by
  refine ⟨?_, ?_⟩
  · apply steady_slate { storied with stories := [waiting] } waiting
    case k => exact steady_self _ (by decide +kernel) (by decide +kernel)
    all_goals decide +kernel
  · decide +kernel

/-- A storyboard and a launch of two devices, this one device 0, whose peers are in cut group 0. -/
def paired (agreed : List Agree) (st : LaunchState := .accepted 1) : State :=
  { State.reset with stories := [{ aStory with d := 2, launches := [st] }], runs := [{ aRun with d := 2 }], agreed := agreed }

/-- What a device of that domain says of the launch. -/
def said (dev code : Nat) (check : Word := 0) : Agree :=
  { sb := 0x40, nth := 0, idx := 0, dev := dev, code := code, level := 0, slate := 0, check := check }

/-- Reports that are few, agree, differ, fault and end; FAULT, GO and aborts; shares that run, have ended, and end a larger domain. -/
theorem wit_LaunchUnitResults_agreement :
    let same (m a : Agree) : Bool := a.sb == m.sb && a.nth == m.nth && a.idx == m.idx && (a.code == endedCode) == (m.code == endedCode)
    let reps (s : State) (m : Agree) : List Agree := (s.agreed.filter (fun a => !(same m a && a.dev == m.dev)) ++ [m]).filter (same m)
    let y : Story := { aStory with d := 2 }
    let m : AbortMsg := { sb := 0x40, nth := 0, idx := 0 }
    let e : State := { State.reset with stories := [aStory], runs := [{ aRun with started := 1 }] }
    let d : State := { paired [] with runs := [{ aRun with d := 2, started := 1 }] }
    (paired []).storyOf 0x40 0 = some y ∧ (reps (paired []) (said 1 0)).length = 1 ∧
    (reps (paired [said 0 0]) (said 1 0)).length = 2 ∧ verdictOf (reps (paired [said 0 0]) (said 1 0)) = none ∧
    verdictOf (reps (paired [said 0 0]) (said 1 5)) = some (said 1 5) ∧ (verdictOf (reps (paired [said 0 0]) (said 1 0 7))).isSome = true ∧
    (reps (paired [said 0 endedCode]) (said 1 endedCode)).length = 2 ∧ endedCode < lostCode ∧
    ((paired [] .waiting).story? 1).any (fun y => y.launches.length == 1 && !(y.launches.getD 0 .skipped).final) = true ∧
    (paired []).runOfMsg m.sb m.nth m.idx = some { aRun with d := 2 } ∧ (paired []).runNamed m = some { aRun with d := 2 } ∧
    (tasked.stories.all fun y => y.va == 0x40 && !y.finished && tasked.story? y.id == some y && tasked.storyOf y.va y.nth == some y) = true ∧
    tasked.run? 1 = some aRun ∧ tasked.story? aRun.sb = some aStory ∧ tasked.shareEnded aRun = false ∧
    e.run? 1 = some { aRun with started := 1 } ∧ e.story? 1 = some aStory ∧ e.shareEnded { aRun with started := 1 } = true ∧
    d.run? 1 = some { aRun with d := 2, started := 1 } ∧ d.story? 1 = some y ∧ d.shareEnded { aRun with d := 2, started := 1 } = true := by
  decide +kernel

theorem wit_LaunchUnitResults_levels :
    let l : TreeLevel := { name := 0, extent := 1, width := 0, bind := 0, co := false, ord := false, lane := false, bar := false,
                           gang := false, take := false, esz := 0 }
    (([{ l with extent := 0 }] : List TreeLevel)[0]?.any fun l => l.extent == 0) = true ∧
    (([{ l with extent := 3, width := 1 }] : List TreeLevel)[0]?.any fun l => decide (2 ^ l.width < l.extent)) = true ∧
    (([{ l with width := 33 }] : List TreeLevel)[0]?.any fun l => decide (32 < l.width)) = true ∧
    (([{ l with width := 1 }] : List TreeLevel)[0]?.any fun l => decide (64 < 64 + l.width)) = true ∧
    (([{ l with bind := 9 }] : List TreeLevel)[0]?.any fun l => decide (0 < l.extent ∧ 8 < l.bind)) = true := by decide

/-- LPORT with a bad domain, before bring-up ends and with a good one. -/
theorem wit_LaunchUnitResults_lport :
    let s : State := { storied with isReady := true, lpdom := 1 }
    storied.isReady = false ∧ s.isReady = true ∧ fld s.lpdom.toNat 0 13 = 1 ∧ fld s.lpdom.toNat 16 13 = 0 := by decide +kernel

/-- WLOC of a task in the same group, one outside, and a misaligned LAUNCH. -/
theorem wit_LaunchUnitResults_wloc :
    let lv : TreeLevel := { name := 0, extent := 8, width := 8, bind := 1, co := true, ord := false, lane := false, bar := true,
                            gang := false, take := false, esz := 0 }
    let r : Run := { aRun with levels := [lv], places := [{ cores := [0, 1, 2, 3, 4, 5, 6, 7], current := 0, last := 0, started := true, live := [] }] }
    let st (w : Nat) : State := { tasked { busyCore with g := [(1, BitVec.ofNat 64 w)] } with runs := [r] }
    let i : Instr := .wloc plainHdr (.g 2) (.g 1) 0
    ([3, 8].all fun w => served (st w) i ((dstNeeds false (.g 2)).and (srcNeeds false (.g 1))) && (st w).runOf 0 == some r &&
      ((st w).take (.g 1)).1.toNat == w) = true ∧
    r.placeOf aTask 3 = some 3 ∧ (3 < 2 ^ loOf r.levels r.levels.length ∧ coordOf r.levels 3 0 < extOf r.levels 0 ∧
      deviceIndex r.levels 3 % r.d = r.dIdx ∧ ¬(coordOf r.levels 8 0 < extOf r.levels 0)) ∧
    served (onPage 0 busyCore false 0x41) (.launch plainHdr (.g 1)) (srcNeeds false (.g 1)) = true := by decide +kernel

/-- The levels of a launch whose group fills a die. -/
def dieLevels : List TreeLevel := [coreLevel, { coreLevel with extent := 4, bind := 2 }, { coreLevel with extent := 32, bind := 3 }]

/-- A place on the first gang. -/
def gangPlace (started : Bool := false) (live : List Nat := []) : Place :=
  { cores := [0, 1, 2, 3, 4, 5, 6, 7], current := 0, last := 0, started := started, live := live }

/-- A group that may be dealt to the first gang, and one that may not. -/
theorem wit_BinderAndSaveResults_deal :
    let s := binding undealt
    let n := s.freePlaces undealt (undealt.barred s.busyCores)
    let p : List Nat := [0, 1, 2, 3, 4, 5, 6, 7]
    s.run? undealt.id = some undealt ∧ s.dealable undealt = true ∧
    (∀ n ∈ p, s.ownCore n = true ∧ isHub n = false ∧ tget false n undealt.excl = false ∧ n ∉ s.busyCores ∧ undealt.inPlace n = false ∧
      undealt.pinned n = false) ∧
    undealt.fitsOn undealt.dealt p = true ∧ 1 ≤ n ∧ s.turnOf undealt s.busyCores = true ∧ s.runs.any s.resumable = false ∧
    (binding { undealt with go := false }).dealable { undealt with go := false } = false ∧
    (undealt.levels.drop (baseOf undealt.levels)).any TreeLevel.ord = false ∧ wideGroup undealt.levels = false := by decide +kernel

/-- A group that starts, and one whose cores are still busy. -/
theorem wit_BinderAndSaveResults_start :
    let r : Run := { undealt with dealt := 1, places := [gangPlace] }
    let s := binding r
    let k : Task := aTask
    let m : StartMsg := { core := 7, run := 1, group := 0, gidx := 7, resume := false, xrun := false }
    let live (l : List Nat) : State :=
      { binding { r with places := [gangPlace true l] } with cores := [(7, { busyCore with task := some { k with gidx := 7 } })] }
    let busy : State := { binding r with cores := [(3, { busyCore with task := some k })] }
    s.run? 1 = some r ∧ r.places.find? (fun p => p.current == 0) = some gangPlace ∧ gangPlace.cores.Nodup ∧
    (localTasks r.levels r.d r.dIdx (groupNo r.levels r.d r.dIdx 0)).length = gangPlace.cores.length ∧ s.load = none ∧ r.outOfOrder 0 = false ∧ s.agenda = [] ∧
    (∀ n ∈ gangPlace.cores, (s.core n).task = none ∧ (s.gang (gangOf n)).queue = []) ∧ (busy.core 3).task.isSome = true ∧
    (let o : GangOp := ⟨5, .csig plainHdr 1 0, [], none, [], [], none, ⟨true, 0, 0, 0, 0, 0⟩⟩
     (({ s with gangs := [(0, { s.gang 0 with queue := [o] })] } : State).gang 0).queue ≠ []) ∧
    Instr.codeStore 3 0 (1, false) ∈ ({ s with agenda := [.codeStore 3 0 (1, false)] } : State).agenda ∧ r.image.length = 240 ∧
    (r.coresFor gangPlace).length = 8 ∧
    (([[], [0, 1, 2, 3, 4, 5, 6]] : List (List Nat)).all fun l =>
      ((live l).core m.core).task.any (fun k => k.run == m.run && k.group == m.group && k.gidx == m.gidx)) = true ∧
    (without 7 [] ++ [7]).length < 8 ∧ 8 ≤ (without 7 [0, 1, 2, 3, 4, 5, 6] ++ [7]).length := by decide +kernel

/-- A task that may end, and one that may not; a safe point overdue; a pre-emption; a save; a resumption. -/
theorem wit_BinderAndSaveResults_save :
    let c (k : Task) (x : Bool) : Core := { busyCore with task := some k, x := { busyCore.x with run := x } }
    let ends : State := { tasked with cores := [(0, c { aTask with ending := true } false)] }
    let late : State := { tasked with cores := [(0, c { aTask with preempt := true, watch := some 10 } true)] }
    let r : Run := { undealt with id := 2, cls := 0, levels := dieLevels }
    let v : Run := { aRun with cls := 1, places := [gangPlace true], levels := [coreLevel] }
    let b : Core := { Core.idle with task := some aTask }
    let asks : State := { binding r with runs := [r, v], cores := [(0, b)] }
    let p : Run := { v with preempted := true }
    let quiet : State := { binding p with cores := [(0, { Core.idle with task := some { aTask with safe := some (0xFF, 0, 0) } })] }
    let back : State := binding { v with saved := some (0, [(0, aTask)]) }
    tasked.mayEnd 0 = false ∧ ends.mayEnd 0 = true ∧ ends.runOf 0 = some aRun ∧ tasked.overdue 0 = false ∧ late.overdue 0 = true ∧
    (late.core 0).mayIssue false = true ∧
    r ∈ asks.runs ∧ asks.dealable r = true ∧ asks.placeable r asks.busyCores = false ∧
    asks.run? 1 = some v ∧ asks.victims r = [v] ∧ bitAt asks.lctl.toNat 4 = true ∧ asks.areasUsed < fld asks.ctx.toNat 0 3 ∧
    (∀ q ∈ asks.runs, q.preempted = false ∧ asks.resumable q = false) ∧
    quiet.run? 1 = some p ∧ quiet.freeArea = some 0 ∧ quiet.coresOf 1 = [0] ∧ quiet.quietCore 0 = true ∧ quiet.phasesOver p = true ∧
    back.run? 1 = some { v with saved := some (0, [(0, aTask)]) } ∧ back.resumable { v with saved := some (0, [(0, aTask)]) } = true ∧
    back.codeComing [0] = false ∧ (back.gang 0).queue = [] ∧
    ({ back with agenda := [.codeStore 0 0 (1, false)] } : State).codeComing [0] = true ∧
    Memory.wf quiet := by decide +kernel

/-- Idle and busy cores for a code store; a load complete, one that is not, and one that may start. -/
theorem wit_BinderAndSaveResults_code :
    let l (n : Nat) : State := { State.reset with partLog := 0, load := some ⟨0, n, [0], []⟩ }
    (State.reset.core 0).codeIdle = true ∧ (tasked.core 0).codeIdle = false ∧ (l 0).load = some ⟨0, 0, [0], []⟩ ∧
    (l 1).load = some ⟨0, 1, [0], []⟩ ∧ 0 + tget 0 5 [(5, 3)] = 3 ∧ tget 0 5 [(5, 3)] < 4 ∧
    (let v : Word := 0x2001000
     bitAt v.toNat 25 = true ∧ fld v.toNat 12 13 = 1 ∧ fld v.toNat 0 12 = 0 ∧ State.reset.load = none ∧ State.reset.anyTask = false ∧
     tasked.anyTask = true ∧ ∀ i, i < 12 → State.reset.assigned (State.reset.cldsrc.toNat + i) = true) := by decide +kernel

/-- Core 0 halted for the debugger, its register g3, v5, p2, P2 or s1 selected. -/
def debugged (sel : Word) : State :=
  { lone { busyCore with a := { busyCore.a with halted := true }, x := { busyCore.x with halted := true } } with dbgrsel := sel }

/-- A reel descriptor at 0x9000 that moves the first 4 KiB of page 0 to peer 1. -/
def reeling : State :=
  let s : State := { tasked with cores := [], reeldesc := 0x9000 }
  ([(0x9000, 0x10001), (0x9008, 2 ^ 45), (0x9010, 0), (0x9018, 0x1000)] : List (Nat × Nat)).foldl (fun s w => s.memPut w.1 (leBytes w.2 8)) s

/-- The conditions of the register writes, met and not met, at the ends of their ranges. -/
theorem wit_RegisterAndDebugEventResults :
    let s := State.reset
    tasked.anyTask = true ∧ s.anyTask = false ∧ s.errhead = s.errtail ∧ ({ s with errhead := 1 } : State).errhead ≠ s.errtail ∧
    6 ≤ fld (6 : Word).toNat 0 5 ∧ fld (20 : Word).toNat 0 5 ≤ 20 ∧ 20 < fld (21 : Word).toNat 0 5 ∧ 0xF00 ≤ fld (0xFFF : Word).toNat 0 12 ∧
    fld (0xEFF : Word).toNat 0 12 < 0xF00 ∧ fld (0x10000 : Word).toNat 0 17 ≤ 65536 ∧ 65536 < fld (0x10001 : Word).toNat 0 17 ∧
    (let v : Word := 0x1F000800
     fld v.toNat 0 16 % 8 = 0 ∧ 0x800 ≤ fld v.toNat 0 16 ∧ fld v.toNat 0 16 + 8 * fld v.toNat 16 16 ≤ 65536) ∧
    s.reel = none ∧ ({ s with reel := some ⟨2 ^ 45, [(0, 0x1000)], 0⟩ } : State).reel.isSome = true ∧
    (let v : Word := 0x9001
     v.getLsbD 0 = true ∧ s.badIn (fld v.toNat 12 33 * 2 ^ 12) 4096 = false) ∧ (0 : Word).getLsbD 0 = false := by decide +kernel

theorem wit_RegisterAndDebugEventResults_debug :
    let m (k : Nat) : State := lone { busyCore with mail := List.replicate k [] }
    let e : State := tasked { busyCore with task := none }
    State.reset.ownCore (fld (2 ^ 63 : Word).toNat 49 15) = true ∧ State.reset.ownCore 0x7FFF = true ∧ (lone busyCore).ownCore 0 = true ∧
    ({ State.reset with partLog := 0 } : State).ownCore 1024 = false ∧ ((m 16).core 0).mail.length = 16 ∧ ((m 15).core 0).mail.length = 15 ∧
    ((m 15).core 0).heldMail = [] ∧ (m 15).badIn 0x9000 64 = false ∧
    ([(3, Reg.g 3), (0x80005 + 2 ^ 27, .v 5), (0x100002 + 2 ^ 27, .px 2), (0x100003, .pa 3)] : List (Nat × Reg)).all (fun p =>
      (debugged (BitVec.ofNat 64 p.1)).dbgReg == some (.reg p.2) && fld p.1 22 5 == 0 && decide (0 < (DbgPlace.reg p.2).words)) = true ∧
    (((debugged 3).core 0).stream false).halted = true ∧ (debugged 0x80005).dbgReg = none ∧ ((e.core 0).stream false).halted = false ∧
    (State.reset.ownCluster 0 = true ∧ ({ State.reset with partLog := 0 } : State).ownCluster 32 = false) ∧
    (800 ≤ fld (1800 : Word).toNat 0 11 ∧ fld (1800 : Word).toNat 0 11 ≤ 1800 ∧ fld (1800 : Word).toNat 0 11 % 25 = 0 ∧ 801 % 25 ≠ 0) := by
  decide +kernel

/-- Class 011 selects an s register, a row of a tile or an accumulator, whichever the free value says, and word 0 is there. -/
theorem wit_RegisterAndDebugEventResults_debugTile :
    let s := debugged (0x180001 + 2 ^ 27)
    ∃ p, s.dbgReg = some p ∧ 0 < p.words ∧ (p = .reg (.s 1) ∨ (∃ r : BitVec 5, p = .row (4096 + 128 * r.toNat)) ∨ p = .acc 1) := by
  intro s
  have d : s.dbgrsel.toNat = 0x180001 + 2 ^ 27 := by decide
  have x : bitAt (0x180001 + 2 ^ 27) 27 = true ∧ fld (0x180001 + 2 ^ 27) 19 3 = 3 := by decide
  unfold State.dbgReg
  simp only [d, x.1, x.2]
  generalize Config.dbgFile s.dbgrsel = f
  match f with
  | 0 => exact ⟨_, rfl, by decide, .inl rfl⟩
  | 1 => exact ⟨_, rfl, by simp [DbgPlace.words], .inr (.inl ⟨Config.dbgRow s.dbgrsel, rfl⟩)⟩
  | 2 => exact ⟨_, rfl, by decide, .inr (.inr rfl)⟩

/-- A reel that may start, one refused, and its end; an error trap that is due. -/
theorem wit_RegisterAndDebugEventResults_reel :
    let a := reeling.reeldesc.toNat
    let h := (reeling.touch a).rawBytes 5 0 0 a 16
    let b := (h.2.touch (a + 16)).rawBytes 5 0 0 (a + 16) 16
    let r : State := { reeling with reel := some ⟨2 ^ 45, [(0, 0x1000)], 0⟩ }
    let t : State := { tasked with cores := [(0, { busyCore with task := some { aTask with errTraps := [(0x12, 7)] } })] }
    (reeling.reel.isNone && reeling.cores.isEmpty && reeling.runs.all (fun r => r.saved.isNone)) = true ∧
    tasked.atHeldCut 0 aTask = false ∧ (tasked.core 0).task = some aTask ∧
    (fieldOf h.1 0 2 == 1 && fieldOf h.1 2 2 == 1 && fieldOf h.1 4 2 == 0 && fieldOf h.1 6 2 == 0 && fieldOf h.1 8 8 == 2 ^ 45 &&
      fieldOf b.1 0 8 == 0 && fieldOf b.1 8 8 == 0x1000) = true ∧
    (regionsRead (b.2.unitAsker 0) [(0, 0x1000)] b.2).1 = some true ∧
    (reelPages (r.unitAsker 0) [0] 4096 [] 0 r).isSome = true ∧ r.reelTasks = [] ∧
    State.reset.errorDue 0 = none ∧ t.errorDue 0 = some (0x12, 7) := by decide +kernel

/-- A control message to peer 1 that stands unacknowledged, with a fabric table at 0x8000 in which peer 1 is on this module, or on
ports 0 and 1, of which the given ones have been tried. -/
def talking (entry : Nat) (tried : List Nat) (i : Instr) : State :=
  { (tasked { busyCore with task := none }).memPut 0x8008 (leBytes entry 8) with
    frtbase := 0x8001, ports := [(0, ⟨true, 15, 0⟩), (1, ⟨true, 15, 0⟩)], ctl := [⟨7, 1, 0, i, tried⟩] }

theorem wit_ErrorLinkAndResetResults :
    let far : State := { tasked with runs := [{ aRun with d := 2 }], stories := [{ aStory with d := 2 }] }
    (tasked.ownCore 0 = true ∧ isHub 0 = false) ∧ isHub Config.welwickBase = true ∧
    (tasked.runOf 0 = some aRun ∧ tasked.story? aRun.sb = some aStory) ∧
    (far.runOf 0 = some { aRun with d := 2 } ∧ far.story? 1 = some { aStory with d := 2 }) ∧
    (2 ^ 32 < 2 ^ 32 - 7 + 8 ∧ 2 ^ 32 - 8 + 8 ≤ 2 ^ 32 ∧ State.reset.reqs = [] ∧ State.reset.badIn (fld State.reset.hwin.toNat 32 13 * 2 ^ 32 + (2 ^ 32 - 8)) 8 = false) ∧
    (tasked.covers (homeOf 0) (tasked.vecOf Config.hubDie) = true ∧ tasked.engineFree Config.hubDie 0 = true ∧
      (let b : State := { tasked with vec := [(64 * Config.hubDie, 5)] }
       b.covers (homeOf 0) (b.vecOf Config.hubDie) = false)) ∧
    (let l (d : BitVec 64) : State := { tasked with lines := [⟨3, 0x1000, 0xFF, d, [], 0, false, false, 0x1000⟩] }
     ((l 0).lineAt 3 0x103F).any (fun x => x.dirty == 0) = true ∧ ((l 1).lineAt 3 0x1000).all (fun x => x.dirty == 1) = true) ∧
    (1024 ≤ 1024 ∧ forUs 0x3F = true ∧ forUs Config.partIndex = true ∧ forUs 1 = false) ∧ State.reset.stories = [] := by decide +kernel

theorem wit_ErrorLinkAndResetResults_control :
    let p : Instr := .pass { sb := 0x40, nth := 0, idx := 0, dev := 0, code := 0, level := 0, slate := 0, check := 0 }
    let near (s : State) : Bool := s.nearPeer 1
    let next (s : State) (tried : List Nat) : Option Nat := (s.usablePorts 1).find? (fun p => !tried.contains p)
    ((talking 0x303 [0] p).ctl.find? (fun m => m.id == 7) = some ⟨7, 1, 0, p, [0]⟩ ∧ State.reset.ctl.find? (fun m => m.id == 7) = none) ∧
    near (talking 0x303 [0] p) = true ∧ (near (talking 0x301 [0] p) = false ∧ next (talking 0x301 [0] p) [0] = some 1) ∧
    (near (talking 0x301 [0, 1] p) = false ∧ next (talking 0x301 [0, 1] p) [0, 1] = none) ∧
    (let s := talking 0x301 [0, 1] p
     s.ctlLaunch p = some (aStory, 0) ∧ s.story? 1 = some aStory ∧ s.storyOf aStory.va aStory.nth = some aStory ∧
     0 < aStory.launches.length) ∧
    (talking 0x301 [0, 1] (.linkRetry 0 none)).ctlLaunch (.linkRetry 0 none) = none := by decide +kernel

/-- A take launch all of whose groups have started, with its cut 1 in a state; `t` of its tasks have arrived. -/
def takeRun : Run := { aRun true with started := 1 }
def cutting (st : CutState) (t : List Nat := []) (more : State := State.reset) : State :=
  { more with runs := [takeRun], stories := [aStory], cores := [(0, { busyCore with task := some aTask })],
              cuts := [⟨0, 1, 1, st, t, 0, 0, 0, none, []⟩] }

/-- A record of eight bytes of the take. -/
def aRec (rule : BitVec 3 := 0) (n : Nat := 1) (lpa : Nat := 0x40) : DRec :=
  { peer := 0, lpa := lpa, rule := rule, len := 1, esz := 3, sgn := false, swid := 0, seq := 1, take := 1, score := 0, speer := 0,
    ncontrib := n, mask := 0, data := leBytes 7 8, cbm := 0, va := 0x40, run := 1, group := 0, launch := 0, copyId := none }

/-- The root of that cut, with two members. -/
def rooted (sent : Bool) (arrived : List Nat) (count : Nat := 0) (reports : List (Nat × Word) := []) : State :=
  { cutting .arrived with roots := [⟨0, 1, 2, arrived, reports, sent, count, none, []⟩], cuttmo := 1 }

theorem wit_CutProtocolResults_records :
    let b : State := { State.reset with cbsize := 1 }
    let q : State := { State.reset with sent := [aRec] }
    let a : RecAck := { swid := 0, seq := 1, speer := 0, cbm := 0 }
    State.reset.assigned (aRec 0 1 (2 ^ 44)).lpa = false ∧ State.reset.assigned (aRec).lpa = true ∧ (aRec 0 0).ncontrib = 0 ∧ (aRec 2 2).rule ≠ 3 ∧
    ((aRec).group, (aRec).take) ∉ (State.reset.bank 1).short ∧
    (0, 1) ∈ (({ State.reset with bank1 := { State.reset.bank 1 with short := [(0, 1)] } } : State).bank 1).short ∧
    (State.reset.bank 1).extents = [] ∧ (b.bank 1).used + (40 + recLen (aRec).len) ≤ b.bankSize ∧ State.reset.cbsize * 2 ^ 19 = State.reset.bankSize ∧
    (let z : State := { State.reset with cbsize := 0 }
     z.bankSize < (z.bank 1).used + (40 + recLen (aRec).len) ∧ z.cbovf = 0) ∧
    State.reset.sent.any (fun r => r.swid == a.swid && r.seq == a.seq) = false ∧
    q.sent.find? (fun r => r.swid == a.swid && r.seq == a.seq) = some aRec ∧
    q.sent.find? (fun q => q.swid == aRec.swid && q.seq == aRec.seq && q.take == aRec.take) = some aRec := by decide +kernel

theorem wit_CutProtocolResults_device :
    let s := cutting .opened [0]
    let f : State := { cutting .applying with bank1 := { (State.reset.bank 1) with recs := [aRec] } }
    let u (rule : BitVec 3) (z o : Nat) (k : Word) : DRec :=
      { aRec rule with len := 0, swid := k, esz := BitVec.ofNat 2 (Nat.log2 z), mask := BitVec.ofNat 64 ((2 ^ z - 1) * 2 ^ o) }
    let two (a b : DRec) (z o : Nat) : Bool :=
      let g : State := { cutting .applying with bank1 := { (State.reset.bank 1) with recs := [a, b] } }
      [1, 2, 4, 8].contains z && o % z == 0 && decide (o + z ≤ 8) && a.lpa % 8 == 0 && !g.badIn a.lpa 8 &&
      (g.bank 1).recs.filter (fun x => x.group == takeRun.cgrp) == [a, b] && tget 0 takeRun.cgrp (g.bank 1).dropped == 0 &&
      [a, b].all (fun p => p.len == 0 && p.lpa == a.lpa && p.unit == z && p.mask == BitVec.ofNat 64 ((2 ^ z - 1) * 2 ^ o)) &&
      g.cutOf 1 1 == f.cutOf 1 1 && !g.writing takeRun
    (([(0, 1, 7), (1, 1, 0), (2, 1, 3), (2, 2, 6), (2, 4, 4), (2, 8, 0), (3, 8, 0), (4, 4, 0), (5, 8, 0), (6, 1, 7), (7, 1, 1)] :
      List (BitVec 3 × Nat × Nat)).all fun e => two (u e.1 e.2.1 e.2.2 1) (u e.1 e.2.1 e.2.2 2) e.2.1 e.2.2) = true ∧
    (two (u 0 1 7 2) (u 1 1 7 1) 1 7 = true ∧ two (u 2 8 0 2) (u 4 8 0 1) 8 0 = true ∧ (u 0 1 7 2).rule ≠ (u 1 1 7 1).rule) ∧
    s.groupAborting 0 = false ∧ ({ s with runs := [{ takeRun with aborted := true }] } : State).groupAborting 0 = true ∧
    s.groupRun 0 = some takeRun ∧ s.nextCut 1 = 1 ∧ takeRun.lastCut = false ∧ takeRun.saved = none ∧ takeRun.started = takeRun.groups ∧
    (∀ q ∈ s.sent, q.run = 1 → q.take ≠ 1) ∧ s.cutOf 1 1 = some ⟨0, 1, 1, .opened, [0], 0, 0, 0, none, []⟩ ∧ s.coresOf 1 = [0] ∧
    (cutting .opened).coresOf 1 = [0] ∧ (cutting .opened).cutOf 1 1 = some ⟨0, 1, 1, .opened, [], 0, 0, 0, none, []⟩ ∧
    (cutting .arrived).cutOf 1 1 = some ⟨0, 1, 1, .arrived, [], 0, 0, 0, none, []⟩ ∧ (cutting .arrived).writing takeRun = false ∧
    (cutting .applied).cutOf 1 1 = some ⟨0, 1, 1, .applied, [], 0, 0, 0, none, []⟩ ∧
    f.groupRun 0 = some takeRun ∧ f.cutOf 1 1 = some ⟨0, 1, 1, .applying, [], 0, 0, 0, none, []⟩ ∧ f.writing takeRun = false ∧
    (f.bank 1).recs.filter (fun x => x.group == takeRun.cgrp) = [aRec] ∧ tget 0 takeRun.cgrp (f.bank 1).dropped = 0 ∧
    f.badIn aRec.lpa (recLen aRec.len) = false ∧ (cutting .opened).nextCut 1 ≠ 2 := by decide +kernel

theorem wit_CutProtocolResults_root :
    let q (sent : Bool) (a : List Nat) (n : Nat) (r : List (Nat × Word)) : RootCut := ⟨0, 1, 2, a, r, sent, n, none, []⟩
    (rooted false [0]).groupRun 0 = some takeRun ∧ (rooted false [0]).runNamed ⟨0x40, 0, 0⟩ = some takeRun ∧
    (rooted false [0]).groupOther 0 ((rooted false [0]).runNamed ⟨0x40, 0, 0⟩) = false ∧ (rooted false [0]).groupOther 0 none = true ∧
    (rooted false [0]).cutAborting 0 = false ∧ takeRun.cgrp = 0 ∧
    ({ rooted false [0] with agenda := [.cutAbort 0 1 (none, ⟨0x40, 0, 0⟩)] } : State).cutAborting 0 = true ∧
    State.reset.runNamed ⟨0x40, 0, 0⟩ = none ∧ (rooted false [0]).run? takeRun.id = some takeRun ∧
    (rooted false []).root? 0 1 = some (q false [] 0 []) ∧ (without 0 [] ++ [0]).length < 2 ∧ 2 ≤ (without 1 [0] ++ [1]).length ∧
    (rooted false [0]).root? 0 1 = some (q false [0] 0 []) ∧
    (rooted true [0, 1] 0 [(0, 5)]).root? 0 1 = some (q true [0, 1] 0 [(0, 5)]) ∧
    ((([(0, 5)] : List (Nat × Word)).filter (fun (e : Nat × Word) => e.1 != 1)) ++ [(1, (6 : Word))]).length = 2 ∧
    (([] : List (Nat × Word)) ++ [(0, (5 : Word))]).length < 2 ∧
    (rooted false [0] (2 ^ 16 + 1)).root? 0 1 = some (q false [0] (2 ^ 16 + 1) []) ∧
    (rooted false [0]).cuttmo * 2 ^ 16 < (q false [0] (2 ^ 16 + 1) []).elapsed (rooted false [0]).dcyc ∧
    ¬((rooted false [0]).cuttmo * 2 ^ 16 < (q false [0] (2 ^ 16) []).elapsed (rooted false [0]).dcyc) ∧
    (1 < 2 ∧ 1 ∉ [0]) ∧ (∃ e ∈ ([(0, 1), (0, 2)] : List (Nat × Nat)), e ≠ (0, 1) ∧ e.1 = 0) ∧
    ∀ e ∈ ([(0, 1)] : List (Nat × Nat)), e.1 = 0 → e = (0, 1) := by decide +kernel

/-- A decode test serves here: each decoded word is an encoding. -/
theorem wit_DecodedWordsAreEncodings : (decode 0).isSome = true := by decide

/-! ### Results of single steps, computed by hand from the rules cited -/

/-- The value that a register of core 0 comes to hold from an instruction of its A-stream. -/
def after (i : Instr) (r : Reg) (c : Core := busyCore) : Nat :=
  match exec i (lone c) with
  | .next t => (t.core 0).comes false r
  | _ => 0

/-- 06 R140, R142: sums wrap, high halves differ by sign, shift counts use six bits, and division by zero and overflow are defined;
g1 = 5, g2 = -2^63, g3 = -1. -/
theorem test_arithmetic :
    after (.add plainHdr (.g 4) (.g 3) (.imm 1)) (.g 4) = 0 ∧
    after (.mulhs plainHdr (.g 4) (.g 3) (.g 3)) (.g 4) = 0 ∧
    after (.mulhz plainHdr (.g 4) (.g 3) (.g 3)) (.g 4) = 0xFFFFFFFFFFFFFFFE ∧
    after (.sar plainHdr (.g 4) (.g 2) (.imm 63)) (.g 4) = 0xFFFFFFFFFFFFFFFF ∧
    after (.shl plainHdr (.g 4) (.g 1) (.imm 64)) (.g 4) = 5 ∧
    after (.rot plainHdr (.g 4) (.g 1) (.imm 1)) (.g 4) = 0x8000000000000002 ∧
    after (.subsat plainHdr (.g 4) (.g 2) (.imm 1)) (.g 4) = 0x8000000000000000 ∧
    after (.divs plainHdr (.g 4) (.g 2) (.g 3)) (.g 4) = 0x8000000000000000 ∧
    after (.divz plainHdr (.g 4) (.g 1) (.imm 0)) (.g 4) = 0xFFFFFFFFFFFFFFFF ∧
    after (.rems plainHdr (.g 4) (.g 3) (.g 1)) (.g 4) = 0xFFFFFFFFFFFFFFFF ∧
    after (.remz plainHdr (.g 4) (.g 1) (.imm 0)) (.g 4) = 5 := by decide +kernel

/-- 06 R141, R143: fields, counts, and compares that differ by sign; 0x205 names bits [12:5]. -/
theorem test_fields_and_compares :
    after (.bfx plainHdr (.g 4) (.imm 0x1FFFF) (.imm 0x205)) (.g 4) = 0xFF ∧
    after (.bfi plainHdr (.g 1) (.g 3) (.imm 0x205)) (.g 1) = 0x1FE5 ∧
    after (.movk plainHdr (.g 3) (.imm 0) (.imm 1)) (.g 3) = 0xFFFFFFFF0000FFFF ∧
    after (.clz plainHdr (.g 4) (.g 1)) (.g 4) = 61 ∧ after (.ctz plainHdr (.g 4) (.imm 0)) (.g 4) = 64 ∧
    after (.cmplts plainHdr (.g 4) (.g 3) (.g 1)) (.g 4) = 1 ∧ after (.cmpltz plainHdr (.g 4) (.g 3) (.g 1)) (.g 4) = 0 := by
  decide +kernel

/-- 06 R147, R148: the next slot wraps, and a taken branch goes to its target. -/
theorem test_program_counter :
    (match exec (.nop plainHdr) (lone { busyCore with a := { busyCore.a with pc := 4095 }, level := .s }) with
     | .next t => (t.core 0).a.pc == 0
     | _ => false) = true ∧
    (match exec (.br plainHdr (BitVec.ofInt 19 (-3))) (lone busyCore) with
     | .next t => (t.core 0).a.pc == 7
     | _ => false) = true := by decide +kernel

end Sys2Proof.Machine.Tests
end

section
/-! PROOFS. Device registers and the events of the device that read and write them: what a register write changes and what it leaves,
records in the error ring, the exclusion bitmap, the mailbox port, the debugger, islands, checkpoint reels, and ERROR_CLASS traps
(16 R359, R370 to R374, 17 R378, R390, R391, 19 R415 to R426). -/

namespace Sys2Proof.Machine

/-! ### Fields of a written value -/

/-- The mask that keeps the `w` bits from bit `lo` on. -/
def fieldMask (lo w : Nat) : Word := BitVec.ofNat 64 (2 ^ w - 1) <<< lo

theorem keepBits_eq_and (v : Word) (lo w : Nat) : keepBits v lo w = v &&& fieldMask lo w := by
  apply BitVec.eq_of_getLsbD_eq
  intro i hi
  simp only [keepBits, fieldMask, fld, BitVec.getLsbD_and, BitVec.getLsbD_shiftLeft, BitVec.getLsbD_ofNat, hi, decide_true,
    Bool.true_and, Nat.testBit_mul_two_pow, Nat.testBit_mod_two_pow, Nat.testBit_div_two_pow, Nat.testBit_two_pow_sub_one]
  by_cases h : lo ≤ i
  · have h1 : i - lo < 64 := by omega
    simp [h, h1, Nat.not_lt.2 h, BitVec.getLsbD, Bool.and_comm]
  · simp [h, Nat.lt_of_not_le h]

/-- A written field that keeps its place. -/
theorem keepBits_toNat {v m : Word} {lo w : Nat} (h : fieldMask lo w = m) : (keepBits v lo w).toNat = (v &&& m).toNat := by
  rw [keepBits_eq_and, h]

/-- A written field that stands from bit 0 on. -/
theorem fld_zero_eq_and {v m : Word} {w : Nat} (hw : w ≤ 64) (h : fieldMask 0 w = m) : fld v.toNat 0 w = (v &&& m).toNat := by
  have h1 : 2 ^ w ≤ 2 ^ 64 := Nat.pow_le_pow_right (by decide) hw
  rw [← h, fieldMask, BitVec.shiftLeft_zero, BitVec.toNat_and, BitVec.toNat_ofNat, Nat.mod_eq_of_lt (by omega),
    Nat.and_two_pow_sub_one_eq_mod]
  simp [fld]

theorem fld_lt (n lo w : Nat) : fld n lo w < 2 ^ w := Nat.mod_lt _ (Nat.two_pow_pos w)

/-- A field kept at its place as a number. -/
theorem keepBits_toNat_fld (v : Word) {lo w : Nat} (h : lo + w ≤ 64) : (keepBits v lo w).toNat = fld v.toNat lo w * 2 ^ lo := by
  rw [keepBits, BitVec.toNat_ofNat, Nat.mod_eq_of_lt]
  calc fld v.toNat lo w * 2 ^ lo < 2 ^ w * 2 ^ lo := Nat.mul_lt_mul_of_pos_right (fld_lt ..) (Nat.two_pow_pos lo)
    _ = 2 ^ (w + lo) := (Nat.pow_add ..).symm
    _ ≤ 2 ^ 64 := Nat.pow_le_pow_right (by decide) (by omega)

/-- A number with its lowest field replaced. -/
theorem setFld_zero (n w v : Nat) : setFld n 0 w v = v % 2 ^ w + n / 2 ^ w * 2 ^ w := by simp [setFld, Nat.mod_one]

theorem testBit_fld (n lo w i : Nat) : (fld n lo w).testBit i = (decide (i < w) && n.testBit (lo + i)) := by
  rw [fld, Nat.testBit_mod_two_pow, Nat.testBit_div_two_pow, Nat.add_comm]

/-- The bits of a number in which a field has been replaced. -/
theorem testBit_setFld (n lo w v i : Nat) : (setFld n lo w v).testBit i =
    if i < lo then n.testBit i else if i < lo + w then v.testBit (i - lo) else n.testBit i := by
  have e : setFld n lo w v = 2 ^ lo * (2 ^ w * (n / 2 ^ (lo + w)) + v % 2 ^ w) + n % 2 ^ lo := by
    rw [setFld, Nat.pow_add]; ring
  rw [e, Nat.testBit_two_pow_mul_add _ (Nat.mod_lt _ (Nat.two_pow_pos lo)),
    Nat.testBit_two_pow_mul_add _ (Nat.mod_lt _ (Nat.two_pow_pos w)), Nat.testBit_mod_two_pow, Nat.testBit_mod_two_pow,
    Nat.testBit_div_two_pow]
  by_cases h1 : i < lo
  · simp [h1]
  · by_cases h2 : i < lo + w
    · simp [h1, h2, (by omega : i - lo < w)]
    · have h3 : ¬ i - lo < w := by omega
      rw [if_neg h1, if_neg h3, if_neg h1, if_neg h2, show i - lo - w + (lo + w) = i by omega]

theorem fld_setFld_same (n lo w v : Nat) : fld (setFld n lo w v) lo w = v % 2 ^ w := by
  apply Nat.eq_of_testBit_eq
  intro i
  rw [testBit_fld, testBit_setFld, Nat.testBit_mod_two_pow, if_neg (by omega), Nat.add_sub_cancel_left]
  by_cases hi : i < w
  · rw [if_pos (by omega)]
  · simp [hi]

theorem fld_setFld_apart {lo w lo' w' : Nat} (h : lo' + w' ≤ lo ∨ lo + w ≤ lo') (n v : Nat) :
    fld (setFld n lo w v) lo' w' = fld n lo' w' := by
  apply Nat.eq_of_testBit_eq
  intro i
  rw [testBit_fld, testBit_fld, testBit_setFld]
  by_cases hi : i < w'
  · rcases h with h | h
    · rw [if_pos (by omega)]
    · rw [if_neg (by omega), if_neg (by omega)]
  · simp [hi]

/-- The fields of equal width of a number in which one of them has been replaced. -/
theorem fld_setFld (n w k j v : Nat) : fld (setFld n (w * k) w v) (w * j) w = if j = k then v % 2 ^ w else fld n (w * j) w := by
  have apart {a b : Nat} (h : a < b) : w * a + w ≤ w * b := Nat.mul_succ w a ▸ Nat.mul_le_mul_left w h
  split
  · subst_vars; exact fld_setFld_same ..
  · rcases Nat.lt_or_gt_of_ne ‹_› with h | h
    · exact fld_setFld_apart (Or.inl (apart h)) ..
    · exact fld_setFld_apart (Or.inr (apart h)) ..

/-- Clearing one bit of a word. -/
theorem getLsbD_clearBit {w : Nat} (x : BitVec w) (lo : Nat) {i : Nat} (h : i < w) :
    (BitVec.ofNat w (setFld x.toNat lo 1 0)).getLsbD i = (x.getLsbD i && !(i == lo)) := by
  rw [BitVec.getLsbD_ofNat, decide_eq_true h, Bool.true_and, testBit_setFld, BitVec.getLsbD]
  rcases Nat.lt_trichotomy i lo with h | h | h
  · simp [h, Nat.ne_of_lt h]
  · simp [h]
  · rw [if_neg (by omega), if_neg (by omega), beq_false_of_ne (Nat.ne_of_gt h), Bool.not_false, Bool.and_true]

theorem setFld_lt {n lo w v m : Nat} (h : lo + w ≤ m) (hn : n < 2 ^ m) : setFld n lo w v < 2 ^ m := by
  apply Nat.lt_pow_two_of_testBit
  intro i hi
  rw [testBit_setFld, if_neg (by omega), if_neg (by omega)]
  exact Nat.testBit_lt_two_pow (Nat.lt_of_lt_of_le hn (Nat.pow_le_pow_right (by decide) hi))

/-! ### Consecutive numbers and bytes -/

theorem mem_upFrom {j i n : Nat} : j ∈ upFrom i n ↔ i ≤ j ∧ j < i + n := by
  induction n generalizing i with
  | zero => simp [upFrom]
  | succ n ih => simp only [upFrom, List.mem_cons, ih]; omega

theorem upFrom_eq_range' (i n : Nat) : upFrom i n = List.range' i n := by
  induction n generalizing i with
  | zero => rfl
  | succ n ih => rw [upFrom, ih, List.range'_succ]

theorem map_add_upFrom (a i n : Nat) : (upFrom i n).map (a + ·) = upFrom (a + i) n := by
  simp only [upFrom_eq_range', List.map_add_range']

theorem tgets_eq_map {α : Type} (d : α) (a n : Nat) (t : Table α) :
    tgets d a n t = (upFrom 0 n).map (fun i => tget d (a + i) t) := by
  have h : ∀ b, tgets d b n t = (upFrom b n).map (fun i => tget d i t) := by
    induction n with
    | zero => intro b; rfl
    | succ n ih => intro b; rw [tgets, ih, upFrom, List.map_cons]
  rw [h, show upFrom a n = (upFrom 0 n).map (a + ·) by rw [map_add_upFrom, Nat.add_zero], List.map_map]; rfl

theorem leNat_tgets (t : Table Byte) (a n : Nat) : leNat (tgets 0 a n t) = rdLe t a n := by
  induction n generalizing a with
  | zero => rfl
  | succ n ih => rw [tgets, leNat, ih]; rfl

theorem rdLe_succ (t : Table Byte) (a n : Nat) : rdLe t a (n + 1) = (tget 0 a t).toNat + 256 * rdLe t (a + 1) n := rfl

theorem rdLe_lt (t : Table Byte) (a n : Nat) : rdLe t a n < 256 ^ n := by
  induction n generalizing a with
  | zero => exact Nat.one_pos
  | succ n ih =>
    have h := ih (a + 1)
    have hb := (tget 0 a t).isLt
    rw [rdLe_succ, Nat.pow_succ]; omega

/-- A read depends on the bytes in its range alone. -/
theorem rdLe_congr {t u : Table Byte} {a n : Nat} (h : ∀ k, a ≤ k → k < a + n → tget 0 k t = tget 0 k u) : rdLe t a n = rdLe u a n := by
  induction n generalizing a with
  | zero => rfl
  | succ n ih =>
    rw [rdLe_succ, rdLe_succ, h a (Nat.le_refl _) (by omega), ih (fun k h1 h2 => h k (by omega) (by omega))]

theorem drop_tgets {α : Type} (d : α) (a k n : Nat) (t : Table α) : (tgets d a (k + n) t).drop k = tgets d (a + k) n t := by
  induction k generalizing a with
  | zero => rw [Nat.zero_add]; rfl
  | succ k ih =>
    rw [show k + 1 + n = (k + n) + 1 by omega, tgets, List.drop_succ_cons, ih, show a + 1 + k = a + (k + 1) by omega]

theorem take_tgets {α : Type} (d : α) (a k n : Nat) (t : Table α) : (tgets d a (k + n) t).take k = tgets d a k t := by
  induction k generalizing a with
  | zero => rfl
  | succ k ih => rw [show k + 1 + n = (k + n) + 1 by omega, tgets, List.take_succ_cons, ih, tgets]

/-- A field of a record read from memory. -/
theorem fieldOf_tgets (t : Table Byte) (a : Nat) {off m n : Nat} (h : off + m ≤ n) :
    fieldOf (tgets 0 a n t) off m = rdLe t (a + off) m := by
  obtain ⟨r, rfl⟩ := Nat.le.dest h
  rw [fieldOf, Nat.add_assoc, drop_tgets, take_tgets, leNat_tgets]

/-- A number read where it has been written among other bytes. -/
theorem rdLe_tputs (t : Table Byte) (a n v : Nat) (p q : List Byte) :
    rdLe (tputs 0 a (p ++ leBytes v n ++ q) t) (a + p.length) n = v % 256 ^ n := by
  have h := tgets_tputs 0 a (p ++ leBytes v n ++ q) t
  rw [← leNat_leBytes, ← leNat_tgets]
  congr 1
  have hl : (p ++ leBytes v n ++ q).length = p.length + (n + q.length) := by simp
  rw [hl] at h
  rw [← take_tgets 0 (a + p.length) n q.length, ← drop_tgets 0 a p.length (n + q.length), h]
  simp

/-! ### Device registers that a write changes alone -/

/-- The device registers whose write only puts the RW fields of the value in place (00 R7), with the masks of these fields. -/
def plainRegs : List (Nat × Word) :=
  [(0x103, 0xFFFFFFFF), (0x104, 0xF), (0x108, 1), (0x114, 0xFFFFFFFF), (0x130, 0x1FFFFFFFFFFFFC0), (0x201, 0xFFFF1FFF1FFF),
   (0x203, 0x1F), (0x210, 0x1FFFFFFFFFC0), (0x220, 0x7FFF), (0x223, 1), (0x224, 0xFFFFFFF), (0x240, 0x1FFFFFFFF000), (0x271, 0x3F),
   (0x280, 0x3FF), (0x2E0, 0x1FFFFFFFFFC0), (0x2FA, 0x1FFF00000000)]

/-- What the plain registers read as, in their order. -/
def plainFields (s : State) : List Nat :=
  [s.errtail, s.errtrap, s.cctldef.toNat, s.cuttmo, s.qpbase.toNat, s.lpdom.toNat, s.lctl.toNat, s.cldsrc.toNat, s.dbgsel.toNat,
   s.dbgctl.toNat, s.dbgrsel.toNat, s.sptbase.toNat, s.portsel, s.islsel, s.reeldesc.toNat, s.hwin.toNat]

theorem plainFields_eq (s : State) : plainRegs.map (fun e => s.regValue e.1) = plainFields s := rfl

theorem regValue_plainRegs (s : State) {i : Nat} (h : i < plainRegs.length) :
    s.regValue plainRegs[i].1 = (plainFields s)[i]'h := by
  simp only [← plainFields_eq, List.getElem_map]

/-- The registers that show what a selector register selects: DBGSTAT, DBGDATA, PORTSTAT and ISLFREQ. -/
def selectedRegs : List Nat := [0x222, 0x225, 0x272, 0x281]

/-- `t` is `s` with the `i`-th plain register reading `x`. -/
inductive PlainWrite (s : State) : Nat → Nat → State → Prop
  | errtail (x : Nat) : PlainWrite s 0 x { s with errtail := x }
  | errtrap (x : Nat) : PlainWrite s 1 x { s with errtrap := x }
  | cctldef (x : Word) : PlainWrite s 2 x.toNat { s with cctldef := x }
  | cuttmo (x : Nat) : PlainWrite s 3 x { s with cuttmo := x }
  | qpbase (x : Word) : PlainWrite s 4 x.toNat { s with qpbase := x }
  | lpdom (x : Word) : PlainWrite s 5 x.toNat { s with lpdom := x }
  | lctl (x : Word) : PlainWrite s 6 x.toNat { s with lctl := x }
  | cldsrc (x : Word) : PlainWrite s 7 x.toNat { s with cldsrc := x }
  | dbgsel (x : Word) : PlainWrite s 8 x.toNat { s with dbgsel := x }
  | dbgctl (x : Word) : PlainWrite s 9 x.toNat { s with dbgctl := x }
  | dbgrsel (x : Word) : PlainWrite s 10 x.toNat { s with dbgrsel := x }
  | sptbase (x : Word) : PlainWrite s 11 x.toNat { s with sptbase := x }
  | portsel (x : Nat) : PlainWrite s 12 x { s with portsel := x }
  | islsel (x : Nat) : PlainWrite s 13 x { s with islsel := x }
  | reeldesc (x : Word) : PlainWrite s 14 x.toNat { s with reeldesc := x }
  | hwin (x : Word) : PlainWrite s 15 x.toNat { s with hwin := x }

theorem lqstat_congr {s t : State} (h1 : t.stories = s.stories) (h2 : t.runs = s.runs) (h3 : t.cores = s.cores) :
    t.lqstat = s.lqstat := by
  simp only [State.lqstat, State.queuedIn, State.coresOf, h1, h2, h3]

/-- A register that is neither plain nor shows what a plain one selects does not read any plain one's field. -/
theorem regValue_congr {s t : State} {k : Nat} (hs : k ∉ selectedRegs) (hk : k ∉ plainRegs.map Prod.fst)
    (h : { t with errtail := s.errtail, errtrap := s.errtrap, cctldef := s.cctldef, cuttmo := s.cuttmo, qpbase := s.qpbase,
                  lpdom := s.lpdom, lctl := s.lctl, cldsrc := s.cldsrc, dbgsel := s.dbgsel, dbgctl := s.dbgctl,
                  dbgrsel := s.dbgrsel, sptbase := s.sptbase, portsel := s.portsel, islsel := s.islsel, reeldesc := s.reeldesc,
                  hwin := s.hwin } = s) : t.regValue k = s.regValue k := by
  rw [← h]
  unfold State.regValue
  split
  case h_20 => exact lqstat_congr rfl rfl rfl
  case h_27 | h_30 | h_45 | h_47 => exact absurd (by decide) hs
  case h_4 | h_5 | h_8 | h_16 | h_18 | h_19 | h_21 | h_23 | h_26 | h_28 | h_29 | h_31 | h_44 | h_46 | h_48 | h_52 =>
    exact absurd (by decide) hk
  all_goals rfl

namespace PlainWrite

variable {s t : State} {i x : Nat}

theorem cores (h : PlainWrite s i x t) : t.cores = s.cores := by cases h <;> rfl

theorem mem (h : PlainWrite s i x t) : t.mem = s.mem := by cases h <;> rfl

theorem plainFields (h : PlainWrite s i x t) : plainFields t = (plainFields s).set i x := by cases h <;> rfl

/-- What the registers read as after a plain write, but for those that show what a selector selects. -/
theorem regValue (h : PlainWrite s i x t) (hi : i < plainRegs.length) :
    t.regValue plainRegs[i].1 = x ∧ ∀ k, k ≠ plainRegs[i].1 → k ∉ selectedRegs → t.regValue k = s.regValue k := by
  refine ⟨by simp [regValue_plainRegs, h.plainFields], fun k hk hs => ?_⟩
  by_cases hp : k ∈ plainRegs.map Prod.fst
  · obtain ⟨e, he, rfl⟩ := List.mem_map.1 hp
    obtain ⟨j, hj, rfl⟩ := List.getElem_of_mem he
    have hij : i ≠ j := by rintro rfl; exact hk rfl
    simp only [regValue_plainRegs, h.plainFields]
    exact List.getElem_set_ne hij _
  · exact regValue_congr hs hp (by cases h <;> rfl)

theorem cast {y : Nat} (h : PlainWrite s i x t) (e : x = y) : PlainWrite s i y t := e ▸ h

end PlainWrite

/-- A write of a plain register keeps the RW fields of the value (00 R7). -/
theorem regWrite_plain (s : State) (w : Writer) (v : Word) : ∀ (i : Nat) (h : i < plainRegs.length),
    PlainWrite s i (v &&& plainRegs[i].2).toNat (s.regWrite w plainRegs[i].1 v)
  | 0, _ => .cast (.errtail _) (fld_zero_eq_and (by decide) rfl)
  | 1, _ => .cast (.errtrap _) (fld_zero_eq_and (by decide) rfl)
  | 2, _ => .cast (.cctldef _) (keepBits_toNat rfl)
  | 3, _ => .cast (.cuttmo _) (fld_zero_eq_and (by decide) rfl)
  | 4, _ => .cast (.qpbase _) (keepBits_toNat rfl)
  | 5, _ => .cast (.lpdom _) (by simp only [keepBits_eq_and, ← BitVec.and_or_distrib_left]; rfl)
  | 6, _ => .cast (.lctl _) (keepBits_toNat rfl)
  | 7, _ => .cast (.cldsrc _) (keepBits_toNat rfl)
  | 8, _ => .cast (.dbgsel _) (keepBits_toNat rfl)
  | 9, _ => .cast (.dbgctl _) (keepBits_toNat rfl)
  | 10, _ => .cast (.dbgrsel _) (keepBits_toNat rfl)
  | 11, _ => .cast (.sptbase _) (keepBits_toNat rfl)
  | 12, _ => .cast (.portsel _) (fld_zero_eq_and (by decide) rfl)
  | 13, _ => .cast (.islsel _) (fld_zero_eq_and (by decide) rfl)
  | 14, _ => .cast (.reeldesc _) (keepBits_toNat rfl)
  | 15, _ => .cast (.hwin _) (keepBits_toNat rfl)
  | _ + 16, h => absurd h (by simp [plainRegs])

/-! ### Writes that need no wait -/

/-- The registers whose write may have to wait. -/
def waitingRegs : List Nat := [0x115, 0x200, 0x2E1, 0x2F8]

theorem exec_registerWrite (s : State) (w : Writer) (n : Nat) (v : Word) (h : n ∉ waitingRegs) :
    exec (.registerWrite w n v) s = .next (s.regWrite w n v) := by
  show Host.Outcome.next ((s.devWrite w n v).getD s) = _
  have e : s.devWrite w n v = some (s.regWrite w n v) := by
    unfold State.devWrite
    split
    case h_5 => rfl
    all_goals exact absurd (by decide) h
  rw [e, Option.getD_some]

/-- The registers whose write has an effect of its own, by their functions. -/
theorem regWrite_effects (s : State) (w : Writer) (v : Word) (n : Nat) :
    (n = 0x106 → s.regWrite w n v = s.writeErrsw w v) ∧ (n = 0x208 → s.regWrite w n v = s.writeXcl v) ∧
    (n = 0x225 → s.regWrite w n v = s.writeDbgdata v) ∧ (n = 0x226 → s.regWrite w n v = s.writeDbgiw v) ∧
    (n = 0x281 → s.regWrite w n v = s.writeIslfreq v) := by
  unfold State.regWrite
  split
  case h_43 => simp_all
  all_goals simp

theorem exec_errsw (s : State) (w : Writer) (v : Word) : exec (.errsw w v) s = .next (s.writeErrsw w v) := by
  obtain ⟨h, -⟩ := regWrite_effects s w v 0x106
  exact (exec_registerWrite s w 0x106 v (by decide)).trans (congrArg _ (h rfl))

theorem exec_xcl (s : State) (w : Writer) (v : Word) : exec (.xcl w v) s = .next (s.writeXcl v) := by
  obtain ⟨-, h, -⟩ := regWrite_effects s w v 0x208
  exact (exec_registerWrite s w 0x208 v (by decide)).trans (congrArg _ (h rfl))

theorem exec_dbgdata (s : State) (w : Writer) (v : Word) : exec (.dbgdata w v) s = .next (s.writeDbgdata v) := by
  obtain ⟨-, -, h, -⟩ := regWrite_effects s w v 0x225
  exact (exec_registerWrite s w 0x225 v (by decide)).trans (congrArg _ (h rfl))

theorem exec_dbgiw (s : State) (w : Writer) (v : Word) : exec (.dbgiw w v) s = .next (s.writeDbgiw v) := by
  obtain ⟨-, -, -, h, -⟩ := regWrite_effects s w v 0x226
  exact (exec_registerWrite s w 0x226 v (by decide)).trans (congrArg _ (h rfl))

theorem exec_islfreq (s : State) (w : Writer) (v : Word) : exec (.islfreq w v) s = .next (s.writeIslfreq v) := by
  obtain ⟨-, -, -, -, h⟩ := regWrite_effects s w v 0x281
  exact (exec_registerWrite s w 0x281 v (by decide)).trans (congrArg _ (h rfl))

/-- The writes that may wait, by their functions. -/
theorem devWrite_effects (s : State) (w : Writer) (v : Word) (n : Nat) :
    (n = 0x2E1 → s.devWrite w n v = s.writeReelctl v) ∧ (n = 0x2F8 → s.devWrite w n v = s.writeMbpost w v) := by
  unfold State.devWrite
  split <;> simp_all

theorem exec_reelctlGo (s : State) (w : Writer) (v : Word) : exec (.reelctlGo w v) s = .next ((s.writeReelctl v).getD s) :=
  congrArg (fun o => Host.Outcome.next (Option.getD o s)) ((devWrite_effects s w v 0x2E1).1 rfl)

theorem exec_mbpost (s : State) (w : Writer) (v : Word) : exec (.mbpost w v) s = .next ((s.writeMbpost w v).getD s) :=
  congrArg (fun o => Host.Outcome.next (Option.getD o s)) ((devWrite_effects s w v 0x2F8).2 rfl)

/-! ### Registers that a write changes alone -/

theorem plainRegs_not_waiting : ∀ e ∈ plainRegs, e.1 ∉ waitingRegs := by decide

theorem registerWrite_plain (s : State) (w : Writer) (v : Word) : ∀ e ∈ plainRegs,
    ∃ t, exec (.registerWrite w e.1 v) s = .next t ∧ t.regValue e.1 = (v &&& e.2).toNat ∧
      (∀ k, k ≠ e.1 → k ∉ selectedRegs → t.regValue k = s.regValue k) ∧ t.cores = s.cores ∧ t.mem = s.mem := by
  intro e he
  have hn := plainRegs_not_waiting e he
  obtain ⟨i, hi, rfl⟩ := List.getElem_of_mem he
  have hw := regWrite_plain s w v i hi
  obtain ⟨hv, hk⟩ := hw.regValue hi
  exact ⟨_, exec_registerWrite s w _ v hn, hv, hk, hw.cores, hw.mem⟩

/-! ### RDAP0 to RDAP15 -/

theorem regWrite_rdap (s : State) (w : Writer) (v : Word) {i : Nat} (h : i < 16) :
    s.regWrite w (0x120 + i) v = { s with rdap := tput 0 i (keepBits v 0 13) s.rdap } := by
  interval_cases i <;> rfl

theorem regValue_rdap (s : State) {i : Nat} (h : i < 16) : s.regValue (0x120 + i) = (tget 0 i s.rdap).toNat := by
  interval_cases i <;> rfl

theorem registerWrite_rdap (s : State) (w : Writer) (v : Word) {i : Nat} (h : i < 16) :
    ∃ t, exec (.registerWrite w (0x120 + i) v) s = .next t ∧ t.regValue (0x120 + i) = (v &&& 0x1FFF).toNat ∧
      ∀ k, k < 16 → k ≠ i → t.regValue (0x120 + k) = s.regValue (0x120 + k) := by
  refine ⟨_, exec_registerWrite s w _ v (by simp [waitingRegs]; omega), ?_, fun k hk hne => ?_⟩
  · rw [regWrite_rdap s w v h, regValue_rdap _ h, tget_tput_same, keepBits_toNat (m := 0x1FFF) rfl]
  · rw [regWrite_rdap s w v h, regValue_rdap _ hk, regValue_rdap _ hk, tget_tput_ne _ hne]

/-! ### Registers that stand still while a task is resident or saved -/

/-- The identity and table registers, with the masks of their RW fields (19 R415). -/
def identityRegs : List (Nat × Word) :=
  [(0x260, 0xFFF), (0x261, 0xFFFFFFFFFFFFFFFF), (0x268, 0x1FFFFFFFFFF0), (0x270, 0x1FFFFFFFF001)]

/-- A guarded write is a discarded one while a task is resident or saved, else it takes the value. -/
theorem guarded_spec {s t : State} {w : Writer} {n x : Nat} {v : Word} (hn : n ∉ waitingRegs)
    (hw : s.regWrite w n v = s.guarded w n v t) (ht : t.regValue n = x) :
    (s.anyTask = true → exec (.registerWrite w n v) s = .next (s.svDiscard w n v.toNat)) ∧
    (s.anyTask = false → ∃ t, exec (.registerWrite w n v) s = .next t ∧ t.regValue n = x) := by
  rw [exec_registerWrite s w n v hn, hw, State.guarded]
  exact ⟨fun h => by rw [if_pos h], fun h => ⟨t, by rw [if_neg (by simp [h])], ht⟩⟩

theorem registerWrite_identity (s : State) (w : Writer) (v : Word) : ∀ e ∈ identityRegs,
    (s.anyTask = true → exec (.registerWrite w e.1 v) s = .next (s.svDiscard w e.1 v.toNat)) ∧
    (s.anyTask = false → ∃ t, exec (.registerWrite w e.1 v) s = .next t ∧ t.regValue e.1 = (v &&& e.2).toNat) := by
  have peerid : ({ s with peerid := fld v.toNat 0 12 } : State).regValue 0x260 = (v &&& 0xFFF).toNat :=
    Eq.trans rfl (fld_zero_eq_and (by decide) rfl)
  have instloc : ({ s with instloc := v } : State).regValue 0x261 = (v &&& 0xFFFFFFFFFFFFFFFF).toNat := by
    rw [show (0xFFFFFFFFFFFFFFFF : Word) = BitVec.allOnes 64 from rfl, BitVec.and_allOnes]; rfl
  have cgtbase : ({ s with cgtbase := keepBits v 4 41 } : State).regValue 0x268 = (v &&& 0x1FFFFFFFFFF0).toNat :=
    Eq.trans rfl (keepBits_toNat rfl)
  have frtbase : ({ s with frtbase := keepBits v 0 1 ||| keepBits v 12 33 } : State).regValue 0x270 =
      (v &&& 0x1FFFFFFFF001).toNat := by
    rw [keepBits_eq_and, keepBits_eq_and, ← BitVec.and_or_distrib_left]; rfl
  unfold identityRegs
  simp only [List.forall_mem_cons, List.not_mem_nil, false_imp_iff, implies_true, and_true]
  exact ⟨guarded_spec (by decide) rfl peerid, guarded_spec (by decide) rfl instloc, guarded_spec (by decide) rfl cgtbase,
    guarded_spec (by decide) rfl frtbase⟩

/-! ### Registers that take only some values -/

/-- A write that counts under a condition takes the value where it holds, and else changes nothing. -/
theorem conditional_spec {s t : State} {w : Writer} {n x : Nat} {v : Word} {c ok : Prop} [Decidable c] (hn : n ∉ waitingRegs)
    (hw : s.regWrite w n v = if c then t else s) (hc : c ↔ ok) (ht : t.regValue n = x) :
    ∃ t, exec (.registerWrite w n v) s = .next t ∧ (ok → t.regValue n = x) ∧ (¬ok → t = s) := by
  refine ⟨_, exec_registerWrite s w n v hn, fun h => ?_, fun h => ?_⟩ <;> rw [hw]
  · rw [if_pos (hc.2 h), ht]
  · rw [if_neg (mt hc.1 h)]

theorem spillOk_iff (v : Word) : spillOk v = true ↔
    fld v.toNat 0 16 % 8 = 0 ∧ 0x800 ≤ fld v.toNat 0 16 ∧ fld v.toNat 0 16 + 8 * fld v.toNat 16 16 ≤ 65536 := by
  simp [spillOk, and_assoc]

theorem registerWrite_conditional (s : State) (w : Writer) (v : Word) :
    let errs (n : Nat) (ok : Prop) (x : Nat) : Prop := ∃ t, exec (.registerWrite w n v) s = .next t ∧
       (ok → t.regValue n = x) ∧ (¬ok → t = s)
    let f := fld v.toNat
    errs 0x100 (s.errhead = s.errtail) (f 12 33 * 2 ^ 12) ∧
    errs 0x101 (s.errhead = s.errtail ∧ 6 ≤ f 0 5 ∧ f 0 5 ≤ 20) (f 0 5) ∧ errs 0x109 (0xF00 ≤ f 0 12) (f 0 12) ∧
    errs 0x241 (f 0 17 ≤ 65536) (f 0 17) ∧
    errs 0x10A (f 0 16 % 8 = 0 ∧ 0x800 ≤ f 0 16 ∧ f 0 16 + 8 * f 16 16 ≤ 65536) (f 0 32) ∧
    errs 0x10B (f 0 16 % 8 = 0 ∧ 0x800 ≤ f 0 16 ∧ f 0 16 + 8 * f 16 16 ≤ 65536) (f 0 32) := by
  have low (w : Nat) (h : w ≤ 64) : (keepBits v 0 w).toNat = fld v.toNat 0 w := by
    rw [keepBits_toNat_fld v (by omega), Nat.pow_zero, Nat.mul_one]
  have errbase : ({ s with errbase := keepBits v 12 33 } : State).regValue 0x100 = fld v.toNat 12 33 * 2 ^ 12 :=
    Eq.trans rfl (keepBits_toNat_fld v (by decide))
  have tvecdef : ({ s with tvecdef := keepBits v 0 12 } : State).regValue 0x109 = fld v.toNat 0 12 :=
    Eq.trans rfl (low 12 (by decide))
  have spilladef : ({ s with spilladef := keepBits v 0 32 } : State).regValue 0x10A = fld v.toNat 0 32 :=
    Eq.trans rfl (low 32 (by decide))
  have spillxdef : ({ s with spillxdef := keepBits v 0 32 } : State).regValue 0x10B = fld v.toNat 0 32 :=
    Eq.trans rfl (low 32 (by decide))
  have empty : (s.errhead == s.errtail) = true ↔ s.errhead = s.errtail := beq_iff_eq
  exact ⟨conditional_spec (by decide) rfl empty errbase,
    conditional_spec (t := { s with errsize := fld v.toNat 0 5 }) (by decide) rfl (and_congr empty Iff.rfl) rfl,
    conditional_spec (by decide) rfl Iff.rfl tvecdef,
    conditional_spec (t := { s with sptlim := fld v.toNat 0 17 }) (by decide) rfl Iff.rfl rfl,
    conditional_spec (by decide) rfl (spillOk_iff v) spilladef, conditional_spec (by decide) rfl (spillOk_iff v) spillxdef⟩

/-! ### Bits cleared by a write -/

theorem regWrite_tflog0 (s : State) (w : Writer) (v : Word) : s.regWrite w 0x250 v =
    if bitAt v.toNat 15 then { s with tflog0 := BitVec.ofNat 64 (setFld s.tflog0.toNat 15 1 0), tflogAt := none } else s := rfl

theorem registerWrite_tflog0 (s : State) (w : Writer) (v : Word) :
    ∃ t, exec (.registerWrite w 0x250 v) s = .next t ∧ t.tflog1 = s.tflog1 ∧ t.tflog2 = s.tflog2 ∧ t.tflog3 = s.tflog3 ∧
      ∀ i, i < 64 → t.tflog0.getLsbD i = (s.tflog0.getLsbD i && !(i == 15 && v.getLsbD 15)) := by
  rw [exec_registerWrite s w _ v (by decide), regWrite_tflog0, bitAt_toNat]
  cases h : v.getLsbD 15
  · exact ⟨s, rfl, rfl, rfl, rfl, by simp⟩
  · rw [if_pos rfl]
    refine ⟨_, rfl, rfl, rfl, rfl, fun i hi => ?_⟩
    rw [getLsbD_clearBit _ _ hi, Bool.and_true]

theorem registerWrite_intpend (s : State) (w : Writer) (v : Word) :
    ∃ t, exec (.registerWrite w 0x2F1 v) s = .next t ∧ ∀ i, i < 4 →
      t.intpend.getLsbD i = (s.intpend.getLsbD i && !v.getLsbD i) := by
  refine ⟨{ s with intpend := s.intpend &&& ~~~(BitVec.ofNat 4 v.toNat) }, exec_registerWrite s w _ v (by decide), fun i hi => ?_⟩
  rw [BitVec.getLsbD_and, BitVec.getLsbD_not, BitVec.getLsbD_ofNat, decide_eq_true hi, Bool.true_and, Bool.true_and]; rfl

theorem exec_qcclr (s : State) (w : Writer) (v : Word) :
    exec (.qcclr w v) s = .next { s with trig := tput 0 (fld v.toNat 0 10) 0 s.trig } := rfl

theorem qcclr_spec (s : State) (w : Writer) (v : Word) :
    ∃ t, exec (.qcclr w v) s = .next t ∧ tget 0 (fld v.toNat 0 10) t.trig = 0 ∧ t.cores = s.cores ∧ t.mem = s.mem ∧
      ∀ k, k ≠ fld v.toNat 0 10 → tget 0 k t.trig = tget 0 k s.trig :=
  ⟨_, exec_qcclr s w v, tget_tput_same 0 _ 0 s.trig, rfl, rfl, fun _ hk => tget_tput_ne 0 hk 0 s.trig⟩

/-! ### Reads that clear -/

theorem clearingReads_spec (s : State) :
    let reads (i : Instr) (n : Nat) (t : State) : Prop := exec i s = .next t ∧
      t.hostOut = s.hostOut ++ [.value n (BitVec.ofNat 64 (s.regValue n))] ∧ t.cores = s.cores ∧ t.mem = s.mem
    (∃ t, reads .errcorr 0x105 t ∧ t.regValue 0x105 = 0) ∧ (∃ t, reads .errlost 0x107 t ∧ t.errlost = 0) ∧
      ∃ t, reads .portstat 0x272 t ∧ (tget Port.down s.portsel t.ports).retry = 0 := by
  have cleared (p : Port) : (tget Port.down s.portsel (tput Port.down s.portsel { p with retry := 0 } s.ports)).retry = 0 := by
    rw [tget_tput_same]
  exact ⟨⟨_, ⟨rfl, rfl, rfl, rfl⟩, rfl⟩, ⟨_, ⟨rfl, rfl, rfl, rfl⟩, rfl⟩, ⟨_, ⟨rfl, rfl, rfl, rfl⟩, cleared _⟩⟩

/-! ### Messages sent on a change (08 R215) -/

/-- Of a state only what is sent has changed: messages in flight, packets, control messages, and the count of identifiers. -/
def onlySends (s t : State) : Prop :=
  { t with agenda := s.agenda, outbox := s.outbox, ctl := s.ctl, ctlSent := s.ctlSent, nextId := s.nextId } = s

theorem onlySends_trans {s t u : State} (h : onlySends s t) (k : onlySends t u) : onlySends s u := by
  unfold onlySends at *
  rw [← h]; conv_rhs => rw [← k]

theorem onlySends_post (s : State) (p : Nat) (m : Instr) : onlySends s (s.post p m) := by
  unfold State.post
  dsimp only
  split
  · rfl
  · split <;> rfl

theorem onlySends_foldl_post {α : Type} (p : State → α → Nat) (m : State → α → Instr) (l : List α) (s : State) :
    onlySends s (l.foldl (fun u r => u.post (p u r) (m u r)) s) := by
  induction l generalizing s with
  | nil => rfl
  | cons r rs ih => exact onlySends_trans (onlySends_post ..) (ih _)

/-- What a change with its SUSPEND and RESUME messages leaves is what the change leaves, but for what is sent. -/
theorem onlySends_noting (s : State) (f : State → State) : onlySends (f s) (s.noting f) :=
  onlySends_trans (onlySends_foldl_post _ _ _ _) (onlySends_foldl_post _ _ _ _)

theorem onlySends_cores {s t : State} (h : onlySends s t) : t.cores = s.cores := by
  unfold onlySends at h; rw [← h]

theorem onlySends_mem {s t : State} (h : onlySends s t) : t.mem = s.mem := by
  unfold onlySends at h; rw [← h]

theorem onlySends_cuthold {s t : State} (h : onlySends s t) : t.cuthold = s.cuthold := by
  unfold onlySends at h; rw [← h]

theorem cuthold_spec (s : State) (w : Writer) (v : Word) : ∃ t, exec (.cuthold w v) s = .next t ∧
    (s.reel.isSome = true → t = s) ∧
    (s.reel = none → t.cuthold = v &&& 0x1FFFFFFFF ∧ t.cores = s.cores ∧ t.mem = s.mem) := by
  refine ⟨(if s.reel.isSome then none else some (s.noting fun s => { s with cuthold := keepBits v 0 33 })).getD s, rfl,
    fun h => by rw [if_pos h, Option.getD_none], fun h => ?_⟩
  rw [h, Option.isSome_none, if_neg Bool.false_ne_true, Option.getD_some]
  obtain hs := onlySends_noting s (fun s => { s with cuthold := keepBits v 0 33 })
  exact ⟨(onlySends_cuthold hs).trans (keepBits_eq_and v 0 33), (onlySends_cores hs).trans rfl, (onlySends_mem hs).trans rfl⟩

/-! ### Records in the error ring (16 R371) -/

theorem State.touch_eq (s : State) (a : Nat) : ∃ h, s.touch a = { s with hole := h } := by
  unfold State.touch
  split
  · exact ⟨s.hole, rfl⟩
  · exact ⟨some a, rfl⟩

/-- The place of the next record in a ring that has room. -/
def State.nextRecord (s : State) : Nat := s.errbase.toNat + 64 * (s.errhead % 2 ^ s.errsize)

/-- The ring has no room for a record. -/
abbrev State.ringFull (s : State) : Prop := (s.errhead + 2 ^ 32 - s.errtail) % 2 ^ 32 = 2 ^ s.errsize

/-- A state in which a record has been put into memory. -/
def State.recordPut (s : State) (hole : Option Nat) (pend : BitVec 4) (out : List HostOut) (head drops : Nat) (mem : Table Byte) : State :=
  { s with hole := hole, intpend := pend, hostOut := out, errhead := head, drops := drops, mem := mem }

/-- A state in which the loss of a record has been counted. -/
def State.recordLost (s : State) (lost : Nat) : State := { s with errlost := lost }

section
variable (s : State) (hole : Option Nat) (pend : BitVec 4) (out : List HostOut) (head drops lost : Nat) (mem : Table Byte)
@[simp] theorem State.recordPut_errhead : (s.recordPut hole pend out head drops mem).errhead = head := rfl
@[simp] theorem State.recordPut_mem : (s.recordPut hole pend out head drops mem).mem = mem := rfl
@[simp] theorem State.recordPut_cores : (s.recordPut hole pend out head drops mem).cores = s.cores := rfl
@[simp] theorem State.recordPut_xcl : (s.recordPut hole pend out head drops mem).xcl = s.xcl := rfl
@[simp] theorem State.recordLost_errlost : (s.recordLost lost).errlost = lost := rfl
@[simp] theorem State.recordLost_errhead : (s.recordLost lost).errhead = s.errhead := rfl
@[simp] theorem State.recordLost_cores : (s.recordLost lost).cores = s.cores := rfl
@[simp] theorem State.recordLost_xcl : (s.recordLost lost).xcl = s.xcl := rfl
end

theorem errRecord_full {s : State} (h : s.ringFull) (kind : Nat) (drop : Bool) (code : Nat) (cx : Ctx) (addr d0 d1 : Nat) :
    s.errRecord kind drop code cx addr d0 d1 = s.recordLost (min (s.errlost + 1) (2 ^ 32 - 1)) := if_pos h

theorem errRecord_room {s : State} (h : ¬s.ringFull) (kind : Nat) (drop : Bool) (code : Nat) (cx : Ctx) (addr d0 d1 : Nat) :
    ∃ hole pend out, s.errRecord kind drop code cx addr d0 d1 =
      s.recordPut hole pend out ((s.errhead + 1) % 2 ^ 32) (s.drops + b01 drop)
        (tputs 0 s.nextRecord (recordBytes kind drop code s.errhead cx addr s.dcyc d0 d1) s.mem) := by
  obtain ⟨hole, e⟩ := s.touch_eq s.nextRecord
  unfold State.nextRecord at e
  unfold State.errRecord State.engPut
  dsimp only
  rw [if_neg h, e]
  split <;> exact ⟨hole, _, _, rfl⟩

theorem errRecord_cores (s : State) (kind : Nat) (drop : Bool) (code : Nat) (cx : Ctx) (addr d0 d1 : Nat) :
    (s.errRecord kind drop code cx addr d0 d1).cores = s.cores := by
  by_cases h : s.ringFull
  · rw [errRecord_full h, State.recordLost_cores]
  · obtain ⟨_, _, _, e⟩ := errRecord_room h kind drop code cx addr d0 d1
    rw [e, State.recordPut_cores]

theorem errRecord_xcl (s : State) (kind : Nat) (drop : Bool) (code : Nat) (cx : Ctx) (addr d0 d1 : Nat) :
    (s.errRecord kind drop code cx addr d0 d1).xcl = s.xcl := by
  by_cases h : s.ringFull
  · rw [errRecord_full h, State.recordLost_xcl]
  · obtain ⟨_, _, _, e⟩ := errRecord_room h kind drop code cx addr d0 d1
    rw [e, State.recordPut_xcl]

theorem recordBytes_length (kind : Nat) (drop : Bool) (code seq : Nat) (cx : Ctx) (addr dcyc d0 d1 : Nat) :
    (recordBytes kind drop code seq cx addr dcyc d0 d1).length = 64 := by
  simp [recordBytes]

theorem errRecord_logs (s : State) (kind : Nat) (drop : Bool) (code : Nat) (cx : Ctx) (addr d0 d1 : Nat) :
    s.logs (s.errRecord kind drop code cx addr d0 d1) kind drop code cx addr d0 d1 := by
  unfold State.logs
  by_cases h : s.ringFull
  · rw [if_pos h, errRecord_full h]
    exact ⟨State.recordLost_errlost .., State.recordLost_errhead ..⟩
  · obtain ⟨_, _, _, e⟩ := errRecord_room h kind drop code cx addr d0 d1
    rw [if_neg h, e]
    refine ⟨State.recordPut_errhead .., fun k hk => ?_⟩
    have hl : k < (recordBytes kind drop code s.errhead cx addr s.dcyc d0 d1).length := by rwa [recordBytes_length]
    rw [State.recordPut_mem, List.getD_eq_getElem _ _ hl]
    exact tget_tputs_in 0 s.nextRecord k _ s.mem hl

theorem errsw_spec (s : State) (w : Writer) (v : Word) : ∃ t, exec (.errsw w v) s = .next t ∧ t.cores = s.cores ∧
    (∀ n, w = .core n → s.logs t 0x14 false 0 (s.ctxOf n) ((s.core n).svGet 2).toNat v.toNat ((s.core n).svGet 4).toNat) ∧
    (w = .host → s.logs t 0x14 false 0 s.noCtx 0 v.toNat 0) := by
  refine ⟨s.writeErrsw w v, exec_errsw s w v, errRecord_cores .., ?_, ?_⟩
  · rintro n rfl; exact errRecord_logs ..
  · rintro rfl; exact errRecord_logs ..

/-! ### Memory as the device's engines read it -/

theorem classTrap_xcl (s : State) (k seq : Nat) (p : Nat → Task → Bool) : (s.classTrap k seq p).xcl = s.xcl := by
  unfold State.classTrap; split <;> rfl

theorem uncorr_xcl (s : State) (code : Nat) (cx : Ctx) (va lpa d1 : Nat) : (s.uncorr code cx va lpa d1).xcl = s.xcl := by
  unfold State.uncorr
  split
  · exact (classTrap_xcl ..).trans (errRecord_xcl ..)
  · exact errRecord_xcl ..

theorem rawBytes_xcl (s : State) (code d1 va a n : Nat) : (s.rawBytes code d1 va a n).2.xcl = s.xcl := by
  unfold State.rawBytes
  dsimp only
  generalize (upFrom (a / 8) ((a + n + 7) / 8 - a / 8)).filter (fun w => tget false w s.bad) = ws
  induction ws generalizing s with
  | nil => rfl
  | cons w ws ih => rw [List.foldl_cons, ih, uncorr_xcl]

/-- Bytes of memory without an uncorrectable word are read as they stand. -/
theorem rawBytes_intact {s : State} {a n : Nat} (h : s.badIn a n = false) (code d1 va : Nat) :
    s.rawBytes code d1 va a n = (tgets 0 a n s.mem, s) := by
  have hb : (upFrom (a / 8) ((a + n + 7) / 8 - a / 8)).filter (fun w => tget false w s.bad) = [] := by
    rw [List.filter_eq_nil_iff]
    exact fun w hw => List.any_eq_false.1 h w hw
  unfold State.rawBytes
  rw [hb, tgets_eq_map]
  rfl

theorem badIn_touch (s : State) (a b n : Nat) : (s.touch a).badIn b n = s.badIn b n := by
  obtain ⟨h, e⟩ := s.touch_eq a; rw [e]; rfl

theorem touch_mem (s : State) (a : Nat) : (s.touch a).mem = s.mem := by
  obtain ⟨h, e⟩ := s.touch_eq a; rw [e]

theorem touch_xcl (s : State) (a : Nat) : (s.touch a).xcl = s.xcl := by
  obtain ⟨h, e⟩ := s.touch_eq a; rw [e]

/-! ### XCL (17 R378) -/

/-- The set bits of a byte at index `i` of a bitmap, as entries of a table. -/
def bitEntries (e : Nat × Byte) : Table Bool :=
  if e.2 = 0 then [] else ((upFrom 0 8).filter (fun j => e.2.getLsbD j)).map (fun j => (8 * e.1 + j, true))

theorem mem_bitEntries (i k : Nat) (b : Byte) (x : Bool) :
    (k, x) ∈ bitEntries (i, b) ↔ x = true ∧ k / 8 = i ∧ b.getLsbD (k % 8) = true := by
  unfold bitEntries
  split
  · next h => simp only at h; simp [h]
  · simp only [List.mem_map, List.mem_filter, mem_upFrom, Prod.mk.injEq]
    constructor
    · rintro ⟨j, ⟨⟨-, hj⟩, hb⟩, rfl, rfl⟩
      exact ⟨rfl, by omega, by rwa [show (8 * i + j) % 8 = j by omega]⟩
    · rintro ⟨rfl, rfl, hb⟩
      exact ⟨k % 8, ⟨⟨by omega, by omega⟩, hb⟩, by omega, rfl⟩

/-- A table whose entries are all true is true at the keys that it lists. -/
theorem tget_true_iff {t : Table Bool} (h : ∀ k, (k, false) ∉ t) (k : Nat) : tget false k t = true ↔ (k, true) ∈ t := by
  induction t with
  | nil => simp [tget]
  | cons e t ih =>
    obtain ⟨j, b⟩ := e
    have ht : ∀ k, (k, false) ∉ t := fun k hk => h k (List.mem_cons_of_mem _ hk)
    cases b with
    | false => exact absurd List.mem_cons_self (h j)
    | true =>
      by_cases hj : j = k
      · subst hj; simp [tget]
      · simp [tget, hj, ih ht, Ne.symm hj]

/-- The bits of a bitmap of `n` bytes. -/
theorem tget_bitmap (f : Nat → Byte) {k n : Nat} (h : k < 8 * n) :
    tget false k (((upFrom 0 n).zip ((upFrom 0 n).map f)).flatMap bitEntries) = (f (k / 8)).getLsbD (k % 8) := by
  have hm (j : Nat) (x : Bool) : (j, x) ∈ ((upFrom 0 n).zip ((upFrom 0 n).map f)).flatMap bitEntries ↔
      x = true ∧ j / 8 < n ∧ (f (j / 8)).getLsbD (j % 8) = true := by
    rw [← List.map_prod_left_eq_zip, List.mem_flatMap]
    simp only [List.mem_map, mem_upFrom]
    constructor
    · rintro ⟨e, ⟨i, hi, rfl⟩, he⟩
      obtain ⟨hx, rfl, hb⟩ := (mem_bitEntries ..).1 he
      exact ⟨hx, by omega, hb⟩
    · rintro ⟨hx, hj, hb⟩
      exact ⟨_, ⟨j / 8, by omega, rfl⟩, (mem_bitEntries ..).2 ⟨hx, rfl, hb⟩⟩
  rw [Bool.eq_iff_iff, tget_true_iff (fun j hj => absurd ((hm j false).1 hj).1 Bool.false_ne_true), hm]
  simp [(by omega : k / 8 < n)]

/-- The state in which XCL has its new value. -/
def State.xclPut (s : State) (v : Word) : State := { s with xcl := v }

/-- The state in which the exclusion bitmap has been read. -/
def State.exclPut (s : State) (t : Table Bool) : State := { s with excl := t }

@[simp] theorem State.exclPut_xcl (s : State) (t : Table Bool) : (s.exclPut t).xcl = s.xcl := rfl
@[simp] theorem State.exclPut_excl (s : State) (t : Table Bool) : (s.exclPut t).excl = t := rfl
@[simp] theorem State.xclPut_xcl (s : State) (v : Word) : (s.xclPut v).xcl = v := rfl

theorem writeXcl_eq (s : State) (v : Word) :
    let u := s.xclPut (keepBits v 12 33 ||| keepBits v 0 1)
    let a := (keepBits v 12 33).toNat
    let r := (u.touch a).rawBytes 0 0 0 a 4096
    s.writeXcl v = if !bitAt v.toNat 0 then u.exclPut [] else r.2.exclPut (((upFrom 0 4096).zip r.1).flatMap bitEntries) := by
  unfold State.writeXcl bitEntries
  rfl

theorem xcl_spec (s : State) (w : Writer) (v : Word) : ∃ t, exec (.xcl w v) s = .next t ∧ t.xcl = v &&& 0x1FFFFFFFF001 ∧
    (v.getLsbD 0 = false → t.excl = []) ∧
    (v.getLsbD 0 = true → s.badIn (fld v.toNat 12 33 * 2 ^ 12) 4096 = false → ∀ k, k < 32768 →
      tget false k t.excl = (tget 0 (fld v.toNat 12 33 * 2 ^ 12 + k / 8) s.mem).getLsbD (k % 8)) := by
  have hx : keepBits v 12 33 ||| keepBits v 0 1 = v &&& 0x1FFFFFFFF001 := by
    rw [keepBits_eq_and, keepBits_eq_and, ← BitVec.and_or_distrib_left]; rfl
  refine ⟨_, exec_xcl s w v, ?_⟩
  rw [writeXcl_eq, keepBits_toNat_fld v (by decide), hx, bitAt_toNat]
  cases hb : v.getLsbD 0
  · rw [Bool.not_false, if_pos rfl]
    exact ⟨by simp, fun _ => State.exclPut_excl .., by simp⟩
  · rw [Bool.not_true, if_neg Bool.false_ne_true]
    refine ⟨by rw [State.exclPut_xcl, rawBytes_xcl, touch_xcl, State.xclPut_xcl], by simp, fun _ hg k hk => ?_⟩
    rw [rawBytes_intact (by rw [badIn_touch]; exact hg), State.exclPut_excl, tgets_eq_map, tget_bitmap _ (by omega), touch_mem]
    rfl

/-! ### MBPOST (19 R422) -/

/-- The words of a mailbox entry that MBPOST makes from 64 bytes: kind 2 in the lowest byte. -/
def mailWords (bs : List Byte) : List Word :=
  let ws := (upFrom 0 8).map (fun i => fieldOf bs (8 * i) 8)
  (setFld (ws.headD 0) 0 8 2 :: ws.tail).map (BitVec.ofNat 64)

theorem mailWords_tgets (t : Table Byte) (a : Nat) :
    (mailWords (tgets 0 a 64 t)).length = 8 ∧ ((mailWords (tgets 0 a 64 t)).getD 0 0).toNat = rdLe t a 8 / 256 * 256 + 2 ∧
    ∀ k, 1 ≤ k → k < 8 → ((mailWords (tgets 0 a 64 t)).getD k 0).toNat = rdLe t (a + 8 * k) 8 := by
  have hf (k : Nat) (hk : k < 8) : fieldOf (tgets 0 a 64 t) (8 * k) 8 = rdLe t (a + 8 * k) 8 := fieldOf_tgets _ _ (by omega)
  have hlt (k : Nat) : rdLe t k 8 % 2 ^ 64 = rdLe t k 8 := Nat.mod_eq_of_lt (rdLe_lt t k 8)
  refine ⟨rfl, ?_, fun k h1 h2 => ?_⟩
  · have h0 := rdLe_lt t a 8
    show (BitVec.ofNat 64 (setFld (fieldOf (tgets 0 a 64 t) (8 * 0) 8) 0 8 2)).toNat = _
    rw [hf 0 (by decide), setFld_zero, BitVec.toNat_ofNat, Nat.mul_zero, Nat.add_zero]
    omega
  · have e : (mailWords (tgets 0 a 64 t)).getD k 0 = BitVec.ofNat 64 (fieldOf (tgets 0 a 64 t) (8 * k) 8) := by
      interval_cases k <;> rfl
    rw [e, hf k h2, BitVec.toNat_ofNat, hlt]

theorem mail_placeMail {c : Core} (h : c.mail.length < 16) (hh : c.heldMail = []) (ws : List Word) :
    (c.placeMail none ws).mail = c.mail ++ [ws] := by
  rw [Core.placeMail, if_pos ⟨h, hh⟩]; rfl

theorem writeMbpost_eq (s : State) (w : Writer) (v : Word) :
    let n := fld v.toNat 49 15
    let a := fld v.toNat 6 39 * 64
    let r := (s.touch a).rawBytes 0 0 0 a 64
    s.writeMbpost w v = if !s.ownCore n then some (s.svDiscard w 0x2F8 v.toNat)
      else if 16 ≤ (s.core n).mail.length ∨ (s.core n).heldMail ≠ [] then none
      else some (r.2.setCore n ((s.core n).placeMail none (mailWords r.1))) := rfl

theorem mbpost_spec (s : State) (w : Writer) (v : Word) :
    let n := fld v.toNat 49 15
    let a := fld v.toNat 6 39 * 64
    let c := s.core n
    (s.ownCore n = false → exec (.mbpost w v) s = .next (s.svDiscard w 0x2F8 v.toNat)) ∧
    (s.ownCore n = true → 16 ≤ c.mail.length ∨ c.heldMail ≠ [] → exec (.mbpost w v) s = .next s) ∧
    (s.ownCore n = true → c.mail.length < 16 → c.heldMail = [] → s.badIn a 64 = false → ∃ t ws, exec (.mbpost w v) s = .next t ∧
      (t.core n).mail = c.mail ++ [ws] ∧ ws.length = 8 ∧ (ws.getD 0 0).toNat = s.memRd a 8 / 256 * 256 + 2 ∧
      ∀ k, 1 ≤ k → k < 8 → (ws.getD k 0).toNat = s.memRd (a + 8 * k) 8) := by
  intro n a c
  rw [exec_mbpost, writeMbpost_eq]
  refine ⟨fun h => ?_, fun h hf => ?_, fun h hm hh hb => ?_⟩
  · rw [if_pos (by rw [h]; rfl), Option.getD_some]
  · rw [if_neg (by rw [h]; decide), if_pos hf, Option.getD_none]
  · obtain ⟨h1, h2, h3⟩ := mailWords_tgets s.mem a
    rw [if_neg (by rw [h]; decide), if_neg (by simp only [not_or, not_le, not_not]; exact ⟨hm, hh⟩), Option.getD_some,
      rawBytes_intact (by rw [badIn_touch]; exact hb), touch_mem]
    refine ⟨_, _, rfl, ?_, h1, h2, h3⟩
    rw [State.core_setCore, if_pos rfl, mail_placeMail hm hh]

/-! ### The debugger halts, resumes and steps (17 R391) -/

theorem Core.holdWatch_streams (c : Core) : c.holdWatch.a = c.a ∧ c.holdWatch.x = c.x := by
  unfold Core.holdWatch
  split
  · exact ⟨rfl, rfl⟩
  · split <;> exact ⟨rfl, rfl⟩

/-- What a command of the debugger makes of a stream: 0 halts, 1 resumes, 2 steps. -/
def Stream.commanded (t : Stream) (op : Nat) : Stream :=
  match op with
  | 0 => t.halt
  | 1 => { t with halted := false, stepping := false }
  | 2 => if t.halted then { t with halted := false, stepping := true } else t
  | _ => t

/-- The core that a command of the debugger leaves, with the streams that it names. -/
def Core.commanded (c : Core) (a x : Bool) (op : Nat) : Core :=
  ({ c with a := if a then c.a.commanded op else c.a, x := if x then c.x.commanded op else c.x } : Core).holdWatch

theorem Core.commanded_streams (c : Core) (a x : Bool) (op : Nat) :
    (c.commanded a x op).a = (if a then c.a.commanded op else c.a) ∧
    (c.commanded a x op).x = (if x then c.x.commanded op else c.x) :=
  Core.holdWatch_streams _

theorem dropRequest_cores (s : State) (t : Stream) : (s.dropRequest t).cores = s.cores := by
  unfold State.dropRequest; split <;> rfl

theorem debug_foreign {s : State} (h : s.ownCore s.dbgsel.toNat = false) (a x : Bool) (op : Nat) : s.debug a x op = s := by
  unfold State.debug; dsimp only; rw [h]; rfl

theorem core_congr {s t : State} (h : t.cores = s.cores) (n : Nat) : t.core n = s.core n := by
  rw [State.core, State.core, h]

/-- A command of the debugger changes the selected core alone. -/
theorem core_debug {s : State} (h : s.ownCore s.dbgsel.toNat = true) (a x : Bool) (op m : Nat) :
    (s.debug a x op).core m =
      if m = s.dbgsel.toNat then (s.core s.dbgsel.toNat).commanded a x op else s.core m := by
  have hr (op : Nat) (t : Stream) : (if op = 0 then (if a then s.dropRequest t else s) else s).cores = s.cores := by
    split
    · split
      · exact dropRequest_cores ..
      · rfl
    · rfl
  unfold State.debug
  dsimp only
  rw [if_neg (by rw [h]; decide), core_congr (onlySends_cores (onlySends_noting ..)), State.core_setCore, core_congr (hr ..)]
  rfl

/-- The selected core after a command of the debugger, and the others. -/
theorem debug_spec {s : State} (h : s.ownCore s.dbgsel.toNat = true) (a x : Bool) (op : Nat) :
    ((s.debug a x op).core s.dbgsel.toNat).a =
      (if a then (s.core s.dbgsel.toNat).a.commanded op else (s.core s.dbgsel.toNat).a) ∧
    ((s.debug a x op).core s.dbgsel.toNat).x =
      (if x then (s.core s.dbgsel.toNat).x.commanded op else (s.core s.dbgsel.toNat).x) ∧
    ∀ m, m ≠ s.dbgsel.toNat → (s.debug a x op).core m = s.core m := by
  have hc := core_debug h a x op
  refine ⟨?_, ?_, fun m hm => by rw [hc, if_neg hm]⟩
  · rw [hc, if_pos rfl]; exact (Core.commanded_streams ..).1
  · rw [hc, if_pos rfl]; exact (Core.commanded_streams ..).2

theorem halted_commanded_halt (t : Stream) (b : Bool) : (if b then t.commanded 0 else t).halted = (b || t.halted) := by
  cases b <;> rfl

theorem pc_commanded_halt (t : Stream) (b : Bool) : (if b then t.commanded 0 else t).pc = t.pc := by cases b <;> rfl

theorem halted_commanded_resume (t : Stream) (b : Bool) : (if b then t.commanded 1 else t).halted = (!b && t.halted) := by
  cases b <;> rfl

theorem halted_commanded_step (t : Stream) (b : Bool) : (if b then t.commanded 2 else t).halted = (!b && t.halted) := by
  cases b
  · rfl
  · cases h : t.halted <;> simp [Stream.commanded, h]

theorem stepping_commanded_step {t : Stream} {b : Bool} (hb : b = true) (h : t.halted = true) :
    (if b then t.commanded 2 else t).stepping = true := by
  simp [Stream.commanded, hb, h]

theorem debug_commands_spec (s : State) (a x : Bool) :
    let n := s.dbgsel.toNat
    let c := s.core n
    (s.ownCore n = false → ∀ i ∈ [Instr.debugHalt a x, .debugResume a x, .debugStep a x], exec i s = .next s) ∧
    (s.ownCore n = true →
      (∃ t, exec (.debugHalt a x) s = .next t ∧ (t.core n).a.halted = (a || c.a.halted) ∧
        (t.core n).x.halted = (x || c.x.halted) ∧ (∀ m, m ≠ n → t.core m = s.core m) ∧ (t.core n).a.pc = c.a.pc) ∧
      (∃ t, exec (.debugResume a x) s = .next t ∧ (t.core n).a.halted = (!a && c.a.halted) ∧
        (t.core n).x.halted = (!x && c.x.halted) ∧ ∀ m, m ≠ n → t.core m = s.core m) ∧
      (∃ t, exec (.debugStep a x) s = .next t ∧ (t.core n).a.halted = (!a && c.a.halted) ∧
        (a = true → c.a.halted = true → (t.core n).a.stepping = true) ∧
        (x = true → c.x.halted = true → (t.core n).x.stepping = true) ∧ ∀ m, m ≠ n → t.core m = s.core m)) := by
  intro n c
  have hx : exec (.debugHalt a x) s = .next (s.debug a x 0) ∧ exec (.debugResume a x) s = .next (s.debug a x 1) ∧
      exec (.debugStep a x) s = .next (s.debug a x 2) := ⟨rfl, rfl, rfl⟩
  obtain ⟨halt, resume, step⟩ := hx
  refine ⟨fun h => ?_, fun h => ⟨⟨_, halt, ?_⟩, ⟨_, resume, ?_⟩, ⟨_, step, ?_⟩⟩⟩
  · simp only [List.forall_mem_cons, halt, resume, step, debug_foreign h, List.not_mem_nil, false_imp_iff, implies_true, and_self]
  · obtain ⟨ha, hx, ho⟩ := debug_spec h a x 0
    exact ⟨ha ▸ halted_commanded_halt .., hx ▸ halted_commanded_halt .., ho, ha ▸ pc_commanded_halt ..⟩
  · obtain ⟨ha, hx, ho⟩ := debug_spec h a x 1
    exact ⟨ha ▸ halted_commanded_resume .., hx ▸ halted_commanded_resume .., ho⟩
  · obtain ⟨ha, hx, ho⟩ := debug_spec h a x 2
    exact ⟨ha ▸ halted_commanded_step .., fun h1 h2 => ha ▸ stepping_commanded_step h1 h2,
      fun h1 h2 => hx ▸ stepping_commanded_step h1 h2, ho⟩

/-! ### The debugger's data registers (17 R390) -/

theorem mergeBits_allLanes (old new : Nat) : BitVec.ofNat 1024 (mergeBits allLanes old new) = BitVec.ofNat 1024 new := by
  apply BitVec.eq_of_getLsbD_eq
  intro i hi
  rw [BitVec.getLsbD_ofNat, BitVec.getLsbD_ofNat, ← bitAt_eq, ← bitAt_eq, bitAt_mergeBits, bitAt_eq allLanes, allLanes,
    Nat.testBit_two_pow_sub_one, decide_eq_true hi, if_pos rfl]

theorem toNat_lt_of_width {w n : Nat} (x : BitVec w) (h : w = n) : x.toNat < 2 ^ n := h ▸ x.isLt

theorem toNat_ofNat_of_width {w n x : Nat} (hx : x < 2 ^ n) (h : w = n) : (BitVec.ofNat w x).toNat = x := by
  subst h; rw [BitVec.toNat_ofNat, Nat.mod_eq_of_lt hx]

/-- The registers that the debugger writes by words of 64 bits: g and s registers, v registers, and predicates of the X-stream but
p0. -/
inductive Reg.InWords : Reg → Prop
  | g (i : Nat) : InWords (.g i)
  | s (i : Nat) : InWords (.s i)
  | v (i : Nat) : InWords (.v i)
  | px {i : Nat} (h : i ≠ 0) : InWords (.px i)

/-- Bits of a register that the debugger writes by words. -/
def Reg.width : Reg → Nat
  | .v _ => 1024
  | .px _ => 128
  | _ => 64

theorem Reg.words_width {r : Reg} (h : r.InWords) : 64 * (DbgPlace.reg r).words = r.width := by cases h <;> rfl

theorem Core.reg_lt_of_inWords {r : Reg} (h : r.InWords) (c : Core) : c.reg r < 2 ^ r.width := by
  cases h with
  | g i => exact toNat_lt_of_width (tget 0 i c.g) rfl
  | s i => exact toNat_lt_of_width (tget 0 i c.s) rfl
  | v i => exact toNat_lt_of_width (tget 0 i c.v) rfl
  | px h => rw [Core.reg, if_neg h]; exact toNat_lt_of_width _ rfl

/-- A register written whole holds the value. -/
theorem Core.reg_setReg_fullMask {r : Reg} (h : r.InWords) (c : Core) {x : Nat} (hx : x < 2 ^ r.width) :
    (c.setReg r (fullMask r) x).reg r = x := by
  cases h with
  | g i => rw [Core.setReg, Core.reg, tget_tput_same]; exact toNat_ofNat_of_width hx rfl
  | s i => rw [Core.setReg, Core.reg, tget_tput_same]; exact toNat_ofNat_of_width hx rfl
  | v i => rw [Core.setReg, Core.reg, tget_tput_same, fullMask, mergeBits_allLanes]; exact toNat_ofNat_of_width hx rfl
  | px h =>
    have hm (old : Nat) : mergeMask 1 128 allOnes old x = x := (mergeMask_all 1 128 old x (Nat.le_refl 128)).trans (Nat.mod_eq_of_lt hx)
    rw [Core.setReg, if_neg h, Core.reg, if_neg h, tget_tput_same, fullMask, hm]; exact toNat_ofNat_of_width hx rfl

/-- One word of a register written, the others kept. -/
theorem Core.fld_setReg_word {r : Reg} (h : r.InWords) (c : Core) {k : Nat} (hk : k < (DbgPlace.reg r).words) (v : Word) (j : Nat) :
    fld ((c.setReg r (fullMask r) (setFld (c.reg r) (64 * k) 64 v.toNat)).reg r) (64 * j) 64 =
      if j = k then v.toNat else fld (c.reg r) (64 * j) 64 := by
  have hw := Reg.words_width h
  rw [Core.reg_setReg_fullMask h c (setFld_lt (by omega) (Core.reg_lt_of_inWords h c)), fld_setFld, Nat.mod_eq_of_lt v.isLt]

theorem Core.reg_setReg_pa (c : Core) {i : Nat} (hi : i ≠ 0) (m : Nat) (v : Word) :
    (c.setReg (.pa i) m (setFld (c.reg (.pa i)) (64 * 0) 64 v.toNat)).reg (.pa i) = v.toNat % 2 := by
  rw [Core.setReg, if_neg hi, Core.reg, if_neg hi, tget_tput_same, bitAt_zero, Nat.mul_zero, setFld_zero,
    Nat.mod_eq_of_lt v.isLt]
  omega

section
variable {s : State}

theorem dbgReg_of_class0 (h : fld s.dbgrsel.toNat 19 3 = 0) :
    s.dbgReg = if bitAt s.dbgrsel.toNat 27 then none else some (.reg (.g (fld s.dbgrsel.toNat 0 6))) := by
  simp only [State.dbgReg, h]

theorem dbgReg_of_class1 (h : fld s.dbgrsel.toNat 19 3 = 1) :
    s.dbgReg = if bitAt s.dbgrsel.toNat 27 then some (.reg (.v (fld s.dbgrsel.toNat 0 5))) else none := by
  simp only [State.dbgReg, h]

theorem dbgReg_of_class2 (h : fld s.dbgrsel.toNat 19 3 = 2) :
    s.dbgReg = some (.reg (if bitAt s.dbgrsel.toNat 27 then .px (fld s.dbgrsel.toNat 0 4) else .pa (fld s.dbgrsel.toNat 0 4))) := by
  simp only [State.dbgReg, h]

end

/-- The registers that DBGRSEL can select. -/
theorem dbgReg_reg {s : State} {r : Reg} (h : s.dbgReg = some (.reg r)) (h0 : r ≠ .px 0) (hp : ∀ i, r ≠ .pa i) : r.InWords := by
  unfold State.dbgReg at h
  dsimp only at h
  split at h
  · split at h <;> cases h; exact .g _
  · split at h <;> cases h; exact .v _
  · split at h <;> cases h
    · exact .px (fun e => h0 (by rw [e]))
    · exact absurd rfl (hp _)
  · split at h
    · cases h
    · split at h <;> cases h; exact .s _
  · cases h

/-- The word of DBGRSEL is there, in a halted stream. -/
theorem dbgReach_iff (s : State) (p : DbgPlace) : s.dbgReach p = true ↔
    ((s.core s.dbgsel.toNat).stream (bitAt s.dbgrsel.toNat 27)).halted = true ∧ fld s.dbgrsel.toNat 22 5 < p.words := by
  rw [State.dbgReach, Bool.and_eq_true, decide_eq_true_iff]

theorem writeDbgdata_none {s : State} (h : s.dbgReg = none) (v : Word) : s.writeDbgdata v = s := by
  unfold State.writeDbgdata; dsimp only; rw [h]

theorem writeDbgdata_unreached {s : State} {p : DbgPlace} (h : s.dbgReg = some p) (hr : ¬s.dbgReach p = true) (v : Word) :
    s.writeDbgdata v = s := by
  unfold State.writeDbgdata; dsimp only; rw [h]; dsimp only
  rw [if_pos (by simp [hr])]

section
variable {s : State} (v : Word)

theorem writeDbgdata_reg {r : Reg} (h : s.dbgReg = some (.reg r)) (hr : s.dbgReach (.reg r) = true) :
    s.writeDbgdata v = s.setCore s.dbgsel.toNat ((s.core s.dbgsel.toNat).setReg r (fullMask r)
      (setFld ((s.core s.dbgsel.toNat).reg r) (64 * fld s.dbgrsel.toNat 22 5) 64 v.toNat)) := by
  unfold State.writeDbgdata; dsimp only; rw [h]; dsimp only
  rw [if_neg (by simp [hr])]

theorem writeDbgdata_row {b : Nat} (h : s.dbgReg = some (.row b)) (hr : s.dbgReach (.row b) = true) :
    s.writeDbgdata v = s.setCore s.dbgsel.toNat { s.core s.dbgsel.toNat with
      t := tputs 0 (b + 8 * fld s.dbgrsel.toNat 22 5) (leBytes v.toNat 8) (s.core s.dbgsel.toNat).t } := by
  unfold State.writeDbgdata; dsimp only; rw [h]; dsimp only
  rw [if_neg (by simp [hr])]

theorem writeDbgdata_acc {e : Nat} (h : s.dbgReg = some (.acc e)) (hr : s.dbgReach (.acc e) = true) :
    s.writeDbgdata v = s.setGang (gangOf s.dbgsel.toNat) { s.gang (gangOf s.dbgsel.toNat) with
      acc := tput 0 e (BitVec.ofNat 32 v.toNat) (s.gang (gangOf s.dbgsel.toNat)).acc } := by
  unfold State.writeDbgdata; dsimp only; rw [h]; dsimp only
  rw [if_neg (by simp [hr])]

end

theorem writeDbgdata_mem (s : State) (v : Word) : (s.writeDbgdata v).mem = s.mem := by
  unfold State.writeDbgdata
  dsimp only
  split
  · split
    · rfl
    · split <;> rfl
  · rfl

theorem State.gang_setGang (s : State) (n : Nat) (g : Gang) : (s.setGang n g).gang n = g := tget_tput_same ..

theorem dbgdata_spec (s : State) (w : Writer) (v : Word) :
    let n := s.dbgsel.toNat
    let c := s.core n
    let d := s.dbgrsel.toNat
    let x := bitAt d 27
    let k := fld d 22 5
    let stands : Prop := (c.stream x).halted = true
    let acc := (s.gang (gangOf n)).acc
    (fld d 19 3 = 0 → s.dbgReg = if x then none else some (.reg (.g (fld d 0 6)))) ∧
    (fld d 19 3 = 1 → s.dbgReg = if x then some (.reg (.v (fld d 0 5))) else none) ∧
    (fld d 19 3 = 2 → s.dbgReg = some (.reg (if x then .px (fld d 0 4) else .pa (fld d 0 4)))) ∧
    ∃ t, exec (.dbgdata w v) s = .next t ∧ t.mem = s.mem ∧ (¬stands → t = s) ∧ (s.dbgReg = none → t = s) ∧
      ∀ p, s.dbgReg = some p → (p.words ≤ k → t = s) ∧ (stands → k < p.words →
        (∀ r, p = .reg r → r ≠ .px 0 → (∀ i, r ≠ .pa i) → fld ((t.core n).reg r) (64 * k) 64 = v.toNat ∧
          ∀ j, j ≠ k → fld ((t.core n).reg r) (64 * j) 64 = fld (c.reg r) (64 * j) 64) ∧
        (∀ i, p = .reg (.pa i) → i ≠ 0 → (t.core n).reg (.pa i) = v.toNat % 2) ∧
        (∀ b, p = .row b → rdLe (t.core n).t (b + 8 * k) 8 = v.toNat ∧
          ∀ j, j < b + 8 * k ∨ b + 8 * k + 8 ≤ j → tget 0 j (t.core n).t = tget 0 j c.t) ∧
        (∀ e, p = .acc e → tget 0 e (t.gang (gangOf n)).acc = BitVec.ofNat 32 v.toNat ∧
          ∀ j, j ≠ e → tget 0 j (t.gang (gangOf n)).acc = tget 0 j acc)) := by
  intro n c d x k stands acc
  have hv : v.toNat < 256 ^ 8 := v.isLt
  refine ⟨dbgReg_of_class0, dbgReg_of_class1, dbgReg_of_class2, _, exec_dbgdata s w v, writeDbgdata_mem s v, fun h => ?_, fun h => writeDbgdata_none h v,
    fun p hp => ⟨fun hk => writeDbgdata_unreached hp (fun hr => ?_) v, fun hs hk => ?_⟩⟩
  · cases hp : s.dbgReg with
    | none => exact writeDbgdata_none hp v
    | some p => exact writeDbgdata_unreached hp (fun hr => h ((dbgReach_iff s p).1 hr).1) v
  · exact absurd ((dbgReach_iff s p).1 hr).2 (Nat.not_lt.2 hk)
  have hr := (dbgReach_iff s p).2 ⟨hs, hk⟩
  refine ⟨?_, ?_, ?_, ?_⟩
  · rintro r rfl h0 hpa
    have hw := Core.fld_setReg_word (dbgReg_reg hp h0 hpa) c hk v
    rw [writeDbgdata_reg v hp hr, State.core_setCore, if_pos rfl]
    exact ⟨(hw k).trans (if_pos rfl), fun j hj => (hw j).trans (if_neg hj)⟩
  · rintro i rfl hi
    rw [writeDbgdata_reg v hp hr, State.core_setCore, if_pos rfl, show fld s.dbgrsel.toNat 22 5 = 0 from Nat.lt_one_iff.1 hk]
    exact Core.reg_setReg_pa _ hi _ v
  · rintro b rfl
    rw [writeDbgdata_row v hp hr, State.core_setCore, if_pos rfl]
    have hw := rdLe_tputs c.t (b + 8 * k) 8 v.toNat [] []
    rw [List.nil_append, List.append_nil, List.length_nil, Nat.add_zero, Nat.mod_eq_of_lt hv] at hw
    exact ⟨hw, fun j hj => tget_tputs_out _ _ _ _ _ (by rwa [leBytes_length])⟩
  · rintro e rfl
    rw [writeDbgdata_acc v hp hr, State.gang_setGang]
    exact ⟨tget_tput_same .., fun j hj => tget_tput_ne _ hj _ _⟩

/-- The state with a word of DBGIW written. -/
def State.dbgiwPut (s : State) (i : Nat) (x : Word) : State := { s with dbgiw := tput 0 i x s.dbgiw }

/-- The state with a code store on its way. -/
def State.codeStored (s : State) (n slot word : Nat) : State := { s with agenda := s.agenda ++ [.codeStore n slot (word, false)] }

@[simp] theorem State.dbgiwPut_dbgiw (s : State) (i : Nat) (x : Word) : (s.dbgiwPut i x).dbgiw = tput 0 i x s.dbgiw := rfl
@[simp] theorem State.dbgiwPut_agenda (s : State) (i : Nat) (x : Word) : (s.dbgiwPut i x).agenda = s.agenda := rfl
@[simp] theorem State.codeStored_agenda (s : State) (n slot word : Nat) :
    (s.codeStored n slot word).agenda = s.agenda ++ [.codeStore n slot (word, false)] := rfl

theorem writeDbgiw_eq (s : State) (v : Word) :
    let i := fld v.toNat 32 2
    let u := s.dbgiwPut i (BitVec.ofNat 64 (fld v.toNat 0 32))
    s.writeDbgiw v = if i = 3 then s else if i ≠ 2 then u else u.codeStored s.dbgsel.toNat (fld v.toNat 34 12)
      ((tget 0 0 u.dbgiw).toNat + 2 ^ 32 * (tget 0 1 u.dbgiw).toNat + 2 ^ 64 * (tget 0 2 u.dbgiw).toNat) := rfl

theorem dbgiw_spec (s : State) (w : Writer) (v : Word) :
    let i := fld v.toNat 32 2
    ∃ t, exec (.dbgiw w v) s = .next t ∧ (i = 3 → t = s) ∧
      (i ≠ 3 → tget 0 i t.dbgiw = BitVec.ofNat 64 (fld v.toNat 0 32) ∧ ∀ k, k ≠ i → tget 0 k t.dbgiw = tget 0 k s.dbgiw) ∧
      (i < 2 → t.agenda = s.agenda) ∧
      (i = 2 → t.agenda = s.agenda ++ [.codeStore s.dbgsel.toNat (fld v.toNat 34 12) ((tget 0 0 s.dbgiw).toNat +
        2 ^ 32 * (tget 0 1 s.dbgiw).toNat + 2 ^ 64 * fld v.toNat 0 32, false)]) := by
  intro i
  refine ⟨_, exec_dbgiw s w v, ?_⟩
  have e := writeDbgiw_eq s v
  generalize hi : fld v.toNat 32 2 = j at e
  have hx : (BitVec.ofNat 64 (fld v.toNat 0 32)).toNat = fld v.toNat 0 32 := by
    have := fld_lt v.toNat 0 32
    rw [BitVec.toNat_ofNat, Nat.mod_eq_of_lt (by omega)]
  have written (t : State) (ht : t.dbgiw = tput 0 j (BitVec.ofNat 64 (fld v.toNat 0 32)) s.dbgiw) :
      tget 0 j t.dbgiw = BitVec.ofNat 64 (fld v.toNat 0 32) ∧ ∀ k, k ≠ j → tget 0 k t.dbgiw = tget 0 k s.dbgiw := by
    rw [ht]; exact ⟨tget_tput_same .., fun k hk => tget_tput_ne _ hk _ _⟩
  rw [e, show i = j from hi]
  by_cases h3 : j = 3
  · subst h3; simp
  rw [if_neg h3]
  by_cases h2 : j = 2
  · subst h2
    rw [if_neg (by simp)]
    refine ⟨fun h => absurd h h3, fun _ => written _ rfl, fun h => absurd h (Nat.lt_irrefl 2), fun _ => ?_⟩
    rw [State.codeStored_agenda, State.dbgiwPut_agenda, State.dbgiwPut_dbgiw, tget_tput_same, tget_tput_ne _ (by decide),
      tget_tput_ne _ (by decide), hx]
  · rw [if_pos h2]
    exact ⟨fun h => absurd h h3, fun _ => written _ rfl, fun _ => rfl, fun h => absurd h h2⟩

/-! ### Islands (19 R420) -/

/-- A frequency that ISLFREQ takes for the selected cluster. -/
def State.legalFreq (s : State) (f : Nat) : Prop :=
  s.ownCluster s.islsel = true ∧ 800 ≤ f ∧ f ≤ 1800 ∧ f % 25 = 0

theorem writeIslfreq_legal {s : State} {v : Word} (h : s.legalFreq (fld v.toNat 0 11)) :
    s.writeIslfreq v = { s with islset := tput 1600 s.islsel (fld v.toNat 0 11) s.islset } := by
  obtain ⟨ho, h1, h2, h3⟩ := h
  exact if_neg (by rw [ho, h3]; simp [h1, h2])

theorem writeIslfreq_illegal {s : State} {v : Word} (h : ¬s.legalFreq (fld v.toNat 0 11)) : s.writeIslfreq v = s := by
  refine if_pos ?_
  cases ho : s.ownCluster s.islsel
  · rfl
  · have hf : ¬(800 ≤ fld v.toNat 0 11 ∧ fld v.toNat 0 11 ≤ 1800 ∧ fld v.toNat 0 11 % 25 = 0) := fun k => h ⟨ho, k⟩
    simp only [Bool.not_true, Bool.false_or, Bool.or_eq_true, decide_eq_true_eq, bne_iff_ne]
    omega

/-- An island of the partition runs at the lower of SET and CAP. -/
theorem islfreqOf_own {s : State} {cl set cap : Nat} (h : s.ownCluster cl = true) (hs : tget 1600 cl s.islset = set)
    (hc : tget 1800 cl s.islcap = cap) : s.islfreqOf cl = set + 2 ^ 16 * cap + 2 ^ 32 * min set cap := by
  subst hs hc; exact if_pos h

theorem islfreq_spec (s : State) (w : Writer) (v : Word) :
    let f := fld v.toNat 0 11
    let cap := tget 1800 s.islsel s.islcap
    (¬s.legalFreq f → exec (.islfreq w v) s = .next s) ∧
    (s.legalFreq f → ∃ t, exec (.islfreq w v) s = .next t ∧
      t.islfreqOf s.islsel = f + 2 ^ 16 * cap + 2 ^ 32 * min f cap ∧ t.cores = s.cores) := by
  intro f cap
  rw [exec_islfreq]
  refine ⟨fun h => by rw [writeIslfreq_illegal h], fun h => ⟨_, rfl, ?_⟩⟩
  rw [writeIslfreq_legal h]
  exact ⟨islfreqOf_own h.1 (tget_tput_same ..) rfl, rfl⟩

theorem islandCapChange_spec (s : State) (cl mhz : Nat) :
    (s.ownCluster cl = false → exec (.islandCapChange cl mhz) s = .next s) ∧
    (s.ownCluster cl = true → ∃ t, exec (.islandCapChange cl mhz) s = .next t ∧
      let set := tget 1600 cl s.islset
      t.islfreqOf cl = set + 2 ^ 16 * (mhz % 2 ^ 11) + 2 ^ 32 * min set (mhz % 2 ^ 11)) := by
  have hx : exec (.islandCapChange cl mhz) s =
      .next (if s.ownCluster cl then { s with islcap := tput 1800 cl (mhz % 2 ^ 11) s.islcap } else s) := rfl
  rw [hx]
  refine ⟨fun h => by rw [if_neg (by rw [h]; decide)], fun h => ⟨_, rfl, ?_⟩⟩
  rw [if_pos h]
  exact islfreqOf_own h rfl (tget_tput_same ..)

/-! ### Checkpoint reels (19 R426) -/

/-- A reel may start: none is in progress, and every task, resident or saved, waits at the held, closed cut. -/
def State.reelFree (s : State) : Prop :=
  s.reel = none ∧ (∀ e ∈ s.cores, ∀ k, e.2.task = some k → s.atHeldCut e.1 k = true) ∧
    ∀ r ∈ s.runs, ∀ p, r.saved = some p → ∀ e ∈ p.2, s.savedAtCut r e.2 = true

theorem reelFree_iff (s : State) :
    (s.reel.isSome || !(s.cores.all (fun e => e.2.task.all (s.atHeldCut e.1)) &&
      s.runs.all (fun r => r.saved.all (fun p => p.2.all (fun e => s.savedAtCut r e.2))))) = true ↔ ¬s.reelFree := by
  rw [Bool.or_eq_true, Bool.not_eq_true', ← Bool.not_eq_true, Bool.and_eq_true]
  simp only [List.all_eq_true, Option.all_eq_true, State.reelFree, ← Option.not_isSome_iff_eq_none]
  tauto

theorem writeReelctl_idle {s : State} {v : Word} (h : v.getLsbD 0 = false) : s.writeReelctl v = some s := by
  rw [← bitAt_toNat] at h
  exact if_pos (by rw [h]; rfl)

theorem writeReelctl_refused {s : State} {v : Word} (h : v.getLsbD 0 = true) (hf : ¬s.reelFree) :
    s.writeReelctl v = some { s with reelst := 3 } := by
  rw [← bitAt_toNat] at h
  unfold State.writeReelctl
  dsimp only
  rw [if_neg (by rw [h]; decide), if_pos ((reelFree_iff s).2 hf)]

/-- The state in which a reel has started. -/
def State.reelStarted (s : State) (r : ReelRun) : State := { s with reel := some r, reelst := 0 }

theorem writeReelctl_starts {s u y z : State} {v : Word} {hd bs : List Byte} (h : v.getLsbD 0 = true) (hf : s.reelFree)
    (hh : (s.touch s.reeldesc.toNat).rawBytes 5 0 0 s.reeldesc.toNat 16 = (hd, u))
    (hb : (u.touch (s.reeldesc.toNat + 16)).rawBytes 5 0 0 (s.reeldesc.toNat + 16) (16 * fieldOf hd 2 2) = (bs, y))
    (hg : ¬(fieldOf hd 0 2 ≠ 1 ∨ fieldOf hd 2 2 = 0 ∨ 1024 < fieldOf hd 2 2 ∨ fieldOf hd 6 2 ≠ 0 ∨ fieldOf hd 8 8 % 4096 ≠ 0 ∨
      2 ^ 57 ≤ fieldOf hd 8 8 ∨ fieldOf hd 8 8 / 2 ^ 45 = u.peerid)) :
    let rs := (upFrom 0 (fieldOf hd 2 2)).map (fun i => (fieldOf bs (16 * i) 8, fieldOf bs (16 * i + 8) 8))
    (∀ r ∈ rs, r.1 % 4096 = 0 ∧ r.2 % 4096 = 0) → regionsRead (y.unitAsker (fieldOf hd 4 2)) rs y = (some true, z) →
    s.writeReelctl v = some (z.reelStarted { dest := fieldOf hd 8 8, regions := rs, space := fieldOf hd 4 2 }) := by
  intro rs ha hr
  rw [← bitAt_toNat] at h
  have hn : (rs.any fun r => r.1 % 4096 != 0 || r.2 % 4096 != 0) = false := by
    rw [List.any_eq_false]
    intro r hm
    obtain ⟨h1, h2⟩ := ha r hm
    simp [h1, h2]
  unfold State.writeReelctl
  dsimp only
  rw [if_neg (by rw [h]; decide), if_neg (fun hc => (reelFree_iff s).1 hc hf), hh]
  dsimp only
  rw [if_neg hg, hb]
  dsimp only
  rw [if_neg (Bool.eq_false_iff.1 hn), hr]
  rfl

theorem reelctlGo_spec (s : State) (w : Writer) (v : Word) :
    let a := s.reeldesc.toNat
    (v.getLsbD 0 = false → exec (.reelctlGo w v) s = .next s) ∧
    (v.getLsbD 0 = true → ¬s.reelFree → exec (.reelctlGo w v) s = .next { s with reelst := 3 }) ∧
    (∀ hd u bs y z, v.getLsbD 0 = true → s.reelFree → (s.touch a).rawBytes 5 0 0 a 16 = (hd, u) →
      let n := fieldOf hd 2 2
      let dest := fieldOf hd 8 8
      (u.touch (a + 16)).rawBytes 5 0 0 (a + 16) (16 * n) = (bs, y) → fieldOf hd 0 2 = 1 → 1 ≤ n → n ≤ 1024 →
      fieldOf hd 6 2 = 0 → dest % 4096 = 0 → dest < 2 ^ 57 → dest / 2 ^ 45 ≠ u.peerid →
      let rs := (upFrom 0 n).map (fun i => (fieldOf bs (16 * i) 8, fieldOf bs (16 * i + 8) 8))
      (∀ r ∈ rs, r.1 % 4096 = 0 ∧ r.2 % 4096 = 0) → regionsRead (y.unitAsker (fieldOf hd 4 2)) rs y = (some true, z) →
      ∃ t, exec (.reelctlGo w v) s = .next t ∧ t.reelst = 0 ∧
        t.reel = some { dest := dest, regions := rs, space := fieldOf hd 4 2 }) := by
  intro a
  rw [exec_reelctlGo]
  refine ⟨fun h => ?_, fun h hf => ?_, ?_⟩
  · rw [writeReelctl_idle h, Option.getD_some]
  · rw [writeReelctl_refused h hf, Option.getD_some]
  · intro hd u bs y z h hf hh n dest hb h1 h2 h3 h4 h5 h6 h7 rs ha hr
    have hg : ¬(fieldOf hd 0 2 ≠ 1 ∨ n = 0 ∨ 1024 < n ∨ fieldOf hd 6 2 ≠ 0 ∨ dest % 4096 ≠ 0 ∨ 2 ^ 57 ≤ dest ∨
        dest / 2 ^ 45 = u.peerid) := by
      rintro (k | k | k | k | k | k | k)
      · exact k h1
      · omega
      · omega
      · exact k h4
      · exact k h5
      · omega
      · exact h7 k
    rw [writeReelctl_starts h hf hh hb hg ha hr, Option.getD_some]
    exact ⟨_, rfl, rfl, rfl⟩

/-- A table read at a key that entries behind it do not have. -/
theorem tget_append {α : Type} (d : α) (k : Nat) (t u : Table α) (h : ∀ e ∈ u, e.1 ≠ k) : tget d k (t ++ u) = tget d k t := by
  induction t with
  | nil =>
    induction u with
    | nil => rfl
    | cons e u ih =>
      simp only [List.nil_append, tget, if_neg (h e List.mem_cons_self)]
      exact ih (fun e he => h e (List.mem_cons_of_mem _ he))
  | cons e t ih => rw [List.cons_append, tget, ih, tget]

/-- The pages of a reel stand at their offsets and above. -/
theorem reelPages_keys {q : Asker} {b : Nat} {vas : List Nat} {off k n : Nat} {acc data : Table Byte} {s u : State}
    (h : reelPages q vas off acc k s = some (data, n, u)) (hb : b ≤ off) (ha : ∀ e ∈ acc, b ≤ e.1) : ∀ e ∈ data, b ≤ e.1 := by
  induction vas generalizing off acc k s with
  | nil => cases h; exact ha
  | cons va vas ih =>
    rw [reelPages] at h
    split at h
    · cases h
    · refine ih h (by omega) (fun e he => ?_)
      rcases List.mem_append.1 he with he | he
      · exact ha e he
      · obtain ⟨f, -, rfl⟩ := List.mem_map.1 he
        exact Nat.le_trans hb (Nat.le_add_right ..)

theorem drawBytes_cuthold (n : Nat) (s : State) : (drawBytes n s).2.cuthold = s.cuthold := by
  induction n generalizing s with
  | zero => rfl
  | succ n ih => exact ih _

theorem reelSlate_cuthold (s : State) (n : Nat) : (s.reelSlate n).2.cuthold = s.cuthold := by
  unfold State.reelSlate
  split
  · rfl
  · exact drawBytes_cuthold 10 s

/-- The contents of a reel: its header, its task records and its pages. -/
def reelBody (regions hold drops : Nat) (slate recs : List Byte) (data : Table Byte) : Table Byte :=
  tputs 0 0 (leBytes 1 2 ++ leBytes regions 2 ++ leBytes hold 4 ++ slate ++ leBytes drops 8) (tputs 0 64 recs []) ++ data

/-- VERSION, NREG and TAKE of a reel's header. -/
theorem reelBody_header (regions hold drops : Nat) (slate recs : List Byte) {data : Table Byte} (h : ∀ e ∈ data, 8 ≤ e.1) :
    rdLe (reelBody regions hold drops slate recs data) 0 2 = 1 ∧
    rdLe (reelBody regions hold drops slate recs data) 2 2 = regions % 2 ^ 16 ∧
    rdLe (reelBody regions hold drops slate recs data) 4 4 = hold % 2 ^ 32 := by
  have head (off n : Nat) (hn : off + n ≤ 8) : rdLe (reelBody regions hold drops slate recs data) off n =
      rdLe (tputs 0 0 (leBytes 1 2 ++ leBytes regions 2 ++ leBytes hold 4 ++ slate ++ leBytes drops 8) (tputs 0 64 recs [])) off n :=
    rdLe_congr fun k _ hk => tget_append _ _ _ _ fun e he => by have := h e he; omega
  rw [head 0 2 (by decide), head 2 2 (by decide), head 4 4 (by decide)]
  generalize tputs 0 64 recs [] = t
  have version := rdLe_tputs t 0 2 1 [] (leBytes regions 2 ++ leBytes hold 4 ++ slate ++ leBytes drops 8)
  have nreg := rdLe_tputs t 0 2 regions (leBytes 1 2) (leBytes hold 4 ++ slate ++ leBytes drops 8)
  have take := rdLe_tputs t 0 4 hold (leBytes 1 2 ++ leBytes regions 2) (slate ++ leBytes drops 8)
  simp only [List.nil_append, List.append_assoc, List.length_append, List.length_nil, leBytes_length, Nat.zero_add] at version nreg take ⊢
  exact ⟨version, nreg, take⟩

/-- The state in which a reel has ended. -/
def State.reelEnded (s : State) (status : Nat) (out : HostOut) : State :=
  ({ s with reel := none, reelst := status, hostOut := s.hostOut ++ [out] } : State).interrupt 2

section
variable (s : State) (status : Nat) (out : HostOut)
theorem State.reelEnded_reel : (s.reelEnded status out).reel = none := rfl
theorem State.reelEnded_reelst : (s.reelEnded status out).reelst = status := rfl
theorem State.reelEnded_out : out ∈ (s.reelEnded status out).hostOut :=
  List.mem_append_left _ (List.mem_append_right _ List.mem_cons_self)
theorem State.reelEnded_intpend : (s.reelEnded status out).intpend.getLsbD 2 = true := by
  show (s.intpend ||| (1#4 <<< 2)).getLsbD 2 = true
  rw [BitVec.getLsbD_or]; simp
end

theorem reelEnd_spec (s : State) : (s.reel = none → exec .reelEnd s = .next s) ∧
    ∀ r data drops u, s.reel = some r →
      let start := (64 + 24 * s.reelTasks.length + 4095) / 4096 * 4096
      let pages := r.regions.flatMap (fun p => (upFrom 0 (p.2 / 4096)).map (fun i => p.1 + 4096 * i))
      reelPages (s.unitAsker r.space) pages start [] 0 s = some (data, drops, u) →
      ∃ t body, exec .reelEnd s = .next t ∧ t.reel = none ∧ t.reelst = (if drops = 0 then 1 else 2) ∧
        t.intpend.getLsbD 2 = true ∧ HostOut.reel r.dest (start + 4096 * pages.length) body ∈ t.hostOut ∧
        rdLe body 0 2 = 1 ∧ rdLe body 2 2 = r.regions.length % 2 ^ 16 ∧
        rdLe body 4 4 = fld u.cuthold.toNat 0 32 := by
  have hx : exec .reelEnd s = execReelEnd s := rfl
  rw [hx]
  unfold execReelEnd
  refine ⟨fun h => by rw [h], ?_⟩
  intro r data drops u h start pages hp
  have hs : 8 ≤ start := by simp only [start]; omega
  rw [h]
  dsimp only
  rw [hp]
  dsimp only
  have hc := reelSlate_cuthold u s.reelTasks.length
  generalize u.reelSlate s.reelTasks.length = y at hc
  obtain ⟨slate, z⟩ := y
  obtain ⟨h1, h2, h3⟩ := reelBody_header r.regions.length (fld z.cuthold.toNat 0 32) drops slate
    (s.reelTasks.flatMap (fun t => leBytes t.1 8 ++ leBytes t.2.1 8 ++ leBytes t.2.2.1 4 ++ leBytes t.2.2.2 4))
    (reelPages_keys hp hs (by simp))
  refine ⟨_, _, rfl, State.reelEnded_reel .., State.reelEnded_reelst .., State.reelEnded_intpend .., State.reelEnded_out .., h1, h2, ?_⟩
  exact h3.trans (by rw [hc, Nat.mod_eq_of_lt (fld_lt ..)])

/-! ### ERROR_CLASS traps (16 R374) -/

theorem Core.setReg_task_level (c : Core) (q : Reg) (m v : Nat) :
    (c.setReg q m v).task = c.task ∧ (c.setReg q m v).level = c.level := by
  cases q with
  | pa i => rw [Core.setReg]; split <;> exact ⟨rfl, rfl⟩
  | px i => rw [Core.setReg]; split <;> exact ⟨rfl, rfl⟩
  | _ => exact ⟨rfl, rfl⟩

/-- What a core sameTask while results land in it: its task, its level and the slots of its streams. -/
def Core.sameTask (c d : Core) : Prop := d.task = c.task ∧ d.level = c.level ∧ ∀ x, (d.stream x).pc = (c.stream x).pc

theorem Core.sameTask_trans {c d e : Core} (h : c.sameTask d) (k : d.sameTask e) : c.sameTask e := by
  obtain ⟨h1, h2, h3⟩ := h
  obtain ⟨k1, k2, k3⟩ := k
  exact ⟨k1.trans h1, k2.trans h2, fun x => (k3 x).trans (h3 x)⟩

theorem Core.sameTask_foldl_setReg (ls : List Landing) (c : Core) :
    c.sameTask (ls.foldl (fun c l => c.setReg l.dst l.mask l.val) c) := by
  induction ls generalizing c with
  | nil => exact ⟨rfl, rfl, fun _ => rfl⟩
  | cons l ls ih =>
    obtain ⟨ht, hl⟩ := Core.setReg_task_level c l.dst l.mask l.val
    have hs := (Core.setReg_rest c l.dst l.mask l.val).2
    exact Core.sameTask_trans ⟨ht, hl, fun x => by rw [hs]⟩ (ih _)

theorem Core.sameTask_land (c : Core) (x : Bool) (t : Nat) : c.sameTask (c.land x t) := by
  obtain ⟨ht, hl, hs⟩ := Core.sameTask_foldl_setReg ((c.stream x).landings.filter (fun l => decide (l.lands ≤ t))) c
  refine ⟨?_, ?_, fun y => ?_⟩
  · rw [← ht]; exact Core.setStream_task ..
  · rw [← hl]; exact Core.setStream_level ..
  · rw [← hs y]
    unfold Core.land
    dsimp only
    rw [Core.stream_setStream]
    split
    · subst_vars; rfl
    · rfl

theorem Core.sameTask_at' (c : Core) (t : Nat) : c.sameTask (c.at' t) :=
  Core.sameTask_trans (Core.sameTask_trans (Core.sameTask_land c false (t - 1)) (Core.sameTask_land _ true (t - 1)))
    ⟨rfl, rfl, fun x => by cases x <;> rfl⟩

theorem Core.svGet_svPut (c : Core) (n m : Nat) (v : Word) : (c.svPut n v).svGet m = if m = n then v else c.svGet m := by
  split
  · subst_vars; exact tget_tput_same ..
  · exact tget_tput_ne _ ‹_› _ _

@[simp] theorem Core.svPut_task (c : Core) (n : Nat) (v : Word) : (c.svPut n v).task = c.task := rfl
@[simp] theorem Core.svPut_cyc (c : Core) (n : Nat) (v : Word) : (c.svPut n v).cyc = c.cyc := rfl

/-- A core with the registers written that a trap of the A-stream writes (16 R362). -/
def Core.trapRegs (c : Core) (cause code mask info : Nat) : Core :=
  ((((c.svPut 2 (BitVec.ofNat 64 c.a.pc)).svPut 3 (BitVec.ofNat 64 (c.x.pc + 2 ^ 12 * b01 c.x.run))).svPut 4
    (BitVec.ofNat 64 (causeWord cause false code mask))).svPut 5 (BitVec.ofNat 64 info)).svPut 8 (BitVec.ofNat 64 c.predWord)

theorem Core.svGet_trapRegs (c : Core) (cause code mask info : Nat) :
    (c.trapRegs cause code mask info).svGet 4 = BitVec.ofNat 64 (causeWord cause false code mask) ∧
    (c.trapRegs cause code mask info).svGet 5 = BitVec.ofNat 64 info ∧
    (c.trapRegs cause code mask info).svGet 2 = BitVec.ofNat 64 c.a.pc := by
  unfold Core.trapRegs
  refine ⟨?_, ?_, ?_⟩ <;> simp only [Core.svGet_svPut] <;> rfl

theorem Core.svGet_enterTrap (c : Core) (cause code mask info m : Nat) :
    (c.enterTrap false cause code mask info).svGet m = (c.trapRegs cause code mask info).svGet m := by
  unfold Core.enterTrap Core.svGet Core.trapRegs
  dsimp only

/-- The task of a core that has taken a trap: its watchdog stands, and it waits neither at TEND nor at a safe point (16 R362). -/
def Core.heldTask (c : Core) (t : Task) : Task :=
  { t with watch := none, ending := false, safe := none, watchHeld := (t.watch.map (fun w => c.cyc - w)).or t.watchHeld }

theorem Core.enterTrap_task (c : Core) (x : Bool) (cause code mask info : Nat) :
    (c.enterTrap x cause code mask info).task = c.task.map c.heldTask := by
  unfold Core.enterTrap
  dsimp only
  simp only [Core.svPut_task, Core.svPut_cyc]
  rfl

/-- A trap at level T of a compute core. -/
theorem trapOn_user {s : State} {n : Nat} (hub : isHub n = false) (hl : (s.core n).level ≠ .s) (x : Bool) (cause code mask info : Nat) :
    (s.trapOn n x cause code mask info).core n = (s.core n).enterTrap x cause code mask info ∧
    (s.trapOn n x cause code mask info).mem = s.mem := by
  have e : s.trapOn n x cause code mask info =
      ((s.dropRequest (s.core n).a).dropRequest (s.core n).x).setCore n ((s.core n).enterTrap x cause code mask info) := by
    unfold State.trapOn
    dsimp only
    rw [if_neg (by rw [hub]; decide), if_neg hl]
  have hm (u : State) (t : Stream) : (u.dropRequest t).mem = u.mem := by unfold State.dropRequest; split <;> rfl
  rw [e]
  exact ⟨by rw [State.core_setCore, if_pos rfl], by rw [State.setCore_mem, hm, hm]⟩

theorem errorDue_level {s : State} {n cls seq : Nat} (h : s.errorDue n = some (cls, seq)) : (s.core n).level = .t := by
  unfold State.errorDue at h
  dsimp only at h
  split at h
  · next hc => exact hc.1
  · cases h

theorem causeWord_a (cause code : Nat) : causeWord cause false code 0 = cause + 2 ^ 16 * (code % 2 ^ 16) := by
  simp [causeWord, b01]

theorem errorClass_spec (s : State) (n : Nat) : (s.errorDue n = none → exec (.errorClass n) s = .next s) ∧
    (∀ cls seq, s.errorDue n = some (cls, seq) → isHub n = false → ∃ t, exec (.errorClass n) s = .next t ∧
      (t.core n).level = .s ∧ (t.core n).svGet 4 = BitVec.ofNat 64 (0x25 + 2 ^ 16 * (cls % 2 ^ 16)) ∧
      (t.core n).svGet 5 = BitVec.ofNat 64 seq ∧ (t.core n).svGet 2 = BitVec.ofNat 64 (s.core n).a.pc ∧
      (∀ k, (s.core n).task = some k → ∃ q, (t.core n).task = some q ∧ q.errTraps = k.errTraps.tail) ∧ t.mem = s.mem) := by
  have hx : exec (.errorClass n) s = execErrorClass n s := rfl
  rw [hx]
  unfold execErrorClass
  refine ⟨fun h => by rw [h], fun cls seq h hub => ?_⟩
  have hl := errorDue_level h
  rw [h]
  dsimp only
  generalize hu : s.mapTask n (fun t => { t with errTraps := t.errTraps.tail }) = u
  have hc : u.core n = { s.core n with task := (s.core n).task.map (fun t => { t with errTraps := t.errTraps.tail }) } := by
    rw [← hu, State.mapTask, State.core_setCore, if_pos rfl]
  obtain ⟨kt, kl, ks⟩ := Core.sameTask_at' (u.core n) ((u.core n).issueAt false)
  generalize hd : (u.core n).at' ((u.core n).issueAt false) = d at kt kl ks
  have hd' : (u.setCore n d).core n = d := by rw [State.core_setCore, if_pos rfl]
  obtain ⟨ht, hm⟩ := trapOn_user (s := u.setCore n d) hub (by rw [hd', kl, hc]; simp [hl]) false 0x25 cls 0 seq
  rw [hd'] at ht
  obtain ⟨h4, h5, h2⟩ := Core.svGet_trapRegs d 0x25 cls 0 seq
  refine ⟨_, rfl, ?_, ?_, ?_, ?_, fun k hk => ?_, ?_⟩
  · rw [ht]; rfl
  · rw [ht, Core.svGet_enterTrap, h4, causeWord_a]
  · rw [ht, Core.svGet_enterTrap, h5]
  · rw [ht, Core.svGet_enterTrap, h2, show d.a.pc = (u.core n).a.pc from ks false, hc]
  · rw [ht, Core.enterTrap_task, kt, hc]
    dsimp only
    rw [hk]
    exact ⟨_, rfl, rfl⟩
  · rw [hm, State.setCore_mem, ← hu]; rfl

/-! ### The statement (16 R359, R370 to R374, 17 R378, R390, R391, 19 R415 to R426) -/

/-- Settles O58: each register write, register read and event of the debugger, the islands, the reel and the error traps does what
its own lemma above says. -/
theorem registerAndDebugEventResults : Obligations.RegisterAndDebugEventResults := by
  intro s w v
  exact ⟨registerWrite_plain s w v, fun i hi => registerWrite_rdap s w v hi, registerWrite_identity s w v,
    registerWrite_conditional s w v, registerWrite_tflog0 s w v, registerWrite_intpend s w v, cuthold_spec s w v, xcl_spec s w v,
    errsw_spec s w v, clearingReads_spec s, qcclr_spec s w v, mbpost_spec s w v, debug_commands_spec s, dbgdata_spec s w v,
    dbgiw_spec s w v, islfreq_spec s w v, islandCapChange_spec s, reelctlGo_spec s w v, reelEnd_spec s, errorClass_spec s⟩

end Sys2Proof.Machine
end

section
/-! PROOFS. What the launch unit's own work changes of a state: its reads of memory, the records and messages it makes, and how
its storyboards go on (02 R34, R52 to R58, 16 R371, 18 R393). -/

namespace Sys2Proof.Machine

/-! ### Reads of memory -/

/-- Of a state only what a read by an engine changes: draws, translation stores, accessed bits and error records in memory, and
the fault log. -/
def onlyReads (s t : State) : Prop :=
  { t with drawn := s.drawn, hole := s.hole, tlb := s.tlb, walks := s.walks, mem := s.mem, errhead := s.errhead,
           errlost := s.errlost, drops := s.drops, intpend := s.intpend, hostOut := s.hostOut, tflog0 := s.tflog0,
           tflog1 := s.tflog1, tflog2 := s.tflog2, tflog3 := s.tflog3, tflogAt := s.tflogAt } = s

theorem onlyReads_refl (s : State) : onlyReads s s := rfl

theorem onlyReads_trans {s t u : State} (h : onlyReads s t) (k : onlyReads t u) : onlyReads s u := by
  unfold onlyReads at *
  rw [← h]; conv_rhs => rw [← k]

theorem onlyReads_touch (s : State) (a : Nat) : onlyReads s (s.touch a) := by
  obtain ⟨h, e⟩ := s.touch_eq a; rw [e]; rfl

theorem onlyReads_errRecord (s : State) (kind : Nat) (drop : Bool) (code : Nat) (cx : Ctx) (addr d0 d1 : Nat) :
    onlyReads s (s.errRecord kind drop code cx addr d0 d1) := by
  by_cases h : s.ringFull
  · rw [errRecord_full h]; rfl
  · obtain ⟨_, _, _, e⟩ := errRecord_room h kind drop code cx addr d0 d1
    rw [e]; rfl

/-- A change of the tasks that a test picks changes nothing where it picks none. -/
theorem mapTasks_none {s : State} {p : Nat → Task → Bool} (h : ∀ n t, p n t = false) (f : Task → Task) : s.mapTasks p f = s := by
  have hid : ∀ t : Option Task, t.map (fun q => q) = t := fun t => by cases t <;> rfl
  have hl (l : List (Nat × Task)) : l.map (fun e => (e.1, e.2)) = l := List.map_id' l
  have hs : ∀ q : Option (Nat × List (Nat × Task)), q.map (fun q => (q.1, q.2.map (fun e => (e.1, e.2)))) = q := fun q => by
    cases q with
    | none => rfl
    | some q => simp only [Option.map_some, hl]
  simp only [State.mapTasks, h, Bool.false_eq_true, if_false, hid, hs]
  show { s with cores := s.cores.map (fun e => e), runs := s.runs.map (fun r => r) } = s
  rw [List.map_id', List.map_id']

/-- A record of damaged memory that names no task traps none. -/
theorem onlyReads_uncorr (s : State) (code : Nat) {cx : Ctx} (h : code ≤ 1 → cx.task = false) (va lpa d1 : Nat) :
    onlyReads s (s.uncorr code cx va lpa d1) := by
  unfold State.uncorr
  split
  · next hc =>
    unfold State.errTask State.errClass State.classTrap
    split
    · rw [mapTasks_none (fun n t => by simp [State.named, h hc])]
      exact onlyReads_errRecord ..
    · exact onlyReads_errRecord ..
  · exact onlyReads_errRecord ..

/-- Steps that each only read, one after another. -/
theorem onlyReads_foldl {α : Type} (f : State → α → State) (h : ∀ s a, onlyReads s (f s a)) (l : List α) (s : State) :
    onlyReads s (l.foldl f s) :=
  List.foldlRecOn l f (onlyReads_refl s) (fun _ k a _ => onlyReads_trans k (h _ a))

theorem onlyReads_rawBytes (s : State) (code d1 va a n : Nat) : onlyReads s (s.rawBytes code d1 va a n).2 :=
  onlyReads_foldl _ (fun _ _ => onlyReads_uncorr _ _ (fun _ => rfl) ..) _ _

theorem onlyReads_readEntry (s : State) (q : Asker) (va a : Nat) : onlyReads s (s.readEntry q va a).2 := by
  unfold State.readEntry
  dsimp only
  split
  · exact onlyReads_touch ..
  · split
    · exact onlyReads_trans (onlyReads_touch s a) (onlyReads_uncorr _ _ (fun h => absurd h (by decide)) ..)
    · exact onlyReads_touch ..

theorem onlyReads_walkFrom (q : Asker) (va f level table : Nat) (path : List (Nat × Word)) (s : State) :
    onlyReads s (walkFrom q va f level table path s).2 := by
  induction f generalizing level table path s with
  | zero => exact onlyReads_refl s
  | succ f ih =>
    have hr := onlyReads_readEntry s q va (table + 8 * fld va (48 - 9 * level) 9)
    unfold walkFrom
    dsimp only
    split
    · next h => rw [h] at hr; exact hr
    · next h =>
      rw [h] at hr
      split
      · exact hr
      · exact hr
      · exact hr
      · exact onlyReads_trans hr (ih ..)

theorem onlyReads_cachedWalk (q : Asker) (va : Nat) (s : State) (ls : List Nat) : onlyReads s (cachedWalk q va s ls).2 := by
  induction ls generalizing s with
  | nil => exact onlyReads_refl s
  | cons l ls ih =>
    unfold cachedWalk
    split
    · dsimp only
      split
      · rfl
      · exact onlyReads_trans (t := s.draw.2) rfl (ih _)
    · exact ih _

theorem onlyReads_walk (s : State) (q : Asker) (va : Nat) : onlyReads s (s.walk q va).2 := by
  have hc := onlyReads_cachedWalk q va s walkLevels
  unfold State.walk
  split
  · next h => rw [h] at hc; exact onlyReads_trans hc (onlyReads_walkFrom ..)
  · next h => rw [h] at hc; exact onlyReads_trans hc (onlyReads_walkFrom ..)
  · next s' h =>
    rw [h] at hc
    split
    · exact hc
    · have hr := onlyReads_readEntry s' q va (s'.sptbase.toNat + 8 * q.space)
      dsimp only
      split
      · next k => rw [k] at hr; exact onlyReads_trans hc hr
      · next k =>
        rw [k] at hr
        have h' := onlyReads_trans hc hr
        split
        · exact h'
        · split
          · exact h'
          · exact onlyReads_trans h' (onlyReads_walkFrom ..)

theorem onlyReads_orEntries (s : State) (pos bit n : Nat) : onlyReads s (s.orEntries pos bit n) := by
  induction n generalizing s pos with
  | zero => exact onlyReads_refl s
  | succ n ih =>
    unfold State.orEntries
    dsimp only
    split
    · exact ih ..
    · exact onlyReads_trans (t := s.memPut pos _) rfl (ih ..)

theorem onlyReads_install (s : State) (q : Asker) (va : Nat) (t : TlbEntry) (path : List (Nat × Word)) :
    onlyReads s (s.install q va t path) := by
  unfold State.install
  dsimp only
  split
  · rfl
  · refine onlyReads_trans (t := _) ?_ (onlyReads_orEntries ..)
    rfl

theorem onlyReads_walked (s : State) (q : Asker) (va : Nat) (e : Word) (level pos : Nat) (path : List (Nat × Word)) :
    onlyReads s (s.walked q va e level pos path).2 := by
  unfold State.walked
  dsimp only
  split
  · exact onlyReads_trans (onlyReads_foldl _ (fun _ _ => onlyReads_uncorr _ _ (fun h => absurd h (by decide)) ..) _ _)
      (onlyReads_install ..)
  · exact onlyReads_install ..

/-- A translation only reads (18 R395, R404). -/
theorem onlyReads_translate (s : State) (q : Asker) (va : Nat) : onlyReads s (s.translate q va).2 := by
  unfold State.translate
  split
  · exact onlyReads_refl s
  · have hd : onlyReads s s.draw.2 := rfl
    dsimp only
    split
    · exact hd
    · have hw := onlyReads_trans hd (onlyReads_walk s.draw.2 q va)
      split
      · next h => rw [h] at hw; exact onlyReads_trans hw (onlyReads_walked ..)
      · next h => rw [h] at hw; exact hw
      · next h => rw [h] at hw; exact hw

theorem onlyReads_translateFor (s : State) (n va : Nat) : onlyReads s (s.translateFor n va).2 := by
  unfold State.translateFor
  split
  · split
    · exact onlyReads_refl s
    · exact onlyReads_touch ..
  · exact onlyReads_translate ..

theorem onlyReads_logFault (s : State) (q : Asker) (kind level va : Nat) (wr : Bool) (pos : Nat) (e : Word) :
    onlyReads s (s.logFault q kind level va wr pos e) := by
  unfold State.logFault; split <;> rfl

theorem onlyReads_reach {s : State} (q : Asker) (va : Nat) (rd wr : Bool) {r : Xlated × State} (h : onlyReads s r.2) :
    onlyReads s (reach q va rd wr r).2 := by
  obtain ⟨x, u⟩ := r
  cases x with
  | wait => exact h
  | fault => exact onlyReads_trans h (onlyReads_logFault ..)
  | page t =>
    unfold reach
    dsimp only
    split
    · exact h
    · exact onlyReads_trans h (onlyReads_logFault ..)
    · exact h

theorem onlyReads_reachEngine {s : State} (q : Asker) (va : Nat) (rd wr : Bool) {r : Xlated × State} (h : onlyReads s r.2) :
    onlyReads s (reachEngine q va rd wr r).2 := by
  unfold reachEngine
  split
  · split
    · exact h
    · exact onlyReads_reach q va rd wr h
  · exact onlyReads_reach q va rd wr h

theorem onlyReads_readSpan (q : Asker) (f va n : Nat) (acc : List Byte) (s : State) : onlyReads s (readSpan q f va n acc s).2 := by
  induction f generalizing va n acc s with
  | zero => exact onlyReads_refl s
  | succ f ih =>
    have hr := onlyReads_reachEngine q va true false (onlyReads_translate s q va)
    unfold readSpan
    dsimp only
    split
    · exact onlyReads_refl s
    · split
      · next h => rw [h] at hr; exact hr
      · next h => rw [h] at hr; exact hr
      · next h =>
        rw [h] at hr
        split
        · exact hr
        · split
          · exact hr
          · exact onlyReads_trans (onlyReads_trans hr (onlyReads_rawBytes ..)) (ih ..)

/-- A span of memory read by the launch unit (18 R393). -/
theorem onlyReads_span (s : State) (space va n : Nat) : onlyReads s (s.span space va n).2 := onlyReads_readSpan ..

theorem onlyReads_markDirty (s : State) (t : TlbEntry) : onlyReads s (s.markDirty t) := by
  unfold State.markDirty
  split
  · exact onlyReads_refl s
  · exact onlyReads_trans (onlyReads_orEntries s t.at0 6 t.n) rfl

/-! ### The work of the launch unit -/

/-- Of a state only what the launch unit changes at a submission or a completion: what a read changes, what is sent, requests with
the numbers of the hub's writes, and the storyboards. -/
def onlyUnit (s t : State) : Prop :=
  { t with drawn := s.drawn, hole := s.hole, tlb := s.tlb, walks := s.walks, mem := s.mem, errhead := s.errhead,
           errlost := s.errlost, drops := s.drops, intpend := s.intpend, hostOut := s.hostOut, tflog0 := s.tflog0,
           tflog1 := s.tflog1, tflog2 := s.tflog2, tflog3 := s.tflog3, tflogAt := s.tflogAt, agenda := s.agenda, outbox := s.outbox,
           ctl := s.ctl, ctlSent := s.ctlSent, nextId := s.nextId, reqs := s.reqs, nseq := s.nseq, lastTo := s.lastTo, vec := s.vec,
           stories := s.stories } = s

theorem onlyUnit_trans {s t u : State} (h : onlyUnit s t) (k : onlyUnit t u) : onlyUnit s u := by
  unfold onlyUnit at *
  rw [← h]; conv_rhs => rw [← k]

theorem onlyUnit_of_onlyReads {s t : State} (h : onlyReads s t) : onlyUnit s t := by
  unfold onlyReads at h; rw [← h]; rfl

theorem onlyUnit_of_onlySends {s t : State} (h : onlySends s t) : onlyUnit s t := by
  unfold onlySends at h; rw [← h]; rfl

theorem onlyUnit_send (s : State) (r : Req) : onlyUnit s (s.send r) := by
  unfold State.send
  dsimp only
  split <;> rfl

theorem onlyUnit_takeHorizon (s : State) (d : Nat) : onlyUnit s (s.takeHorizon d) := rfl

theorem onlyUnit_writeDone (s : State) (y : Story) (status : Nat) : onlyUnit s (s.writeDone y status) :=
  onlyUnit_trans (onlyUnit_trans (onlyUnit_trans (onlyUnit_of_onlyReads (onlyReads_touch s y.donePa)) (onlyUnit_send ..))
    (onlyUnit_send ..)) (onlyUnit_takeHorizon ..)

theorem onlyUnit_advanceStory (s : State) (id : Nat) : onlyUnit s (s.advanceStory id) := by
  unfold State.advanceStory
  split
  · rfl
  · dsimp only
    split
    · refine onlyUnit_trans ?_ (onlyUnit_writeDone _ _ _)
      rfl
    · rfl

theorem onlyUnit_launchFault (s : State) (slate : Word) (addr code idx level dev peer sb : Nat) :
    onlyUnit s (s.launchFault slate addr code idx level dev peer sb) :=
  onlyUnit_of_onlyReads (onlyReads_errRecord ..)

theorem onlyUnit_post (s : State) (p : Nat) (m : Instr) : onlyUnit s (s.post p m) := onlyUnit_of_onlySends (onlySends_post ..)

section
variable {s t : State}

theorem onlyUnit.cores (h : onlyUnit s t) : t.cores = s.cores := by unfold onlyUnit at h; rw [← h]
theorem onlyUnit.cur (h : onlyUnit s t) : t.cur = s.cur := by unfold onlyUnit at h; rw [← h]
theorem onlyUnit.runs (h : onlyUnit s t) : t.runs = s.runs := by unfold onlyUnit at h; rw [← h]
theorem onlyUnit.ctx (h : onlyUnit s t) : t.ctx = s.ctx := by unfold onlyUnit at h; rw [← h]
theorem onlyUnit.submits (h : onlyUnit s t) : t.submits = s.submits := by unfold onlyUnit at h; rw [← h]
theorem onlyReads.stories (h : onlyReads s t) : t.stories = s.stories := by unfold onlyReads at h; rw [← h]
theorem onlyReads.submits (h : onlyReads s t) : t.submits = s.submits := by unfold onlyReads at h; rw [← h]
theorem onlySends.stories (h : onlySends s t) : t.stories = s.stories := by unfold onlySends at h; rw [← h]
theorem onlySends.runs (h : onlySends s t) : t.runs = s.runs := by unfold onlySends at h; rw [← h]

end

end Sys2Proof.Machine
end

section
/-! PROOFS. Messages that have gone, storyboards after a change of one launch, and cores freed (02 R42, R47, R54, 19 R429). -/

namespace Sys2Proof.Machine

/-! ### Messages that have gone (19 R429) -/

/-- Only what is sent has changed, and everything sent before still stands. -/
def sendsMore (s t : State) : Prop :=
  onlySends s t ∧ s.agenda ⊆ t.agenda ∧ s.ctl ⊆ t.ctl ∧ s.outbox ⊆ t.outbox

theorem sendsMore_trans {s t u : State} (h : sendsMore s t) (k : sendsMore t u) : sendsMore s u := by
  obtain ⟨h1, h2, h3, h4⟩ := h
  obtain ⟨k1, k2, k3, k4⟩ := k
  exact ⟨onlySends_trans h1 k1, List.Subset.trans h2 k2, List.Subset.trans h3 k3, List.Subset.trans h4 k4⟩

theorem sendsMore_post (s : State) (p : Nat) (m : Instr) : sendsMore s (s.post p m) := by
  refine ⟨onlySends_post .., ?_⟩
  unfold State.post
  dsimp only
  split
  · exact ⟨List.subset_append_left .., List.Subset.refl _, List.Subset.refl _⟩
  · split
    · exact ⟨List.Subset.refl _, List.subset_append_left .., List.subset_append_left ..⟩
    · exact ⟨List.Subset.refl _, List.subset_append_left .., List.Subset.refl _⟩

theorem sendsMore_foldl_post (ps : List Nat) (m : Instr) (s : State) : sendsMore s (ps.foldl (fun s p => s.post p m) s) :=
  List.foldlRecOn ps _ ⟨rfl, List.Subset.refl _, List.Subset.refl _, List.Subset.refl _⟩
    (fun _ k p _ => sendsMore_trans k (sendsMore_post _ p m))

theorem onlySends_reachable {s t : State} (h : onlySends s t) (p : Nat) : t.reachable p = s.reachable p := by
  unfold onlySends at h; rw [← h]; rfl

theorem onlySends_peerid {s t : State} (h : onlySends s t) : t.peerid = s.peerid := by
  unfold onlySends at h; rw [← h]

/-- What has gone to a peer has gone after more is sent. -/
theorem sentTo_of_sendsMore {s t : State} (h : sendsMore s t) {p : Nat} {m : Instr} (k : s.sentTo p m) : t.sentTo p m := by
  obtain ⟨h1, ha, hc, ho⟩ := h
  unfold State.sentTo at *
  rw [onlySends_peerid h1, onlySends_reachable h1]
  split at k
  · next e => rw [if_pos e]; exact ha k
  · next e =>
    rw [if_neg e]
    obtain ⟨c, c1, c2, c3, c4⟩ := k
    refine ⟨c, hc c1, c2, c3, fun r => ?_⟩
    obtain ⟨o, o1, o2⟩ := c4 r
    exact ⟨o, ho o1, o2⟩

theorem sentTo_post (s : State) (p : Nat) (m : Instr) : (s.post p m).sentTo p m := by
  have hr := onlySends_reachable (onlySends_post s p m) p
  have hp := onlySends_peerid (onlySends_post s p m)
  unfold State.sentTo
  rw [hr, hp]
  unfold State.post
  dsimp only
  by_cases e : p = s.peerid
  · simp only [if_pos e]
    exact List.mem_append_right _ (List.mem_singleton_self _)
  · simp only [if_neg e]
    refine ⟨{ id := s.nextId, peer := p, num := tget 0 p s.ctlSent, msg := m, tried := (s.usablePorts p).take 1 }, ?_, rfl, rfl,
      fun r => ?_⟩
    · split <;> exact List.mem_append_right _ (List.mem_singleton_self _)
    · rw [if_pos r]
      exact ⟨_, List.mem_append_right _ (List.mem_singleton_self _), rfl, rfl, rfl⟩

/-- A message posted to each of several peers has gone to each. -/
theorem sentTo_foldl_post (ps : List Nat) (m : Instr) (s : State) : ∀ p ∈ ps, (ps.foldl (fun s p => s.post p m) s).sentTo p m := by
  induction ps generalizing s with
  | nil => exact fun p hp => absurd hp List.not_mem_nil
  | cons q qs ih =>
    intro p hp
    rw [List.foldl_cons]
    rcases List.mem_cons.1 hp with rfl | hp
    · exact sentTo_of_sendsMore (sendsMore_foldl_post ..) (sentTo_post ..)
    · exact ih _ p hp

/-! ### Storyboards after a change of one launch (02 R54) -/

/-- A storyboard gone on: successors of failed launches are skipped, and it is finished once no launch is left. -/
def Story.advanced (y : Story) : Story :=
  let z := { y with launches := skipFrom y.edges y.launches 0 y.launches.length }
  { z with finished := z.finished || (z.launches.all LaunchState.final && !z.finished) }

/-- Storyboards of which those with an identifier have gone on. -/
def storiesAdvanced (l : List Story) (id : Nat) : List Story :=
  match l.find? (fun y => y.id == id) with
  | none => l
  | some y => l.map (fun z => if z.id = id then y.advanced else z)

/-- Storyboards of which those with an identifier have one launch changed. -/
def storiesSet (l : List Story) (id idx : Nat) (st : LaunchState) : List Story :=
  l.map (fun y => if y.id = id then { y with launches := y.launches.set idx st } else y)

theorem setLaunch_stories (s : State) (id idx : Nat) (st : LaunchState) :
    (s.setLaunch id idx st).stories = storiesSet s.stories id idx st := rfl

theorem send_stories (s : State) (r : Req) : (s.send r).stories = s.stories := by
  unfold State.send
  dsimp only
  split <;> rfl

theorem writeDone_stories (s : State) (y : Story) (status : Nat) : (s.writeDone y status).stories = s.stories := by
  have ht := (onlyReads_touch s y.donePa).stories
  unfold State.writeDone
  dsimp only
  rw [show ∀ (u : State) d, (u.takeHorizon d).stories = u.stories from fun _ _ => rfl, send_stories, send_stories, ht]

theorem advanceStory_stories (s : State) (id : Nat) : (s.advanceStory id).stories = storiesAdvanced s.stories id := by
  unfold State.advanceStory storiesAdvanced
  cases s.stories.find? (fun y => y.id == id) with
  | none => rfl
  | some y =>
    dsimp only
    split
    · rw [writeDone_stories]; rfl
    · rfl

/-- Skipping changes waiting launches alone. -/
theorem skipFrom_kept (edges : List (Nat × Nat)) {l : List LaunchState} {i : Nat} {st : LaunchState} (h : l[i]? = some st)
    (hw : st ≠ .waiting) (k f : Nat) : (skipFrom edges l k f)[i]? = some st := by
  induction f generalizing l k with
  | zero => exact h
  | succ f ih =>
    unfold skipFrom
    dsimp only
    refine ih ?_ _
    split
    · next hc =>
      have hk : k ≠ i := by
        rintro rfl
        exact hw (by simpa [List.getD_eq_getElem?_getD, h] using hc.1)
      rwa [List.getElem?_set_ne hk]
    · exact h

theorem skipFrom_length (edges : List (Nat × Nat)) (l : List LaunchState) (k f : Nat) :
    (skipFrom edges l k f).length = l.length := by
  induction f generalizing l k with
  | zero => rfl
  | succ f ih =>
    unfold skipFrom
    dsimp only
    rw [ih]
    split
    · exact List.length_set
    · rfl

theorem find_storiesSet {l : List Story} {id : Nat} {y : Story} (h : l.find? (fun y => y.id == id) = some y) (idx : Nat)
    (st : LaunchState) :
    (storiesSet l id idx st).find? (fun y => y.id == id) = some { y with launches := y.launches.set idx st } := by
  have hy : y.id = id := by simpa using List.find?_some h
  have hf : ((fun y : Story => y.id == id) ∘ fun y => if y.id = id then { y with launches := y.launches.set idx st } else y) =
      fun y => y.id == id := by
    funext a; dsimp only [Function.comp]; split <;> rfl
  rw [storiesSet, List.find?_map, hf, h, Option.map_some, if_pos hy]

theorem find_storiesAdvanced {l : List Story} {id : Nat} {y : Story} (h : l.find? (fun y => y.id == id) = some y) :
    (storiesAdvanced l id).find? (fun y => y.id == id) = some y.advanced := by
  have hy : y.id = id := by simpa using List.find?_some h
  have hf : ((fun y : Story => y.id == id) ∘ fun z => if z.id = id then y.advanced else z) = fun y => y.id == id := by
    funext a; dsimp only [Function.comp]
    split
    · next e => rw [e, show y.advanced.id = y.id from rfl, hy]
    · rfl
  unfold storiesAdvanced
  rw [h]
  dsimp only
  rw [List.find?_map, hf, h, Option.map_some, if_pos hy]

/-- A launch whose state is set to one that does not wait stands so, whatever is skipped after it. -/
theorem story?_settled {s : State} {id idx : Nat} {y : Story} {st : LaunchState} (h : s.story? id = some y)
    (hi : idx < y.launches.length) (hw : st ≠ .waiting) :
    ∃ z, ((s.setLaunch id idx st).advanceStory id).story? id = some z ∧ z.launches[idx]? = some st := by
  refine ⟨({ y with launches := y.launches.set idx st } : Story).advanced, ?_,
    skipFrom_kept y.edges (List.getElem?_set_self hi) hw 0 _⟩
  unfold State.story?
  rw [advanceStory_stories, setLaunch_stories]
  exact find_storiesAdvanced (find_storiesSet h idx st)

/-! ### Cores freed (02 R47) -/

/-- Of a state only cores, gangs and requests have changed. -/
def onlyFrees (s t : State) : Prop := { t with reqs := s.reqs, cores := s.cores, gangs := s.gangs } = s

theorem onlyFrees_trans {s t u : State} (h : onlyFrees s t) (k : onlyFrees t u) : onlyFrees s u := by
  unfold onlyFrees at *
  rw [← h]; conv_rhs => rw [← k]

theorem onlyFrees_freeCore (s : State) (n : Nat) : onlyFrees s (s.freeCore n) := by
  unfold State.freeCore State.setCore State.setGang onlyFrees
  dsimp only

theorem onlyFrees_foldl_freeCore (l : List Nat) (s : State) : onlyFrees s (l.foldl State.freeCore s) :=
  List.foldlRecOn l _ (show onlyFrees s s from rfl) (fun _ k n _ => onlyFrees_trans k (onlyFrees_freeCore _ n))

theorem onlyFrees_stopGangs (s : State) (run : Nat) : onlyFrees s (s.stopGangs run) :=
  List.foldlRecOn _ _ (show onlyFrees s s from rfl) (fun _ k _ _ => onlyFrees_trans k rfl)

theorem onlyFrees.runs {s t : State} (h : onlyFrees s t) : t.runs = s.runs := by unfold onlyFrees at h; rw [← h]
theorem onlyFrees.stories {s t : State} (h : onlyFrees s t) : t.stories = s.stories := by unfold onlyFrees at h; rw [← h]
theorem onlyFrees.mem {s t : State} (h : onlyFrees s t) : t.mem = s.mem := by unfold onlyFrees at h; rw [← h]

theorem core_freeCore (s : State) (n m : Nat) : (s.freeCore n).core m = if m = n then (s.core n).freed else s.core m :=
  State.core_setCore ..

/-- A core that is freed runs no task, whichever cores are freed after it. -/
theorem task_foldl_freeCore {l : List Nat} {s : State} {n : Nat} (h : n ∈ l ∨ (s.core n).task = none) :
    ((l.foldl State.freeCore s).core n).task = none := by
  induction l generalizing s with
  | nil => exact h.resolve_left List.not_mem_nil
  | cons m ms ih =>
    refine ih ?_
    rw [core_freeCore]
    by_cases e : n = m
    · exact .inr (by rw [if_pos e]; rfl)
    · rw [if_neg e]
      exact h.imp_left fun k => (List.mem_cons.1 k).resolve_left e

theorem cores_stopGangs (s : State) (run : Nat) : (s.stopGangs run).cores = s.cores :=
  List.foldlRecOn (motive := fun t : State => t.cores = s.cores) _ _ rfl (fun _ k _ _ => k)

/-! ### Launches found again after a change -/

theorem run?_setRun {s : State} {r q : Run} (h : s.run? q.id = some r) : (s.setRun q).run? q.id = some q := by
  have hf : ((fun r : Run => r.id == q.id) ∘ fun p => if p.id = q.id then q else p) = fun r => r.id == q.id := by
    funext a; dsimp only [Function.comp]; split
    · next e => rw [e]
    · rfl
  have hr : r.id = q.id := by simpa using List.find?_some h
  unfold State.run? State.setRun at *
  dsimp only
  rw [List.find?_map, hf, h, Option.map_some, if_pos hr]

theorem run?_congr {s t : State} (h : t.runs = s.runs) (id : Nat) : t.run? id = s.run? id := by
  unfold State.run?; rw [h]

theorem run?_id {s : State} {id : Nat} {r : Run} (h : s.run? id = some r) : r.id = id := by simpa using List.find?_some h

theorem story?_congr {s t : State} (h : t.stories = s.stories) (id : Nat) : t.story? id = s.story? id := by
  unfold State.story?; rw [h]

end Sys2Proof.Machine
end

section
/-! PROOFS. Submission by LAUNCH and LPORT (02 R52 to R57, 08 R210, 17 R376). -/

namespace Sys2Proof.Machine

/-! ### A storyboard submitted (02 R52 to R58) -/

theorem onlyUnit_interrupt (s : State) (k : Nat) : onlyUnit s (s.interrupt k) := rfl

theorem onlyUnit_foldl_post {α : Type} (p : State → α → Nat) (m : State → α → Instr) (l : List α) (s : State) :
    onlyUnit s (l.foldl (fun u a => u.post (p u a) (m u a)) s) := onlyUnit_of_onlySends (onlySends_foldl_post ..)

theorem onlyUnit_rejectStory (s : State) (y : Story) (n code : Nat) : onlyUnit s (s.rejectStory y n code) := by
  unfold State.rejectStory
  dsimp only
  refine onlyUnit_trans ?_ (onlyUnit_advanceStory ..)
  have hs (z : Story) : onlyUnit s { s with stories := s.stories ++ [z] } := rfl
  split
  · exact onlyUnit_trans (hs _) (onlyUnit_launchFault ..)
  · exact onlyUnit_trans (hs _) (onlyUnit_foldl_post ..)

theorem onlyUnit_storyLost (s : State) (sb nth d idx code addr : Nat) : onlyUnit s (s.storyLost sb nth d idx code addr) := by
  have hf : onlyUnit s s.fresh.2 := rfl
  unfold State.storyLost
  dsimp only
  split
  · exact onlyUnit_trans hf (onlyUnit_launchFault ..)
  · exact onlyUnit_trans hf (onlyUnit_post ..)

/-- The count of the submissions of a storyboard address one higher. -/
def State.counted (s : State) (sb : Nat) : State := { s with submits := tput 0 sb (tget 0 sb s.submits + 1) s.submits }

/-- A read leaves the count to be raised as before. -/
theorem onlyReads_counted {s w : State} (h : onlyReads s w) (sb : Nat) :
    onlyReads (s.counted sb) { w with submits := tput 0 sb (tget 0 sb s.submits + 1) w.submits } := by
  rw [h.submits]
  exact congrArg (fun u : State => { u with submits := tput 0 sb (tget 0 sb s.submits + 1) s.submits }) h

/-- A submission that does not wait counts, and changes only what the launch unit works on. -/
theorem submit_counts {s t : State} {sb space d idx floor : Nat} (h : s.submit sb space d idx floor = some t) :
    onlyUnit (s.counted sb) t := by
  have h1 := onlyReads_span s space sb 16
  unfold State.submit at h
  dsimp only at h
  split at h
  · cases h
  · next u e =>
    rw [e] at h1
    cases h
    exact onlyUnit_trans (onlyUnit_of_onlyReads (onlyReads_counted h1 sb)) (onlyUnit_storyLost ..)
  · next hd u e =>
    rw [e] at h1
    split at h
    · cases h
    · have h2 := onlyReads_trans h1
        (onlyReads_reachEngine (s.unitAsker space) (fieldOf hd 8 8) false true (onlyReads_translate u (s.unitAsker space) (fieldOf hd 8 8)))
      split at h
      · cases h
      · next w _ e =>
        rw [e] at h2
        have hc := onlyUnit_of_onlyReads (onlyReads_counted h2 sb)
        split at h
        · cases h
          split
          · exact onlyUnit_trans (onlyUnit_trans hc (onlyUnit_storyLost ..)) (onlyUnit_interrupt ..)
          · exact onlyUnit_trans hc (onlyUnit_storyLost ..)
        · next pg _ =>
          have hm := onlyUnit_trans (onlyUnit_trans hc (onlyUnit_of_onlyReads (onlyReads_markDirty _ pg)))
            (show onlyUnit _ (State.fresh _).2 from rfl)
          split at h
          · cases h
            exact onlyUnit_trans hm (onlyUnit_rejectStory ..)
          · have h3 := onlyReads_span (({ w with submits := tput 0 sb (tget 0 sb s.submits + 1) w.submits } : State).markDirty pg).fresh.2
              space (sb + 16) (8 * fieldOf hd 2 2 + 4 * fieldOf hd 4 2)
            split at h
            · cases h
            · next x e =>
              rw [e] at h3
              cases h
              exact onlyUnit_trans (onlyUnit_trans hm (onlyUnit_of_onlyReads h3)) (onlyUnit_rejectStory ..)
            · next body x e =>
              rw [e] at h3
              have hx := onlyUnit_trans hm (onlyUnit_of_onlyReads h3)
              split at h
              · cases h
                exact onlyUnit_trans hx (onlyUnit_rejectStory ..)
              · cases h
                exact onlyUnit_trans hx rfl

theorem submit_submits {s t : State} {sb space d idx floor : Nat} (h : s.submit sb space d idx floor = some t) :
    tget 0 sb t.submits = tget 0 sb s.submits + 1 := by
  rw [(submit_counts h).submits]
  exact tget_tput_same 0 sb (tget 0 sb s.submits + 1) s.submits

/-- A storyboard waits while the queue of its class is full. -/
theorem submit_full {s u : State} {sb space d idx floor : Nat} {hd : List Byte} (h : s.span space sb 16 = (.bytes hd, u))
    (hq : 64 ≤ u.queuedIn (max (fieldOf hd 6 1 % 4) floor)) : s.submit sb space d idx floor = none := by
  unfold State.submit
  simp only [h, if_pos hq]

/-- A storyboard that meets R53 and whose completion record can be written stands among the storyboards, each of its launches
waiting. -/
theorem submit_taken {s u w x : State} {sb space d idx floor : Nat} {hd body : List Byte} {pg : TlbEntry}
    (h : s.span space sb 16 = (.bytes hd, u)) (hq : u.queuedIn (max (fieldOf hd 6 1 % 4) floor) < 64)
    (hr : reachEngine (s.unitAsker space) (fieldOf hd 8 8) false true (u.translate (s.unitAsker space) (fieldOf hd 8 8)) = (.page pg, w))
    (ha : fieldOf hd 8 8 % 64 = 0) (hrop : leafRop pg.leaf = false) (hp : paPeer (pg.addr (fieldOf hd 8 8)) = w.peerid)
    (hv : fieldOf hd 0 2 = 1) (hn1 : 1 ≤ fieldOf hd 2 2) (hn2 : fieldOf hd 2 2 ≤ 256) (hne : fieldOf hd 4 2 ≤ 4096)
    (hz : fld (fieldOf hd 6 1) 2 5 = 0) (hz' : fieldOf hd 7 1 = 0)
    (hb : ((({ w with submits := tput 0 sb (tget 0 sb s.submits + 1) w.submits }).markDirty pg).fresh.2).span space (sb + 16)
      (8 * fieldOf hd 2 2 + 4 * fieldOf hd 4 2) = (.bytes body, x))
    (hg : graphOk (fieldOf hd 2 2) ((upFrom 0 (fieldOf hd 4 2)).map (fun j =>
      (fieldOf body (8 * fieldOf hd 2 2 + 4 * j) 2, fieldOf body (8 * fieldOf hd 2 2 + 4 * j + 2) 2))) = true) :
    ∃ t y, s.submit sb space d idx floor = some t ∧ t.stories = x.stories ++ [y] ∧
      y.va = BitVec.ofNat 64 sb ∧ y.nth = tget 0 sb s.submits + 1 ∧ y.cls = max (fieldOf hd 6 1 % 4) floor ∧ y.queued = true ∧
      y.edges = (upFrom 0 (fieldOf hd 4 2)).map (fun j =>
        (fieldOf body (8 * fieldOf hd 2 2 + 4 * j) 2, fieldOf body (8 * fieldOf hd 2 2 + 4 * j + 2) 2)) ∧
      y.slates = (upFrom 0 (fieldOf hd 2 2)).map (fun i => BitVec.ofNat 64 (fieldOf body (8 * i) 8)) ∧
      y.launches = List.replicate (fieldOf hd 2 2) .waiting ∧ y.done = fieldOf hd 8 8 ∧ y.d = d ∧ y.dIdx = idx := by
  have hpage : ¬(fieldOf hd 8 8 % 64 ≠ 0 ∨ leafRop pg.leaf = true ∨ paPeer (pg.addr (fieldOf hd 8 8)) ≠ w.peerid) := by
    simp [ha, hrop, hp]
  have hform : ¬(fieldOf hd 0 2 ≠ 1 ∨ fieldOf hd 2 2 = 0 ∨ 256 < fieldOf hd 2 2 ∨ 4096 < fieldOf hd 4 2 ∨
      fld (fieldOf hd 6 1) 2 5 ≠ 0 ∨ fieldOf hd 7 1 ≠ 0) := by
    rw [hv, hz, hz']; omega
  unfold State.submit
  simp only [h, if_neg (Nat.not_le.2 hq), hr, if_neg hpage, if_neg hform, hb, hg, Bool.not_true, Bool.false_eq_true, if_false]
  exact ⟨_, _, rfl, rfl, rfl, rfl, rfl, rfl, rfl, rfl, rfl, rfl, rfl, rfl⟩

/-! ### LPORT (17 R376) -/

theorem exec_lport (s : State) (w : Writer) (v : Word) : exec (.lport w v) s = .next ((s.writeLport w v).getD s) := rfl

/-- LPORT with a domain that does not name this device, or before bring-up has ended, is discarded. -/
theorem lport_discarded {s : State} (w : Writer) (v : Word) (h : s.isReady = false ∨ fld s.lpdom.toNat 0 13 = 0 ∨
    4096 < fld s.lpdom.toNat 0 13 ∨ fld s.lpdom.toNat 0 13 ≤ fld s.lpdom.toNat 16 13) :
    exec (.lport w v) s = .next (s.svDiscard w 0x200 v.toNat) := by
  rw [exec_lport, State.writeLport]
  rw [if_pos (by simpa using h), Option.getD_some]

theorem lport_submits {s : State} (w : Writer) (v : Word) (hr : s.isReady = true) (h1 : 1 ≤ fld s.lpdom.toNat 0 13)
    (h2 : fld s.lpdom.toNat 0 13 ≤ 4096) (h3 : fld s.lpdom.toNat 16 13 < fld s.lpdom.toNat 0 13) :
    exec (.lport w v) s = .next (((s.mergeVec Config.hubDie (s.vecOf w.die)).submit (fld v.toNat 6 51 * 64)
      (fld s.lpdom.toNat 32 16) (fld s.lpdom.toNat 0 13) (fld s.lpdom.toNat 16 13) 0).getD s) := by
  rw [exec_lport, State.writeLport]
  rw [if_neg]
  rw [hr, Bool.not_true]
  simp only [Bool.false_eq_true, false_or, not_or]
  omega

/-! ### Instructions that trap or wait at issue -/

theorem reportAbort_cores (s : State) (p : Nat) (r : Run) : (s.reportAbort p r).cores = s.cores ∧ (s.reportAbort p r).cur = s.cur := by
  unfold State.reportAbort
  split
  · exact ⟨rfl, rfl⟩
  · have h := onlyUnit_post s p (.abortReport (s.launchName r))
    exact ⟨h.cores, h.cur⟩

theorem abortTaskRun_cores (s : State) (n : Nat) : (s.abortTaskRun n).cores = s.cores ∧ (s.abortTaskRun n).cur = s.cur := by
  unfold State.abortTaskRun
  split
  · exact reportAbort_cores ..
  · exact ⟨rfl, rfl⟩

theorem dropRequest_cur (s : State) (t : Stream) : (s.dropRequest t).cur = s.cur := by
  unfold State.dropRequest; split <;> rfl

theorem recorded_abortTaskRun (u : State) (m kind : Nat) (drop : Bool) (code : Nat) (cx : Ctx) (addr d0 d1 : Nat) :
    ((u.errRecord kind drop code cx addr d0 d1).abortTaskRun m).cores = u.cores ∧
    ((u.errRecord kind drop code cx addr d0 d1).abortTaskRun m).cur = u.cur :=
  ⟨(abortTaskRun_cores _ m).1.trans (errRecord_cores ..),
   (abortTaskRun_cores _ m).2.trans (onlyUnit_of_onlyReads (onlyReads_errRecord ..)).cur⟩

theorem dropped_cur (s : State) (t u : Stream) : ((s.dropRequest t).dropRequest u).cur = s.cur :=
  (dropRequest_cur _ u).trans (dropRequest_cur s t)

/-- A double trap leaves the core with both streams stopped. -/
theorem doubleTrap_core (s : State) (n code d0 : Nat) : (s.doubleTrap n code d0).cur = s.cur ∧
    (s.doubleTrap n code d0).core n = { s.core n with a := (s.core n).a.stop, x := (s.core n).x.stop } := by
  obtain ⟨hc, hu⟩ := recorded_abortTaskRun (((s.dropRequest (s.core n).a).dropRequest (s.core n).x).setCore n
    { s.core n with a := (s.core n).a.stop, x := (s.core n).x.stop }) n 0x11 false code
    ((((s.dropRequest (s.core n).a).dropRequest (s.core n).x).setCore n
      { s.core n with a := (s.core n).a.stop, x := (s.core n).x.stop }).ctxOf n) ((s.core n).svGet 2).toNat d0 ((s.core n).svGet 4).toNat
  exact ⟨hu.trans (dropped_cur ..), (core_congr hc n).trans ((State.core_setCore ..).trans (if_pos rfl))⟩

/-- An instruction that traps leaves no wait, so that no guard is kept. -/
theorem keepGuard_trap (g cause code mask info : Nat) (s : State) :
    keepGuard g (trap cause code mask info s) = .next (s.trapOn s.cur.core s.cur.x cause code mask info) := by
  refine keepGuard_eq ?_
  unfold State.st State.me
  unfold State.trapOn
  dsimp only
  split
  · rw [State.setCore_cur, dropRequest_cur, State.core_setCore, if_pos rfl]
    cases s.cur.x <;> rfl
  · split
    · obtain ⟨hc, hd⟩ := doubleTrap_core s s.cur.core cause 0
      rw [hc, hd]
      cases s.cur.x <;> rfl
    · rw [State.setCore_cur, dropRequest_cur, dropRequest_cur, State.core_setCore, if_pos rfl]
      cases s.cur.x <;> rfl

/-- An instruction that waits keeps its guard and stands where it is. -/
theorem keepGuard_stall {s u : State} (k : sameFlow s u) (g : Nat) : ∃ t, keepGuard g (stall u) = .next t ∧ s.waited t := by
  obtain ⟨h1, h2, -, -, h5, -⟩ := k
  obtain ⟨t, e, ⟨w1, w2, w3⟩, -⟩ := stall_spec u
  have hw : s.waited t := ⟨w1.trans h1, w2.trans h2, by rw [w3, h5]⟩
  rw [e]
  rcases keepGuard_cases g (.next t) with e' | ⟨t', e', e''⟩
  · exact ⟨t, e', hw⟩
  · cases e'
    refine ⟨_, e'', ?_⟩
    unfold State.waited at *
    rw [State.st_setSt]
    exact hw

/-! ### What LAUNCH goes through (02 R57, 07 R172) -/

theorem sameFlow_refl (s : State) : sameFlow s s := ⟨rfl, rfl, rfl, rfl, rfl, rfl⟩

/-- A stream leaves its instruction alike where the cores are the same. -/
theorem sameFlow_of_cores {s t : State} (hc : t.cores = s.cores) (hu : t.cur = s.cur) : sameFlow s t := by
  have hm : t.me = s.me := by unfold State.me; rw [hu, core_congr hc]
  have hs : t.st = s.st := by unfold State.st; rw [hu, hm]
  exact ⟨hu, by rw [hs], by rw [hs], by rw [hs], by unfold State.now; rw [hm], by rw [hm]⟩

theorem sameFlow_of_onlyUnit {s t : State} (h : onlyUnit s t) : sameFlow s t := sameFlow_of_cores h.cores h.cur

theorem sameFlow_setSt {s : State} {t : Stream} (h1 : t.pc = s.st.pc) (h2 : t.loops = s.st.loops) (h3 : t.floor = s.st.floor) :
    sameFlow s (s.setSt t) := by
  refine ⟨rfl, ?_, ?_, ?_, ?_, ?_⟩
  · rw [State.st_setSt, h1]
  · rw [State.st_setSt, h2]
  · rw [State.st_setSt, h3]
  · unfold State.now; rw [State.me_setSt, Core.setStream_cyc]
  · rw [State.me_setSt, Core.setStream_level]

theorem sameFlow_setMe {s : State} {c : Core} (hp : (c.stream s.cur.x).pc = s.st.pc) (hl : (c.stream s.cur.x).loops = s.st.loops)
    (hf : (c.stream s.cur.x).floor = s.st.floor) (hc : c.cyc = s.me.cyc) (hv : c.level = s.me.level) : sameFlow s (s.setMe c) := by
  have hm : (s.setMe c).me = c := State.me_setMe ..
  have hs : (s.setMe c).st = c.stream s.cur.x := by unfold State.st; rw [hm]; rfl
  exact ⟨rfl, by rw [hs, hp], by rw [hs, hl], by rw [hs, hf], (congrArg Core.cyc hm).trans hc, (congrArg Core.level hm).trans hv⟩

theorem Core.lmFlush_stream (c : Core) (x : Bool) : (c.lmFlush x).stream x = { c.stream x with lmq := [] } := by cases x <;> rfl
theorem Core.lmFlush_cyc (c : Core) (x : Bool) : (c.lmFlush x).cyc = c.cyc := by cases x <;> rfl
theorem Core.lmFlush_level (c : Core) (x : Bool) : (c.lmFlush x).level = c.level := by cases x <;> rfl

theorem sameFlow_lmFlush (s : State) : sameFlow s (s.setMe (s.me.lmFlush s.cur.x)) := by
  have h := s.me.lmFlush_stream s.cur.x
  exact sameFlow_setMe (by rw [h]; rfl) (by rw [h]; rfl) (by rw [h]; rfl) (Core.lmFlush_cyc ..) (Core.lmFlush_level ..)

theorem onlyUnit_sendBack (s : State) (l : CacheLine) : onlyUnit s (s.sendBack l) := by
  unfold State.sendBack
  split
  · rfl
  · exact onlyUnit_send ..

theorem onlyUnit_sendBacks (s : State) (l : List CacheLine) : onlyUnit s (l.foldl State.sendBack s) :=
  List.foldlRecOn l _ rfl (fun _ k a _ => onlyUnit_trans k (onlyUnit_sendBack _ a))

theorem sameFlow_writeBack (s : State) (n : Nat) (x : Bool) : sameFlow s (s.writeBack n x) :=
  sameFlow_of_cores (onlyUnit_sendBacks s _).cores (onlyUnit_sendBacks s _).cur

theorem sameFlow_afterRelease (s : State) (sc : Nat) : sameFlow s (s.afterRelease sc) := by
  unfold State.afterRelease
  split
  · exact sameFlow_refl s
  · have hp : sameFlow s (s.preRelease sc) := by
      unfold State.preRelease
      dsimp only
      split
      · exact sameFlow_trans (sameFlow_lmFlush s) (sameFlow_writeBack ..)
      · exact sameFlow_lmFlush s
    refine sameFlow_trans hp ?_
    unfold State.postRelease
    dsimp only
    split
    · exact sameFlow_trans (sameFlow_of_onlyUnit (onlyUnit_takeHorizon _ _)) (sameFlow_setSt rfl rfl rfl)
    · exact sameFlow_setSt rfl rfl rfl

theorem withRelease_eq {s : State} {sc : Nat} (h : s.releases sc) (k : State → Out) : withRelease sc s k = k (s.afterRelease sc) := by
  unfold withRelease State.afterRelease
  split
  · rfl
  · next hs => rw [if_neg (by rw [h.resolve_left hs]; exact Bool.false_ne_true)]

theorem withPage_eq {s u : State} {va : Nat} {rd wr : Bool} {t : TlbEntry} (h : s.reaches va rd wr t u) (k : TlbEntry → State → Out) :
    withPage va rd wr s k = k t u := by
  unfold withPage
  rw [h]

theorem onlyReads_of_reaches {s u : State} {va : Nat} {rd wr : Bool} {t : TlbEntry} (h : s.reaches va rd wr t u) : onlyReads s u := by
  have := onlyReads_reach (s.asker s.cur.core) va rd wr (onlyReads_translateFor s s.cur.core va)
  rwa [h] at this

/-! ### LAUNCH (02 R57, 08 R210) -/

theorem launch_misaligned {s : State} {h : Hdr} {a : Desc} (hi : s.issues (.launch h a)) (hn : s.serves (srcNeeds s.cur.x a))
    (hva : (s.take a).1.toNat % 64 ≠ 0) :
    exec (.launch h a) s = .next (s.trapOn s.cur.core s.cur.x 0x01 0 0 0) := by
  show execLaunch h a s = _
  rw [execLaunch, issue_eq hi, withNeeds_eq hn]
  dsimp only
  rw [if_pos hva, keepGuard_trap]

/-- LAUNCH of an aligned address past its release and its translation: it waits for the cut before its take, or for the queue of its
class; else it has submitted the storyboard with the domain and the class of its launch. -/
theorem launch_aligned {s w : State} {h : Hdr} {a : Desc} {pg : TlbEntry} {r : Run} (hi : s.issues (.launch h a))
    (hn : s.serves (srcNeeds s.cur.x a)) (hva : (s.take a).1.toNat % 64 = 0) (hrel : s.releases 5)
    (hreach : (s.afterRelease 5).reaches (s.take a).1.toNat true false pg w) (hrun : w.runOf s.cur.core = some r) :
    exec (.launch h a) s = keepGuard (s.laneMask h)
      (if w.takeWait s.cur.core (paPeer (pg.addr (s.take a).1.toNat) == w.peerid) (leafPub pg.leaf) then stall w
       else match (w.mergeVec Config.hubDie (w.vecOf (dieOf s.cur.core))).submit (s.take a).1.toNat r.space r.d r.dIdx r.cls with
         | none => stall w
         | some t => retire h t) ∧ sameFlow s w := by
  have hf : sameFlow s w := sameFlow_trans (sameFlow_afterRelease s 5) (sameFlow_of_onlyUnit (onlyUnit_of_onlyReads (onlyReads_of_reaches hreach)))
  have hcur : w.cur = s.cur := hf.1
  refine ⟨?_, hf⟩
  show execLaunch h a s = _
  rw [execLaunch, issue_eq hi, withNeeds_eq hn]
  dsimp only
  rw [if_neg (not_not_intro hva), withRelease_eq hrel, withPage_eq hreach, hcur, hrun]
  rfl

theorem launch_spec (s : State) (h : Hdr) (a : Desc) (hi : s.issues (.launch h a)) (hn : s.serves (srcNeeds s.cur.x a)) :
    let va := (s.take a).1.toNat
    (va % 64 ≠ 0 → exec (.launch h a) s = .next (s.trapOn s.cur.core s.cur.x 0x01 0 0 0)) ∧
    (∀ pg w r, va % 64 = 0 → s.releases 5 → (s.afterRelease 5).reaches va true false pg w → w.runOf s.cur.core = some r →
      let sub := (w.mergeVec Config.hubDie (w.vecOf (dieOf s.cur.core))).submit va r.space r.d r.dIdx r.cls
      let early := w.takeWait s.cur.core (paPeer (pg.addr va) == w.peerid) (leafPub pg.leaf)
      (∀ v, early = false → sub = some v → ∃ t, exec (.launch h a) s = .next t ∧ s.wentOn t h ∧ t.stories = v.stories ∧
        t.submits = v.submits) ∧
      (early = true ∨ sub = none → ∃ t, exec (.launch h a) s = .next t ∧ s.waited t)) := by
  refine ⟨launch_misaligned hi hn, fun pg w r hva hrel hreach hrun => ?_⟩
  obtain ⟨e, hf⟩ := launch_aligned hi hn hva hrel hreach hrun
  refine ⟨fun v he hs => ?_, fun hw => ?_⟩
  · rw [e, he, hs, if_neg Bool.false_ne_true]
    dsimp only
    rw [keepGuard_retire]
    have hv : sameFlow w v := sameFlow_of_cores (submit_counts hs).cores (submit_counts hs).cur
    obtain ⟨t, et, wt, ⟨ot, -⟩, -⟩ := retire_spec h v
    exact ⟨t, et, wentOn_of_sameFlow (sameFlow_trans hf hv) wt, by rw [← ot], by rw [← ot]⟩
  · rw [e]
    rcases hw with hw | hw
    · rw [hw, if_pos rfl]
      exact keepGuard_stall hf _
    · rw [hw, ite_self]
      exact keepGuard_stall hf _

end Sys2Proof.Machine
end

section
/-! PROOFS. Acceptance and agreement of launches (02 R38, R42, R52, R54, R58). -/

namespace Sys2Proof.Machine

/-! ### The check of a slate (02 R38) -/

theorem checkSlate_unread {s u : State} {y : Story} {idx : Nat} (h : s.span y.space (y.slates.getD idx 0).toNat 384 = (.fault, u)) :
    checkSlate y idx s = (.fault 0x0E 0, u) := by
  unfold checkSlate
  simp only [h]

theorem checkSlate_format {s u : State} {y : Story} {idx : Nat} {b : List Byte}
    (h : s.span y.space (y.slates.getD idx 0).toNat 384 = (.bytes b, u)) (hv : fieldOf b 0 2 ≠ 1) :
    checkSlate y idx s = (.fault 0x01 0, u) := by
  unfold checkSlate
  simp only [h]
  rw [if_pos (.inl hv)]

/-- The first faults of a level: its extent, its width, its binding. -/
theorem levelFault_first {ls : List TreeLevel} {k : Nat} {l : TreeLevel} (h : ls[k]? = some l) (es : List Nat) (lo f : Nat) :
    (l.extent = 0 → levelFault ls es k lo (f + 1) = some (0x03, k)) ∧
    (0 < l.extent → 32 < l.width ∨ 2 ^ l.width < l.extent ∨ 64 < lo + l.width → levelFault ls es k lo (f + 1) = some (0x04, k)) ∧
    (0 < l.extent → l.width ≤ 32 → l.extent ≤ 2 ^ l.width → lo + l.width ≤ 64 → 8 < l.bind →
      levelFault ls es k lo (f + 1) = some (0x05, k)) := by
  unfold levelFault
  simp only [h]
  refine ⟨fun he => if_pos he, fun he hw => ?_, fun he hw hx hl hb => ?_⟩
  · rw [if_neg (Nat.ne_of_gt he)]
    split
    · rfl
    · next hn =>
      rw [not_or] at hn
      rw [if_pos ((hw.resolve_left hn.1).resolve_left hn.2)]
  · rw [if_neg (Nat.ne_of_gt he), if_neg (not_or.2 ⟨Nat.not_lt.2 hw, Nat.not_lt.2 hx⟩), if_neg (Nat.not_lt.2 hl), if_pos hb]

/-! ### Acceptance (02 R42, R54, 17 R379) -/

theorem exec_launchAccept (sb idx : Nat) (s : State) : exec (.launchAccept sb idx) s = execLaunchAccept sb idx s := rfl

theorem onlySends_rootPeer {s t : State} (h : onlySends s t) (r : Run) : t.rootPeer r = s.rootPeer r := by
  unfold onlySends at h; rw [← h]; rfl

/-- A storyboard taken from the queue of its class. -/
def Story.unqueued (y : Story) : Story := { y with queued := false }

/-- Storyboards of which those with an identifier have left their queue. -/
def storiesOff (l : List Story) (id : Nat) : List Story := l.map (fun z => if z.id = id then { z with queued := false } else z)

/-- A launch waits while it may not be accepted, or while the launch unit has other work first. -/
theorem launchAccept_waits {s : State} {y : Story} {idx : Nat} (hy : s.story? y.id = some y)
    (h : s.acceptable y idx = false ∨ s.unitBusy = true) : exec (.launchAccept y.id idx) s = .next s := by
  rw [exec_launchAccept, execLaunchAccept, hy]
  exact if_pos (by simpa using h)

/-- The state in which launch `idx` of a storyboard has been accepted as a run. -/
def State.accepting (u : State) (y : Story) (idx : Nat) (q : Run) : State :=
  (({ u.fresh.2 with stories := storiesOff u.stories y.id } : State).noting fun s => { s with runs := s.runs ++ [q] }).setLaunch y.id idx
    (.accepted q.id)

theorem rootPeer_setLaunch (s : State) (id idx : Nat) (st : LaunchState) (r : Run) : (s.setLaunch id idx st).rootPeer r = s.rootPeer r := rfl

theorem rootPeer_taken (s : State) (l : List Story) (rs : List Run) (r : Run) :
    ({ s.fresh.2 with stories := l, runs := rs } : State).rootPeer r = s.rootPeer r := rfl

theorem accepting_spec (u : State) (y : Story) (idx : Nat) (q : Run) : (u.accepting y idx q).runs = u.runs ++ [q] ∧
    (u.accepting y idx q).stories = storiesSet (storiesOff u.stories y.id) y.id idx (.accepted q.id) ∧
    (u.accepting y idx q).rootPeer q = u.rootPeer q := by
  have hn := onlySends_noting { u.fresh.2 with stories := storiesOff u.stories y.id } (fun s => { s with runs := s.runs ++ [q] })
  exact ⟨hn.runs, congrArg (fun l => storiesSet l y.id idx (.accepted q.id)) hn.stories,
    (rootPeer_setLaunch ..).trans ((onlySends_rootPeer hn q).trans (rootPeer_taken u (storiesOff u.stories y.id) (u.runs ++ [q]) q))⟩

theorem exec_launchAccept_pass {s u : State} {y : Story} {idx : Nat} {r : Run} (hy : s.story? y.id = some y)
    (ha : s.acceptable y idx = true) (hb : s.unitBusy = false) (hc : checkSlate y idx s = (.pass r, u)) :
    exec (.launchAccept y.id idx) s =
      let q : Run := { r with id := u.nextId, go := decide (y.d ≤ 1) }
      let t := u.accepting y idx q
      if y.d ≤ 1 then .next t else .next (t.post (t.rootPeer q) (.pass (agreeMsg y idx 0 0))) := by
  rw [exec_launchAccept, execLaunchAccept, hy]
  dsimp only
  rw [if_neg (by rw [ha, hb]; decide), hc]
  rfl

theorem sentTo_post_of_eq {s : State} {p q : Nat} (h : q = p) (m : Instr) : (s.post q m).sentTo p m := h ▸ sentTo_post s q m

/-- A launch that passes its check stands as a run and as accepted; in a domain of several devices device 0 is told. -/
theorem launchAccept_pass {s u : State} {y : Story} {idx : Nat} {r : Run} (hy : s.story? y.id = some y)
    (ha : s.acceptable y idx = true) (hb : s.unitBusy = false) (hc : checkSlate y idx s = (.pass r, u)) :
    ∃ t, exec (.launchAccept y.id idx) s = .next t ∧ t.runs = u.runs ++ [{ r with id := u.nextId, go := decide (y.d ≤ 1) }] ∧
      t.stories = storiesSet (storiesOff u.stories y.id) y.id idx (.accepted u.nextId) ∧
      (1 < y.d → t.sentTo (u.rootPeer r) (.pass (agreeMsg y idx 0 0))) := by
  obtain ⟨hr, hs, hp⟩ := accepting_spec u y idx { r with id := u.nextId, go := decide (y.d ≤ 1) }
  rw [exec_launchAccept_pass hy ha hb hc]
  dsimp only
  by_cases hd : y.d ≤ 1
  · rw [if_pos hd]
    exact ⟨_, rfl, hr, hs, fun h => absurd hd (Nat.not_le.2 h)⟩
  · rw [if_neg hd]
    exact ⟨_, rfl, (onlySends_post ..).runs.trans hr, (onlySends_post ..).stories.trans hs, fun _ => sentTo_post_of_eq hp _⟩

/-- A storyboard among those that a launch was accepted of. -/
theorem mem_accepting {l : List Story} {z : Story} (hz : z ∈ l) (idx : Nat) (st : LaunchState) :
    ∃ z' ∈ storiesSet (storiesOff l z.id) z.id idx st, z'.id = z.id ∧ z'.queued = false ∧ z'.launches = z.launches.set idx st := by
  exact ⟨_, List.mem_map.2 ⟨_, List.mem_map.2 ⟨z, hz, if_pos rfl⟩, if_pos rfl⟩, rfl, rfl, rfl⟩

theorem find_storiesOff {l : List Story} {id : Nat} {y : Story} (h : l.find? (fun y => y.id == id) = some y) :
    (storiesOff l id).find? (fun y => y.id == id) = some y.unqueued := by
  have hy : y.id = id := by simpa using List.find?_some h
  have hf : ((fun y : Story => y.id == id) ∘ fun z => if z.id = id then { z with queued := false } else z) = fun y => y.id == id := by
    funext a; dsimp only [Function.comp]; split <;> rfl
  rw [storiesOff, List.find?_map, hf, h, Option.map_some, if_pos hy]
  rfl

theorem launchFault_stories (s : State) (slate : Word) (addr code idx level dev peer sb : Nat) :
    (s.launchFault slate addr code idx level dev peer sb).stories = s.stories := (onlyReads_errRecord ..).stories

/-- A launch that fails its check: alone in its domain it stands as faulted, else device 0 is told. -/
theorem launchAccept_fault {s u : State} {y z : Story} {idx code level : Nat} (hy : s.story? y.id = some y)
    (ha : s.acceptable y idx = true) (hb : s.unitBusy = false) (hc : checkSlate y idx s = (.fault code level, u))
    (hz : u.story? y.id = some z) (hi : idx < z.launches.length) : ∃ t, exec (.launchAccept y.id idx) s = .next t ∧
      (y.d ≤ 1 → ∃ z', t.story? y.id = some z' ∧ z'.launches[idx]? = some (.faulted code level)) ∧
      (1 < y.d → t.sentTo ((u.storyPeers y.id y.d y.dIdx).headD u.peerid) (.pass (agreeMsg y idx code level))) := by
  rw [exec_launchAccept, execLaunchAccept, hy]
  dsimp only
  rw [if_neg (by rw [ha, hb]; decide), hc]
  dsimp only
  by_cases hd : y.d ≤ 1
  · rw [if_pos hd]
    refine ⟨_, rfl, fun _ => story?_settled (y := z.unqueued) ?_ hi (fun h => LaunchState.noConfusion h), fun h => absurd hd (Nat.not_le.2 h)⟩
    exact (story?_congr (launchFault_stories ..) _).trans (find_storiesOff hz)
  · rw [if_neg hd]
    exact ⟨_, rfl, fun h => absurd h hd, fun _ => sentTo_post ..⟩

end Sys2Proof.Machine
end

section
/-! PROOFS. Agreement of the devices of a domain, and faults of launches (02 R41, R42, R54, R56). -/

namespace Sys2Proof.Machine

/-! ### The verdict of device 0 (02 R42) -/

/-- Of two reports the one of the lower device index, the earlier of two alike. -/
def leastOf (a : Option Agree) (m : Agree) : Option Agree :=
  match a with
  | some b => if m.dev < b.dev then some m else some b
  | none => some m

theorem foldl_leastOf {l : List Agree} {o : Option Agree} {f : Agree} (h : l.foldl leastOf o = some f) :
    (f ∈ l ∨ o = some f) ∧ (∀ a ∈ l, f.dev ≤ a.dev) ∧ ∀ b, o = some b → f.dev ≤ b.dev := by
  induction l generalizing o with
  | nil => exact ⟨.inr h, fun a ha => absurd ha List.not_mem_nil, fun b hb => by rw [Option.some.inj (hb.symm.trans h)]⟩
  | cons m ms ih =>
    obtain ⟨h1, h2, h3⟩ := ih h
    cases o with
    | none =>
      refine ⟨.inl (h1.elim (List.mem_cons_of_mem _) fun e => ?_), fun a ha => ?_, fun b hb => nomatch hb⟩
      · rw [← Option.some.inj e]; exact List.mem_cons_self
      · rcases List.mem_cons.1 ha with rfl | ha
        · exact h3 a rfl
        · exact h2 a ha
    | some b =>
      have hm : f.dev ≤ m.dev ∧ f.dev ≤ b.dev := by
        dsimp only [leastOf] at h3
        split at h3
        · have := h3 m rfl; omega
        · have := h3 b rfl; omega
      refine ⟨?_, fun a ha => ?_, fun c hc => Option.some.inj hc ▸ hm.2⟩
      · rcases h1 with h1 | h1
        · exact .inl (List.mem_cons_of_mem _ h1)
        · dsimp only [leastOf] at h1
          split at h1
          · rw [← Option.some.inj h1]; exact .inl List.mem_cons_self
          · exact .inr h1
      · rcases List.mem_cons.1 ha with rfl | ha
        · exact hm.1
        · exact h2 a ha

theorem foldl_leastOf_isSome {l : List Agree} {o : Option Agree} (h : l ≠ [] ∨ o.isSome = true) : (l.foldl leastOf o).isSome = true := by
  induction l generalizing o with
  | nil => exact h.resolve_left (fun k => k rfl)
  | cons m ms ih =>
    refine ih (.inr ?_)
    cases o with
    | none => rfl
    | some b => unfold leastOf; dsimp only; split <;> rfl

/-- With a fault among the reports the verdict is the fault of the lowest device index. -/
theorem verdictOf_fault {reps : List Agree} {f : Agree} (h : verdictOf reps = some f) (hx : ∃ a ∈ reps, a.code ≠ 0) :
    f ∈ reps ∧ f.code ≠ 0 ∧ ∀ a ∈ reps, a.code ≠ 0 → f.dev ≤ a.dev := by
  obtain ⟨a, ha, hc⟩ := hx
  have hmem (b : Agree) : b ∈ reps.filter (fun m => m.code != 0) ↔ b ∈ reps ∧ b.code ≠ 0 := by simp
  obtain ⟨g, hg⟩ := Option.isSome_iff_exists.1 (foldl_leastOf_isSome (o := none) (.inl (List.ne_nil_of_mem ((hmem a).2 ⟨ha, hc⟩))))
  have hv : verdictOf reps = some g := by
    unfold verdictOf
    dsimp only
    split
    · next e => exact e.symm.trans hg
    · next e _ => cases e.symm.trans hg
    · next e _ => cases e.symm.trans hg
  rw [hv] at h
  obtain ⟨h1, h2, -⟩ := foldl_leastOf (hg.trans h)
  obtain ⟨hf, hfc⟩ := (hmem f).1 (h1.resolve_right (fun e => nomatch e))
  exact ⟨hf, hfc, fun b hb hbc => h2 b ((hmem b).2 ⟨hb, hbc⟩)⟩

/-! ### PASS, GO and FAULT -/

theorem exec_pass (m : Agree) (s : State) : exec (.pass m) s = execPass m s := rfl
theorem exec_go (m : Agree) (s : State) : exec (.go m) s = execGo m s := rfl
theorem exec_fault (m : Agree) (s : State) : exec (.fault m) s = execFault m s := rfl

/-- A report of a storyboard that gets no completion record is recorded. -/
theorem pass_lost (s : State) {m : Agree} (h : lostCode ≤ m.code) : ∃ t, exec (.pass m) s = .next t ∧
    s.logs t 0x13 false (m.code - lostCode) { s.noCtx with peer := m.check.toNat } m.slate.toNat (2 ^ 16 * m.dev) m.sb.toNat := by
  refine ⟨_, (exec_pass m s).trans (if_pos h), ?_⟩
  have hz : 0 % 256 + 2 ^ 8 * (0 % 16) + 2 ^ 16 * m.dev = 2 ^ 16 * m.dev := by omega
  have := errRecord_logs s 0x13 false (m.code - lostCode) { s.noCtx with launch := 0, peer := m.check.toNat } m.slate.toNat
    (0 % 256 + 2 ^ 8 * (0 % 16) + 2 ^ 16 * m.dev) m.sb.toNat
  unfold State.launchFault
  rw [hz] at this ⊢
  exact this

/-- What two reports of one device about one launch have in common. -/
def alike (m a : Agree) : Bool :=
  a.sb == m.sb && a.nth == m.nth && a.idx == m.idx && (a.code == endedCode) == (m.code == endedCode)

/-- The reports kept once one has come. -/
def State.kept (s : State) (m : Agree) : List Agree := s.agreed.filter (fun a => !(alike m a && a.dev == m.dev)) ++ [m]

/-- What device 0 sends once every device has reported. -/
def State.answerTo (s : State) (m : Agree) : Instr :=
  if m.code = endedCode then .go m
  else match verdictOf ((s.kept m).filter (alike m)) with
    | some f => .fault f
    | none => .go m

theorem pass_waits {s : State} {m : Agree} {y : Story} (hy : s.storyOf m.sb m.nth = some y) (hm : m.code < lostCode)
    (hn : ((s.kept m).filter (alike m)).length < y.d) :
    exec (.pass m) s = .next { s with agreed := s.kept m } := by
  rw [exec_pass, execPass, if_neg (Nat.not_le.2 hm)]
  dsimp only
  rw [hy]
  exact if_pos hn

theorem launchPeers_agreed (s : State) (l : List Agree) (y : Story) (i : Nat) :
    ({ s with agreed := l } : State).launchPeers y i = s.launchPeers y i := rfl

theorem answerTo_of_verdict {s : State} {m : Agree} {o : Option Agree} (he : m.code ≠ endedCode)
    (hv : verdictOf ((s.kept m).filter (alike m)) = o) : s.answerTo m = (o.map Instr.fault).getD (.go m) := by
  unfold State.answerTo
  rw [if_neg he, hv]
  cases o <;> rfl

theorem pass_answers {s : State} {m : Agree} {y : Story} (hy : s.storyOf m.sb m.nth = some y) (hm : m.code < lostCode)
    (hn : y.d ≤ ((s.kept m).filter (alike m)).length) :
    ∃ t, exec (.pass m) s = .next t ∧ ∀ p ∈ s.launchPeers y m.idx, t.sentTo p (s.answerTo m) := by
  rw [exec_pass, execPass, if_neg (Nat.not_le.2 hm)]
  dsimp only
  rw [hy]
  dsimp only
  refine ⟨_, if_neg (Nat.not_lt.2 hn), ?_⟩
  by_cases he : m.code = endedCode
  · rw [if_pos he, show s.answerTo m = .go m from if_pos he]
    exact fun p hp => sentTo_foldl_post _ _ _ p ((launchPeers_agreed ..).symm ▸ hp)
  · rw [if_neg he]
    split
    · next e => rw [answerTo_of_verdict he e]; exact fun p hp => sentTo_foldl_post _ _ _ p ((launchPeers_agreed ..).symm ▸ hp)
    · next e => rw [answerTo_of_verdict he e]; exact fun p hp => sentTo_foldl_post _ _ _ p ((launchPeers_agreed ..).symm ▸ hp)

/-- FAULT: the launch stands as faulted. -/
theorem fault_settles {s : State} {m : Agree} {y : Story} (hy : s.storyOf m.sb m.nth = some y) (hs : s.story? y.id = some y)
    (hi : m.idx < y.launches.length) (hf : (y.launches.getD m.idx .skipped).final = false) :
    ∃ t z, exec (.fault m) s = .next t ∧ t.story? y.id = some z ∧ z.launches[m.idx]? = some (.faulted m.code m.level) := by
  rw [exec_fault, execFault, hy]
  dsimp only
  rw [if_neg (by rw [hf]; exact Bool.false_ne_true)]
  have key (v : State) (hv : v.stories = s.stories) : ∃ z, ((v.setLaunch y.id m.idx (.faulted m.code m.level)).advanceStory y.id).story? y.id =
      some z ∧ z.launches[m.idx]? = some (.faulted m.code m.level) :=
    story?_settled ((story?_congr hv _).trans hs) hi (fun h => LaunchState.noConfusion h)
  have hp : ∀ o : Option Run, (match o with
    | some r => s.setRun { r with aborted := true, dealt := r.groups, started := r.groups }
    | none => s).stories = s.stories := fun o => by cases o <;> rfl
  split
  · obtain ⟨z, hz⟩ := key _ ((launchFault_stories ..).trans (hp _))
    exact ⟨_, z, rfl, hz⟩
  · obtain ⟨z, hz⟩ := key _ (hp _)
    exact ⟨_, z, rfl, hz⟩

theorem run?_of_runNamed {s : State} {l : AbortMsg} {r : Run} (h : s.runNamed l = some r) : ∃ q, s.run? r.id = some q := by
  obtain ⟨y, -, h⟩ := Option.bind_eq_some_iff.1 h
  exact Option.isSome_iff_exists.1 (List.find?_isSome.2 ⟨r, List.mem_of_find?_eq_some h, by simp⟩)

/-- GO: the launch may place its groups, or every share of it has ended. -/
theorem go_spec {s : State} {m : Agree} {r : Run} (h : s.runNamed { sb := m.sb, nth := m.nth, idx := m.idx } = some r)
    (ha : r.aborted = false) : ∃ t, exec (.go m) s = .next t ∧
      t.run? r.id = some (if m.code = endedCode then { r with allEnded := true } else { r with go := true }) := by
  obtain ⟨q, hq⟩ := run?_of_runNamed h
  rw [exec_go, execGo, h]
  dsimp only
  by_cases he : m.code = endedCode
  · rw [if_neg (not_not_intro he), if_neg (by rw [ha]; exact Bool.false_ne_true), if_pos he]
    exact ⟨_, rfl, run?_setRun (q := { r with allEnded := true }) hq⟩
  · rw [if_pos he, if_neg he]
    refine ⟨_, rfl, (run?_congr (onlySends_noting s _).runs _).trans ?_⟩
    refine (run?_setRun (q := { r with go := !r.aborted || r.go }) hq).trans ?_
    rw [ha]; rfl

end Sys2Proof.Machine
end

section
/-! PROOFS. Aborts of launches, by messages and by LABORT (02 R430, 17 R377). -/

namespace Sys2Proof.Machine

/-! ### A share that ends as aborted (17 R377) -/

theorem ensureCut_kept (s : State) (r : Run) (n : Nat) :
    (s.ensureCut r n).runs = s.runs ∧ (s.ensureCut r n).cores = s.cores ∧ (s.ensureCut r n).stories = s.stories := by
  unfold State.ensureCut
  split <;> exact ⟨rfl, rfl, rfl⟩

theorem onlySends_sendCutAbort (s : State) (r : Run) (n : Nat) (late : Option Nat) : (s.sendCutAbort r n late).cores = s.cores ∧
    (s.sendCutAbort r n late).runs = s.runs ∧ (s.sendCutAbort r n late).stories = s.stories := by
  have h (u : State) (m : Instr) (l : List Nat) : onlySends u (l.foldl (fun t p => t.post p m) u) := (sendsMore_foldl_post l m u).1
  unfold State.sendCutAbort
  dsimp only
  exact ⟨(onlySends_cores (h _ _ _)).trans rfl, (h _ _ _).runs.trans rfl, (h _ _ _).stories.trans rfl⟩

/-- A run stopped: nothing of it is left to deal or to save. -/
def Run.stopped (r : Run) : Run :=
  { r with aborted := true, dealt := r.groups, started := r.groups, places := [], preempted := false, saved := none }

/-- A share stopped, but for its storyboard. -/
def State.cleared (s : State) (r : Run) : State :=
  let s := ((s.coresOf r.id).foldl State.freeCore s).stopGangs r.id
  let s := if r.takeLv.isSome && r.go then s.ensureCut r (s.nextCut r.id) else s
  let s := s.setRun r.stopped
  { s with barInsts := s.barInsts.filter (fun b => b.run != r.id), xgroups := s.xgroups.filter (fun x => x.run != r.id) }

theorem cleared_kept (s : State) (r : Run) : (s.cleared r).cores = ((s.coresOf r.id).foldl State.freeCore s).cores ∧
    (s.cleared r).runs = s.runs.map (fun q => if q.id = r.id then r.stopped else q) ∧ (s.cleared r).stories = s.stories := by
  have hf := onlyFrees_trans (onlyFrees_foldl_freeCore (s.coresOf r.id) s) (onlyFrees_stopGangs _ r.id)
  have hc := cores_stopGangs ((s.coresOf r.id).foldl State.freeCore s) r.id
  obtain ⟨e1, e2, e3⟩ := ensureCut_kept (((s.coresOf r.id).foldl State.freeCore s).stopGangs r.id) r
    ((((s.coresOf r.id).foldl State.freeCore s).stopGangs r.id).nextCut r.id)
  unfold State.cleared State.setRun
  dsimp only
  split
  · exact ⟨e2.trans hc, congrArg _ (e1.trans hf.runs), e3.trans hf.stories⟩
  · exact ⟨hc, congrArg _ hf.runs, hf.stories⟩

theorem stopShare_eq {s : State} {r : Run} (ha : r.aborted = false) (hr : r.retired = false) :
    s.stopShare r = s.noting fun s => ((s.cleared r).setLaunch r.sb r.idx .aborted).advanceStory r.sb := by
  unfold State.stopShare
  rw [if_neg (by rw [ha, hr]; decide)]
  rfl

theorem stopShare_kept {s : State} {r : Run} (ha : r.aborted = false) (hr : r.retired = false) :
    (s.stopShare r).cores = ((s.coresOf r.id).foldl State.freeCore s).cores ∧
    (s.stopShare r).runs = s.runs.map (fun q => if q.id = r.id then r.stopped else q) ∧
    (s.stopShare r).stories = storiesAdvanced (storiesSet s.stories r.sb r.idx .aborted) r.sb := by
  obtain ⟨h1, h2, h3⟩ := cleared_kept s r
  have hn := onlySends_noting s fun s => ((s.cleared r).setLaunch r.sb r.idx .aborted).advanceStory r.sb
  have ha' := onlyUnit_advanceStory ((s.cleared r).setLaunch r.sb r.idx .aborted) r.sb
  rw [stopShare_eq ha hr]
  refine ⟨(onlySends_cores hn).trans (ha'.cores.trans h1), hn.runs.trans (ha'.runs.trans h2), hn.stories.trans ?_⟩
  rw [advanceStory_stories, setLaunch_stories, h3]

theorem endShare_kept {s : State} {r : Run} (ha : r.aborted = false) (hr : r.retired = false) :
    (∀ n ∈ s.coresOf r.id, ((s.endShare r).core n).task = none) ∧
    (s.endShare r).runs = s.runs.map (fun q => if q.id = r.id then r.stopped else q) ∧
    (s.endShare r).stories = storiesAdvanced (storiesSet s.stories r.sb r.idx .aborted) r.sb := by
  have key (v : State) (hc : v.cores = s.cores) (hq : v.runs = s.runs) (hs : v.stories = s.stories) :
      (∀ n ∈ s.coresOf r.id, ((v.stopShare r).core n).task = none) ∧
      (v.stopShare r).runs = s.runs.map (fun q => if q.id = r.id then r.stopped else q) ∧
      (v.stopShare r).stories = storiesAdvanced (storiesSet s.stories r.sb r.idx .aborted) r.sb := by
    obtain ⟨h1, h2, h3⟩ := stopShare_kept (s := v) ha hr
    refine ⟨fun n hn => ?_, by rw [h2, hq], by rw [h3, hs]⟩
    have hn : n ∈ v.coresOf r.id := by unfold State.coresOf at *; rwa [hc]
    rw [core_congr h1]
    exact task_foldl_freeCore (.inl hn)
  unfold State.endShare
  rw [if_neg (by rw [ha, hr]; decide)]
  split
  · obtain ⟨e1, e2, e3⟩ := onlySends_sendCutAbort s r (s.nextCut r.id) none
    exact key _ e1 e2 e3
  · exact key s rfl rfl rfl

/-! ### ABORT_REPORT and ABORT (02 R430) -/

theorem abortReport_spec {s : State} {m : AbortMsg} {y : Story} (hy : s.storyOf m.sb m.nth = some y) :
    ∃ t, exec (.abortReport m) s = .next t ∧ ∀ p ∈ s.launchPeers y m.idx, t.sentTo p (.abort m) := by
  refine ⟨_, ?_, sentTo_foldl_post (s.launchPeers y m.idx) (.abort m) s⟩
  show execAbortReport m s = _
  rw [execAbortReport, hy]

theorem runOfMsg_spec {s : State} {sb : Word} {nth idx : Nat} {r : Run} (h : s.runOfMsg sb nth idx = some r) :
    ∃ y, s.storyOf sb nth = some y ∧ r.sb = y.id ∧ r.idx = idx ∧ r.retired = false ∧ r.aborted = false := by
  obtain ⟨y, hy, h⟩ := Option.bind_eq_some_iff.1 h
  have hr := List.find?_some h
  simp only [Bool.and_eq_true, beq_iff_eq, Bool.not_eq_true'] at hr
  obtain ⟨⟨⟨h1, h2⟩, h3⟩, h4⟩ := hr
  exact ⟨y, hy, h1, h2, h3, h4⟩

theorem abort_spec {s : State} {m : AbortMsg} {y : Story} {r : Run} (hy : s.storyOf m.sb m.nth = some y)
    (hr : s.runOfMsg y.va y.nth m.idx = some r) : ∃ t, exec (.abort m) s = .next t ∧
      (∀ q ∈ t.runs, q.id = r.id → q.aborted = true ∧ q.places = []) ∧ ∀ n ∈ s.coresOf r.id, (t.core n).task = none := by
  obtain ⟨-, -, -, -, hret, habo⟩ := runOfMsg_spec hr
  obtain ⟨h1, h2, -⟩ := endShare_kept (s := s) habo hret
  refine ⟨s.endShare r, ?_, fun q hq he => ?_, h1⟩
  · show execAbort m s = _
    rw [execAbort, hy]
    dsimp only
    rw [State.abortHere, hr]
  · rw [h2] at hq
    obtain ⟨p, -, hp⟩ := List.mem_map.1 hq
    split at hp
    · rw [← hp]; exact ⟨rfl, rfl⟩
    · next hne => rw [hp] at hne; exact absurd he hne

/-! ### LABORT (17 R377) -/

/-- A storyboard is the first of those that share its identifier, or its address and submission. -/
def anchored (l : List Story) (z : Story) : Prop :=
  l.find? (fun a => a.id == z.id || (a.va == z.va && a.nth == z.nth)) = some z

theorem find?_or {α : Type} {p q : α → Bool} {l : List α} {z : α} (hp : l.find? p = some z) (hq : l.find? q = some z) :
    l.find? (fun a => p a || q a) = some z := by
  induction l with
  | nil => exact hp
  | cons a l ih =>
    by_cases hpa : p a = true
    · rw [List.find?_cons_of_pos hpa] at hp
      rw [List.find?_cons_of_pos (by rw [hpa]; rfl), hp]
    · rw [List.find?_cons_of_neg hpa] at hp
      by_cases hqa : q a = true
      · rw [List.find?_cons_of_pos hqa] at hq
        rw [List.find?_cons_of_pos (by rw [hqa, Bool.or_true]), hq]
      · rw [List.find?_cons_of_neg hqa] at hq
        rw [List.find?_cons_of_neg (by simp [hpa, hqa])]
        exact ih hp hq

theorem find?_of_weaker {α : Type} {p q : α → Bool} (hpq : ∀ a, p a = true → q a = true) {l : List α} {z : α}
    (h : l.find? q = some z) (hz : p z = true) : l.find? p = some z := by
  induction l with
  | nil => exact h
  | cons a l ih =>
    by_cases hq : q a = true
    · rw [List.find?_cons_of_pos hq] at h
      cases h
      exact List.find?_cons_of_pos hz
    · rw [List.find?_cons_of_neg hq] at h
      rw [List.find?_cons_of_neg (fun k => hq (hpq a k))]
      exact ih h

theorem anchored.story? {s : State} {z : Story} (h : anchored s.stories z) : s.story? z.id = some z :=
  find?_of_weaker (fun a k => by rw [k]; rfl) h (by simp)

theorem anchored.storyOf {s : State} {z : Story} (h : anchored s.stories z) : s.storyOf z.va z.nth = some z :=
  find?_of_weaker (fun a k => by rw [k, Bool.or_true]) h (by simp)

/-- A change that keeps what names each storyboard keeps the first of a name. -/
theorem anchored_map {l : List Story} {z : Story} (h : anchored l z) (f : Story → Story)
    (hf : ∀ a, (f a).id = a.id ∧ (f a).va = a.va ∧ (f a).nth = a.nth) : anchored (l.map f) (f z) := by
  obtain ⟨e1, e2, e3⟩ := hf z
  have hp : ((fun a : Story => a.id == (f z).id || (a.va == (f z).va && a.nth == (f z).nth)) ∘ f) =
      fun a => a.id == z.id || (a.va == z.va && a.nth == z.nth) := by
    funext a
    obtain ⟨a1, a2, a3⟩ := hf a
    dsimp only [Function.comp]
    rw [e1, e2, e3, a1, a2, a3]
  unfold anchored at *
  rw [List.find?_map, hp, h, Option.map_some]

/-- The first storyboard of a name stays the first when the storyboards of an identifier go on. -/
theorem anchored_advanced {l : List Story} {z : Story} (h : anchored l z) (id : Nat) :
    anchored (storiesAdvanced l id) (if z.id = id then z.advanced else z) := by
  unfold storiesAdvanced
  cases hy : l.find? (fun y => y.id == id) with
  | none =>
    have hz : z.id ≠ id := by simpa using List.find?_eq_none.1 hy z (List.mem_of_find?_eq_some h)
    rw [if_neg hz]; exact h
  | some y =>
    have hyid : y.id = id := by simpa using List.find?_some hy
    dsimp only
    obtain ⟨hz, as, bs, rfl, has⟩ := List.find?_eq_some_iff_append.1 h
    by_cases e : z.id = id
    · subst e
      have hyz : z = y := Option.some.inj ((find?_of_weaker (fun a k => by rw [k]; rfl) h (by simp)).symm.trans hy)
      rw [if_pos rfl, ← hyz]
      refine List.find?_eq_some_iff_append.2 ⟨by simp, as.map (fun a => if a.id = z.id then z.advanced else a),
        bs.map (fun a => if a.id = z.id then z.advanced else a), ?_, fun a ha => ?_⟩
      · rw [List.map_append, List.map_cons, if_pos rfl]
      · obtain ⟨b, hb, rfl⟩ := List.mem_map.1 ha
        have hne := has b hb
        rw [if_neg (fun k : b.id = z.id => by simp [k] at hne)]
        exact hne
    · rw [if_neg e]
      refine List.find?_eq_some_iff_append.2 ⟨hz, as.map (fun a => if a.id = id then y.advanced else a),
        bs.map (fun a => if a.id = id then y.advanced else a), ?_, fun a ha => ?_⟩
      · rw [List.map_append, List.map_cons, if_neg e]
      · obtain ⟨b, hb, rfl⟩ := List.mem_map.1 ha
        split
        · next hb' =>
          have hya : y ∈ as := by
            rw [List.find?_append] at hy
            cases k : as.find? (fun y => y.id == id) with
            | none => exact absurd hb' (by simpa using List.find?_eq_none.1 k b hb)
            | some w =>
              rw [k] at hy
              rw [← Option.some.inj hy]
              exact List.mem_of_find?_eq_some k
          exact has y hya
        · exact has b hb

/-- A storyboard stands under the name of `y` with its first `n` launches ended, out of its queue where `q`. -/
def ending (y : Story) (n : Nat) (q : Prop) (l : List Story) : Prop :=
  ∃ z, anchored l z ∧ z.id = y.id ∧ z.va = y.va ∧ z.nth = y.nth ∧ z.launches.length = y.launches.length ∧ (q → z.queued = false) ∧
    ∀ i, i < n → ∃ st, z.launches[i]? = some st ∧ st.final = true

theorem ending_off {y : Story} {n : Nat} {q : Prop} {l : List Story} (h : ending y n q l) (id : Nat) :
    ending y n (q ∨ id = y.id) (storiesOff l id) := by
  obtain ⟨z, ha, h1, h2, h3, h4, h5, h6⟩ := h
  refine ⟨_, anchored_map ha _ (fun a => by split <;> exact ⟨rfl, rfl, rfl⟩), ?_⟩
  split
  · exact ⟨h1, h2, h3, h4, fun _ => rfl, h6⟩
  · next hne => exact ⟨h1, h2, h3, h4, fun k => h5 (k.resolve_right (fun e => hne (h1.trans e.symm))), h6⟩

theorem final_ne_waiting {st : LaunchState} (h : st.final = true) : st ≠ .waiting := by
  rintro rfl; exact Bool.false_ne_true h

/-- Launches that have ended stay ended when one is set to an end and the storyboard goes on. -/
theorem ended_set {l : List LaunchState} {i k : Nat} {st : LaunchState} (h : ∃ st, l[i]? = some st ∧ st.final = true)
    (hs : st.final = true) (edges : List (Nat × Nat)) (j f : Nat) :
    ∃ st', (skipFrom edges (l.set k st) j f)[i]? = some st' ∧ st'.final = true := by
  obtain ⟨st', h1, h2⟩ := h
  by_cases e : k = i
  · subst e
    have hk : k < l.length := by
      by_contra hk
      rw [List.getElem?_eq_none (Nat.le_of_not_lt hk)] at h1
      cases h1
    exact ⟨st, skipFrom_kept edges (List.getElem?_set_self hk) (final_ne_waiting hs) .., hs⟩
  · exact ⟨st', skipFrom_kept edges ((List.getElem?_set_ne e).trans h1) (final_ne_waiting h2) .., h2⟩

theorem ending_settled {y : Story} {n : Nat} {q : Prop} {l : List Story} (h : ending y n q l) (id k : Nat) {st : LaunchState}
    (hs : st.final = true) : ending y n q (storiesAdvanced (storiesSet l id k st) id) ∧
      (id = y.id → k = n → n < y.launches.length → ending y (n + 1) q (storiesAdvanced (storiesSet l id k st) id)) := by
  obtain ⟨z, ha, h1, h2, h3, h4, h5, h6⟩ := h
  have hm := anchored_map ha (fun y => if y.id = id then { y with launches := y.launches.set k st } else y)
    (fun a => by split <;> exact ⟨rfl, rfl, rfl⟩)
  have hv := anchored_advanced hm id
  by_cases e : z.id = id
  · rw [if_pos e, if_pos (show ({ z with launches := z.launches.set k st } : Story).id = id from e)] at hv
    have hl : (skipFrom z.edges (z.launches.set k st) 0 (z.launches.set k st).length).length = y.launches.length := by
      rw [skipFrom_length, List.length_set, h4]
    refine ⟨⟨_, hv, h1, h2, h3, hl, h5, fun i hi => ended_set (h6 i hi) hs ..⟩, fun _ hk hn => ?_⟩
    refine ⟨_, hv, h1, h2, h3, hl, h5, fun i hi => ?_⟩
    rcases Nat.lt_succ_iff_lt_or_eq.1 hi with hi | rfl
    · exact ended_set (h6 i hi) hs ..
    · subst hk
      exact ⟨st, skipFrom_kept z.edges (List.getElem?_set_self (h4 ▸ hn)) (final_ne_waiting hs) .., hs⟩
  · rw [if_neg e, if_neg e] at hv
    exact ⟨⟨z, hv, h1, h2, h3, h4, h5, h6⟩, fun k => absurd (h1.trans k.symm) e⟩

/-- A step of an abort of a storyboard: one launch of it aborted, where it has not ended. -/
def State.abortStep (y : Story) (s : State) (i : Nat) : State :=
  match s.story? y.id with
  | none => s
  | some z => if (z.launches.getD i .skipped).final then s else (s.tellAbort z i).abortHere { z with queued := false } i

/-- The launches of one storyboard aborted. -/
def State.abortStory (s : State) (y : Story) : State :=
  (upFrom 0 y.launches.length).foldl (State.abortStep y) { s with stories := storiesOff s.stories y.id }

theorem abortStories_eq (s : State) (p : Story → Bool) :
    s.abortStories p = (s.stories.filter (fun y => p y && !y.finished)).foldl State.abortStory s := rfl

theorem onlySends_tellAbort (s : State) (y : Story) (idx : Nat) : onlySends s (s.tellAbort y idx) := by
  unfold State.tellAbort
  dsimp only
  split
  · rfl
  · split
    · exact (sendsMore_foldl_post ..).1
    · exact onlySends_post ..

/-- An abort of a launch here changes the storyboards as an end of that launch does, or not where it has ended. -/
theorem abortHere_stories (s : State) (z : Story) (i : Nat) :
    (s.abortHere z i).stories = s.stories ∨ ∃ k, (s.abortHere z i).stories = storiesAdvanced (storiesSet s.stories k i .aborted) k := by
  unfold State.abortHere
  cases hr : s.runOfMsg z.va z.nth i with
  | some r =>
    obtain ⟨y, -, -, hidx, hret, habo⟩ := runOfMsg_spec hr
    obtain ⟨-, -, h⟩ := endShare_kept (s := s) habo hret
    exact .inr ⟨r.sb, by rw [← hidx]; exact h⟩
  | none =>
    dsimp only
    split
    · exact .inl rfl
    · exact .inr ⟨z.id, by rw [advanceStory_stories, setLaunch_stories]⟩

/-- Of the storyboard that its name leads to, the launch itself is ended. -/
theorem abortHere_named {s : State} {y z : Story} {i : Nat} (hy : s.storyOf z.va z.nth = some y) (hid : y.id = z.id)
    (hf : (z.launches.getD i .skipped).final = false) :
    (s.abortHere z i).stories = storiesAdvanced (storiesSet s.stories z.id i .aborted) z.id := by
  unfold State.abortHere
  cases hr : s.runOfMsg z.va z.nth i with
  | some r =>
    obtain ⟨y', hy', hsb, hidx, hret, habo⟩ := runOfMsg_spec hr
    obtain ⟨-, -, h⟩ := endShare_kept (s := s) habo hret
    have hz : r.sb = z.id := hsb.trans ((congrArg Story.id (Option.some.inj (hy'.symm.trans hy))).trans hid)
    rw [hidx, hz] at h
    exact h
  | none =>
    dsimp only
    rw [if_neg (by rw [hf]; exact Bool.false_ne_true), advanceStory_stories, setLaunch_stories]

theorem ending_abortStep {y : Story} {n : Nat} {q : Prop} {s : State} (h : ending y n q s.stories) (y' : Story) (i : Nat) :
    ending y n q (s.abortStep y' i).stories := by
  unfold State.abortStep
  split
  · exact h
  · next z _ =>
    split
    · exact h
    · have ht := (onlySends_tellAbort s z i).stories
      rcases abortHere_stories (s.tellAbort z i) { z with queued := false } i with e | ⟨k, e⟩
      · rw [e, ht]; exact h
      · rw [e, ht]; exact (ending_settled h k i rfl).1

theorem storyOf_congr {s t : State} (h : t.stories = s.stories) (sb : Word) (nth : Nat) : t.storyOf sb nth = s.storyOf sb nth := by
  unfold State.storyOf; rw [h]

/-- The step of a storyboard's own launch ends it. -/
theorem ending_abortStep_next {y : Story} {n : Nat} {q : Prop} {s : State} (h : ending y n q s.stories) (hn : n < y.launches.length) :
    ending y (n + 1) q (s.abortStep y n).stories := by
  have h' := h
  obtain ⟨z, ha, h1, h2, h3, h4, h5, h6⟩ := h
  have hz : s.story? y.id = some z := h1 ▸ ha.story?
  unfold State.abortStep
  rw [hz]
  dsimp only
  have hn' : n < z.launches.length := h4 ▸ hn
  by_cases hf : (z.launches.getD n .skipped).final = true
  · rw [if_pos hf]
    refine ⟨z, ha, h1, h2, h3, h4, h5, fun i hi => ?_⟩
    rcases Nat.lt_succ_iff_lt_or_eq.1 hi with hi | rfl
    · exact h6 i hi
    · exact ⟨_, List.getElem?_eq_getElem hn', by rwa [List.getD_eq_getElem _ _ hn'] at hf⟩
  · have ht := (onlySends_tellAbort s z n).stories
    rw [if_neg hf, abortHere_named (z := { z with queued := false }) ((storyOf_congr ht ..).trans ha.storyOf) rfl (by simpa using hf), ht]
    exact (ending_settled h' z.id n rfl).2 h1 rfl hn

theorem ending_abortStory {y : Story} {n : Nat} {q : Prop} {s : State} (h : ending y n q s.stories) (y' : Story) :
    ending y n q (s.abortStory y').stories := by
  refine List.foldlRecOn (motive := fun t : State => ending y n q t.stories) _ _ ?_ (fun _ k i _ => ending_abortStep k y' i)
  obtain ⟨z, ha, h1, h2, h3, h4, h5, h6⟩ := ending_off h y'.id
  exact ⟨z, ha, h1, h2, h3, h4, fun k => h5 (.inl k), h6⟩

/-- The abort of a storyboard ends all its launches and takes it from its queue. -/
theorem ending_abortStory_self {y : Story} {n : Nat} {q : Prop} {s : State} (h : ending y n q s.stories) :
    ending y y.launches.length True (s.abortStory y).stories := by
  have h0 : ending y 0 True (storiesOff s.stories y.id) := by
    obtain ⟨z, ha, h1, h2, h3, h4, h5, -⟩ := ending_off h y.id
    exact ⟨z, ha, h1, h2, h3, h4, fun _ => h5 (.inr rfl), fun i hi => absurd hi (Nat.not_lt_zero i)⟩
  have key : ∀ m, m ≤ y.launches.length →
      ending y m True ((upFrom 0 m).foldl (State.abortStep y) { s with stories := storiesOff s.stories y.id }).stories := by
    intro m
    induction m with
    | zero => exact fun _ => h0
    | succ m ih =>
      intro hm
      rw [upFrom_eq_range', List.range'_concat, List.foldl_append, ← upFrom_eq_range', Nat.one_mul, Nat.zero_add]
      exact ending_abortStep_next (ih (Nat.le_of_succ_le hm)) hm
  exact key _ (Nat.le_refl _)

theorem exec_labort (s : State) (w : Writer) (v : Word) :
    exec (.labort w v) s = .next (s.abortStories (fun y => y.va.toNat == fld v.toNat 6 51 * 64)) := rfl

/-- LABORT ends every launch of a storyboard that it names. -/
theorem labort_spec (s : State) (w : Writer) (v : Word) : ∃ t, exec (.labort w v) s = .next t ∧
    ∀ y ∈ s.stories, y.va.toNat = fld v.toNat 6 51 * 64 → y.finished = false → s.story? y.id = some y → s.storyOf y.va y.nth = some y →
      ∃ z, t.story? y.id = some z ∧ z.queued = false ∧ z.launches.all LaunchState.final = true := by
  refine ⟨_, exec_labort s w v, fun y hy hva hf hid hna => ?_⟩
  have hmem : y ∈ s.stories.filter (fun y => (y.va.toNat == fld v.toNat 6 51 * 64) && !y.finished) :=
    List.mem_filter.2 ⟨hy, by simp [hva, hf]⟩
  obtain ⟨l1, l2, hl⟩ := List.append_of_mem hmem
  have h0 : ending y 0 False s.stories :=
    ⟨y, find?_or hid hna, rfl, rfl, rfl, rfl, False.elim, fun i hi => absurd hi (Nat.not_lt_zero i)⟩
  have h1 : ending y 0 False (l1.foldl State.abortStory s).stories :=
    List.foldlRecOn (motive := fun t : State => ending y 0 False t.stories) _ _ h0 (fun _ k y' _ => ending_abortStory k y')
  have h2 : ending y y.launches.length True ((y :: l2).foldl State.abortStory (l1.foldl State.abortStory s)).stories :=
    List.foldlRecOn (motive := fun t : State => ending y y.launches.length True t.stories) l2 _ (ending_abortStory_self h1)
      (fun _ k y' _ => ending_abortStory k y')
  rw [← List.foldl_append, ← hl, ← abortStories_eq] at h2
  obtain ⟨z, ha, e1, -, -, e4, e5, e6⟩ := h2
  refine ⟨z, e1 ▸ ha.story?, e5 trivial, List.all_eq_true.2 fun st hst => ?_⟩
  obtain ⟨i, hi, rfl⟩ := List.mem_iff_getElem.1 hst
  obtain ⟨st', hst', hfin⟩ := e6 i (e4 ▸ hi)
  rw [List.getElem?_eq_getElem hi] at hst'
  rw [Option.some.inj hst']
  exact hfin

end Sys2Proof.Machine
end

section
/-! PROOFS. Retirement of launches and WLOC (02 R49, R54), and what launches do as a whole. -/

namespace Sys2Proof.Machine

/-! ### Retirement (02 R54) -/

/-- The writes of a share released at the scope of its domain. -/
def State.releasedShare (s : State) : State :=
  let s := s.dies.foldl State.takeHorizon s
  let all := s.dies.foldl (fun v d => vmax v (s.vecOf d)) []
  (Config.hubDie :: s.dies).foldl (fun s d => s.mergeVec d all) s

/-- What a retired run leaves behind: T1 of its storyboard where it is the sink, and nothing of its barriers and cuts. -/
def State.leaves (s : State) (r : Run) (y : Story) : State :=
  { s with
    stories := s.stories.map (fun (z : Story) =>
      if z.id = y.id ∧ (!y.edges.any (fun e => e.1 == r.idx)) = true then { z with t1 := s.dcyc } else z),
    barInsts := s.barInsts.filter (fun b => b.run != r.id), xgroups := s.xgroups.filter (fun x => x.run != r.id),
    cuts := s.cuts.filter (fun c => c.run != r.id) }

theorem exec_launchRetire {s : State} {r : Run} {y : Story} (hr : s.run? r.id = some r) (hy : s.story? r.sb = some y) :
    exec (.launchRetire r.id) s =
      if !s.shareEnded r then .next s
      else if 1 < r.d ∧ !r.allEnded then
        (if r.reported then .next s
         else .next ((s.setRun { r with reported := true }).post (s.rootPeer r) (.pass (agreeMsg y r.idx endedCode 0))))
      else .next ((((s.releasedShare.noting fun s => s.setRun { r with retired := true, preempted := false }).leaves r y).setLaunch y.id
        r.idx .retired).advanceStory y.id) := by
  show execLaunchRetire r.id s = _
  rw [execLaunchRetire, hr]
  dsimp only
  rw [hy]
  rfl

theorem launchRetire_reports {s : State} {r : Run} {y : Story} (hr : s.run? r.id = some r) (hy : s.story? r.sb = some y)
    (he : s.shareEnded r = true) (hd : 1 < r.d) (ha : r.allEnded = false) (hp : r.reported = false) :
    ∃ t, exec (.launchRetire r.id) s = .next t ∧ t.run? r.id = some { r with reported := true } ∧
      t.sentTo (s.rootPeer r) (.pass (agreeMsg y r.idx endedCode 0)) := by
  rw [exec_launchRetire hr hy, if_neg (by rw [he]; decide), if_pos ⟨hd, by rw [ha]; rfl⟩, if_neg (by rw [hp]; decide)]
  refine ⟨_, rfl, (run?_congr (onlySends_post ..).runs _).trans ?_, sentTo_post ..⟩
  exact run?_setRun (q := { r with reported := true }) hr

/-- A storyboard is found again after a change that keeps the identifiers. -/
theorem find_story_map {l : List Story} {id : Nat} {y : Story} (h : l.find? (fun y => y.id == id) = some y) {f : Story → Story}
    (hf : ∀ a, (f a).id = a.id) : (l.map f).find? (fun y => y.id == id) = some (f y) := by
  have hp : ((fun y : Story => y.id == id) ∘ f) = fun y => y.id == id := by
    funext a; dsimp only [Function.comp]; rw [hf]
  rw [List.find?_map, hp, h, Option.map_some]

theorem releasedShare_kept (s : State) : onlyUnit s s.releasedShare ∧ s.releasedShare.stories = s.stories := by
  have hd : onlyUnit s (s.dies.foldl State.takeHorizon s) ∧ (s.dies.foldl State.takeHorizon s).stories = s.stories :=
    List.foldlRecOn (motive := fun t => onlyUnit s t ∧ t.stories = s.stories) s.dies _ ⟨rfl, rfl⟩
      (fun t k d _ => ⟨onlyUnit_trans k.1 (onlyUnit_takeHorizon t d), k.2⟩)
  exact List.foldlRecOn (motive := fun t => onlyUnit s t ∧ t.stories = s.stories) (Config.hubDie :: (s.dies.foldl State.takeHorizon s).dies)
    _ hd (fun t k d _ => ⟨onlyUnit_trans k.1 rfl, k.2⟩)

/-- A storyboard stands, with the same launches, when a run of it is left behind. -/
theorem story?_leaves {s : State} {y z : Story} (h : s.story? y.id = some z) (r : Run) :
    ∃ z', (s.leaves r y).story? y.id = some z' ∧ z'.launches = z.launches := by
  refine ⟨_, find_story_map h (fun a => by split <;> rfl), ?_⟩
  split <;> rfl

theorem setLaunch_leaves_runs (s : State) (r : Run) (y : Story) : ((s.leaves r y).setLaunch y.id r.idx .retired).runs = s.runs := rfl

theorem launchRetire_retires {s : State} {r : Run} {y : Story} (hr : s.run? r.id = some r) (hy : s.story? r.sb = some y)
    (he : s.shareEnded r = true) (ha : r.d ≤ 1 ∨ r.allEnded = true) (hi : r.idx < y.launches.length) :
    ∃ t z, exec (.launchRetire r.id) s = .next t ∧ t.run? r.id = some { r with retired := true, preempted := false } ∧
      t.story? y.id = some z ∧ z.launches[r.idx]? = some .retired := by
  obtain ⟨hu, hst⟩ := releasedShare_kept s
  have hn := onlySends_noting s.releasedShare fun s => s.setRun { r with retired := true, preempted := false }
  have hyid : y.id = r.sb := by simpa using List.find?_some hy
  obtain ⟨z', hz', hl⟩ := story?_leaves ((story?_congr (hn.stories.trans hst) y.id).trans (hyid ▸ hy)) r
  obtain ⟨z, hz, hzi⟩ := story?_settled hz' (hl ▸ hi) (st := .retired) (fun h => LaunchState.noConfusion h)
  have hrun : (s.releasedShare.setRun { r with retired := true, preempted := false }).run? r.id =
      some { r with retired := true, preempted := false } :=
    run?_setRun (q := { r with retired := true, preempted := false }) ((run?_congr hu.runs _).trans hr)
  have hrun' := (run?_congr (onlyUnit_advanceStory _ y.id).runs r.id).trans ((run?_congr (setLaunch_leaves_runs _ r y) r.id).trans
    ((run?_congr hn.runs _).trans hrun))
  have he' : ¬(!s.shareEnded r) = true := by rw [he]; decide
  have ha' : ¬(1 < r.d ∧ (!r.allEnded) = true) := by
    rintro ⟨h1, h2⟩
    rcases ha with h | h
    · omega
    · rw [h] at h2; exact Bool.false_ne_true h2
  exact ⟨_, z, (exec_launchRetire hr hy).trans ((if_neg he').trans (if_neg ha')), hrun', hz, hzi⟩

/-! ### WLOC (02 R49) -/

theorem Core.comes_pend_ne (c : Core) (p : Pending) {x : Bool} {r : Reg} (h : p.value r = none) :
    ({ c with pends := c.pends ++ [p] } : Core).comes x r = c.comes x r := by
  have hv : (({ c with pends := c.pends ++ [p] } : Core).pends.filter (fun q => q.x == x)).findSome? (fun q => q.value r) =
      (c.pends.filter (fun q => q.x == x)).findSome? (fun q => q.value r) := by
    rw [List.filter_append, List.findSome?_append, List.filter_cons, List.filter_nil]
    split
    · rw [List.findSome?_cons, h]; simp
    · simp
  have hs : sameRegs ({ c with pends := c.pends ++ [p] } : Core) c := ⟨rfl, rfl, rfl, rfl, rfl, rfl, rfl⟩
  have hl : sameRegs (({ c with pends := c.pends ++ [p] } : Core).landed x r) (c.landed x r) := sameRegs_fold hs _
  unfold Core.comes
  rw [hv, sameRegs_reg hs, sameRegs_reg hl]
  rcases hq : (c.pends.filter (fun q => q.x == x)).findSome? (fun q => q.value r) with _ | ⟨_ | m, v⟩
  · rw [hq]
  · rw [hq]
  · rw [hq]; dsimp only; rw [sameRegs_reg (sameRegs_setReg hl r m v)]

theorem me_pendNew (s : State) (o : List (Reg × Option Nat)) :
    (s.pendNew o).me = { s.me with pends := s.me.pends ++ [{ id := s.nextId, x := s.cur.x, outs := o, masks := [] }] } := by
  unfold State.pendNew State.pendAs
  rw [State.me_setMe]; rfl

theorem onlyMe_pendNew (s : State) (o : List (Reg × Option Nat)) : s.onlyMe (s.pendNew o) :=
  State.onlyMe_trans (t := s.fresh.2) ⟨rfl, fun _ _ => rfl⟩ (State.onlyMe_setMe ..)

/-- An instruction that ends with one new result for a register: the register gets it, and no other changes. -/
theorem retire_pendNew {s : State} {r : Reg} (hp : s.me.pendingReg s.cur.x r = false) (h0 : r ≠ .pa 0 ∧ r ≠ .px 0) (h : Hdr) (v : Nat) :
    ∃ t, retire h (s.pendNew [(r, some v)]) = .next t ∧ s.wentOn t h ∧ t.gets r v ∧ s.onlyMe t ∧ s.me.sameBut t.me [r] := by
  obtain ⟨t, e, w, o, m⟩ := retire_spec h (s.pendNew [(r, some v)])
  have hc (x : Bool) (q : Reg) : t.me.comes x q = (s.pendNew [(r, some v)]).me.comes x q := by
    rw [m]; exact Core.comes_leave _ _ _ _ _ (by simp only [Stream.advance, Stream.left]; rfl)
  refine ⟨t, e, wentOn_of_sameFlow (sameFlow_pendNew ..) w, ?_, State.onlyMe_trans (onlyMe_pendNew ..) o, fun x q hq => ?_⟩
  · have hcur : t.cur = s.cur := w.1
    unfold State.gets
    rw [hc, hcur]
    exact comes_pendNew s v hp h0
  · have hrq : r ≠ q := fun k => hq (k ▸ List.mem_singleton_self r)
    rw [hc, me_pendNew]
    refine Core.comes_pend_ne _ _ ?_
    simp [Pending.value, hrq]

/-- Whether WLOC gives the core of a work identifier (02 R49). -/
def Run.locates (r : Run) (k : Task) (w l : Nat) : Prop :=
  l < 16 ∧ (∃ lv, r.levels[l]? = some lv ∧ lv.co = true) ∧ w < 2 ^ loOf r.levels r.levels.length ∧
  (∀ e, e < r.levels.length → coordOf r.levels w e < extOf r.levels e ∧
    (l < e → coordOf r.levels w e = coordOf r.levels k.wid.toNat e)) ∧
  deviceIndex r.levels w % r.d = r.dIdx

/-- The test with which WLOC traps. -/
def Run.misses (r : Run) (k : Task) (w l : Nat) : Bool :=
  decide (16 ≤ l) || !(r.levels[l % 16]?).any TreeLevel.co || decide (2 ^ loOf r.levels r.levels.length ≤ w) ||
    (upFrom 0 r.levels.length).any (fun e => decide (extOf r.levels e ≤ coordOf r.levels w e)) ||
    (upFrom 0 r.levels.length).any (fun e => decide (l % 16 < e) && coordOf r.levels w e != coordOf r.levels k.wid.toNat e) ||
    deviceIndex r.levels w % r.d != r.dIdx

theorem locates_iff (r : Run) (k : Task) (w l : Nat) : r.locates k w l ↔ r.misses k w l = false := by
  unfold Run.locates Run.misses
  by_cases hl : l < 16
  · rw [Nat.mod_eq_of_lt hl]
    simp only [Bool.or_eq_false_iff, List.any_eq_false, mem_upFrom, Bool.not_eq_false', decide_eq_false_iff_not, Bool.and_eq_true,
      decide_eq_true_eq, bne_iff_ne, Option.any_eq_true, bne_eq_false_iff_eq]
    constructor
    · rintro ⟨-, ⟨lv, h1, h2⟩, h3, h4, h5⟩
      exact ⟨⟨⟨⟨⟨Nat.not_le.2 hl, lv, h1, h2⟩, Nat.not_le.2 h3⟩, fun e he => Nat.not_le.2 (h4 e (by omega)).1⟩,
        fun e he hc => hc.2 ((h4 e (by omega)).2 hc.1)⟩, h5⟩
    · rintro ⟨⟨⟨⟨⟨-, lv, h1, h2⟩, h3⟩, h4⟩, h4'⟩, h5⟩
      refine ⟨hl, ⟨lv, h1, h2⟩, Nat.not_le.1 h3, fun e he => ⟨Nat.not_le.1 (h4 e (by omega)), fun hle => ?_⟩, h5⟩
      by_contra hc
      exact h4' e (by omega) ⟨hle, hc⟩
  · simp only [hl, false_and, false_iff]
    simp [Nat.le_of_not_lt hl]

theorem exec_wloc {s : State} {h : Hdr} {i j : BitVec 6} {scope : BitVec 5} {r : Run} {k : Task} (hi : s.issues (.wloc h (.g i) (.g j) scope))
    (hn : s.serves ((dstNeeds s.cur.x (.g i)).and (srcNeeds s.cur.x (.g j)))) (hr : s.runOf s.cur.core = some r)
    (hk : s.me.task = some k) :
    exec (.wloc h (.g i) (.g j) scope) s = keepGuard (s.laneMask h)
      (if r.misses k (s.take (.g j)).1.toNat scope.toNat then trap 0x05 0 0 scope.toNat s
       else match r.placeOf k (s.take (.g j)).1.toNat with
        | some n => retire h (s.pendNew [(.g i.toNat, some n)])
        | none => trap 0x05 0 0 scope.toNat s) := by
  show execWloc h (.g i) (.g j) scope s = _
  rw [execWloc, issue_eq hi, withNeeds_eq hn]
  dsimp only
  rw [hr, hk]
  rfl

/-- WLOC of a work identifier that it does not locate traps. -/
theorem wloc_traps {s : State} {h : Hdr} {i j : BitVec 6} {scope : BitVec 5} {r : Run} {k : Task} (hi : s.issues (.wloc h (.g i) (.g j) scope))
    (hn : s.serves ((dstNeeds s.cur.x (.g i)).and (srcNeeds s.cur.x (.g j)))) (hr : s.runOf s.cur.core = some r)
    (hk : s.me.task = some k) (hl : ¬r.locates k (s.take (.g j)).1.toNat scope.toNat) :
    exec (.wloc h (.g i) (.g j) scope) s = .next (s.trapOn s.cur.core s.cur.x 0x05 0 0 scope.toNat) := by
  rw [exec_wloc hi hn hr hk, if_pos (by simpa [locates_iff] using hl), keepGuard_trap]

theorem wloc_locates {s : State} {h : Hdr} {i j : BitVec 6} {scope : BitVec 5} {r : Run} {k : Task} (hi : s.issues (.wloc h (.g i) (.g j) scope))
    (hn : s.serves ((dstNeeds s.cur.x (.g i)).and (srcNeeds s.cur.x (.g j)))) (hr : s.runOf s.cur.core = some r)
    (hk : s.me.task = some k) {n : Nat} (hl : r.locates k (s.take (.g j)).1.toNat scope.toNat)
    (hp : r.placeOf k (s.take (.g j)).1.toNat = some n) :
    ∃ t, exec (.wloc h (.g i) (.g j) scope) s = .next t ∧ s.wentOn t h ∧ t.gets (.g i.toNat) n ∧ s.onlyMe t ∧
      s.me.sameBut t.me [.g i.toNat] := by
  rw [exec_wloc hi hn hr hk, if_neg (by rw [(locates_iff ..).1 hl]; exact Bool.false_ne_true), hp]
  dsimp only
  rw [keepGuard_retire]
  refine retire_pendNew (free_of_met hn.1 ?_) ⟨by simp, by simp⟩ h n
  exact List.mem_append_left _ (dstNeeds_writes (d := .g i) rfl)

/-! ### Launches as a whole -/

/-- Settles O56: every instruction and event of the launch unit by its own lemma. -/
theorem launchUnitResults : Obligations.LaunchUnitResults := by
  unfold Obligations.LaunchUnitResults
  intro s
  refine ⟨fun h a hi hn => launch_spec s h a hi hn, fun w v => ⟨fun h => lport_discarded w v h, fun hr h1 h2 h3 => ?_⟩,
    fun sb space d idx floor => ⟨fun t h => submit_submits h, fun hd u hu => ⟨fun hq => submit_full hu hq, ?_⟩⟩,
    fun y idx => ⟨fun u h => checkSlate_unread h, fun b u h hv => checkSlate_format h hv, fun hy h => launchAccept_waits hy h,
      fun hy ha hb => ⟨fun r u hc => ?_, fun code level u z hc hz hi => launchAccept_fault hy ha hb hc hz hi⟩⟩,
    fun ls es k lo f l h => levelFault_first h es lo f, fun m y hy => ⟨fun hm hn => ⟨_, pass_waits hy hm hn, rfl⟩, fun hm hn => ?_,
      fun hs hi hf => fault_settles hy hs hi hf⟩,
    fun m hm => pass_lost s hm, fun m r hr ha => go_spec hr ha,
    fun m y hy => ⟨abortReport_spec hy, fun r hr => abort_spec hy hr⟩, labort_spec s,
    fun r y hr hy => ⟨fun he => ?_, launchRetire_reports hr hy, launchRetire_retires hr hy⟩,
    fun h i j scope r k hi hn hr hk => ⟨fun hl => wloc_traps hi hn hr hk hl, fun n hl hp => wloc_locates hi hn hr hk hl hp⟩⟩
  · have e := lport_submits w v hr h1 h2 h3
    exact ⟨fun t ht => by rw [e, ht, Option.getD_some], fun ht => by rw [e, ht, Option.getD_none]⟩
  · intro pg w body x hq hr ha hrop hp hv hn1 hn2 hne hz hz' hb edges hg
    exact submit_taken hu hq hr ha hrop hp hv hn1 hn2 hne hz hz' hb hg
  · obtain ⟨t, e, h1, h2, h3⟩ := launchAccept_pass hy ha hb hc
    exact ⟨t, e, h1, fun z hz hid => by rw [h2, ← hid]; exact mem_accepting hz idx _, h3⟩
  · obtain ⟨t, e, ht⟩ := pass_answers hy hm hn
    refine ⟨fun he => ?_, fun he hv => ?_, fun f he hv => ⟨?_, fun hx => verdictOf_fault hv hx⟩⟩
    · exact ⟨t, e, (if_pos he : s.answerTo m = .go m) ▸ ht⟩
    · exact ⟨t, e, (show s.answerTo m = .go m from answerTo_of_verdict he hv) ▸ ht⟩
    · exact ⟨t, e, (show s.answerTo m = .fault f from answerTo_of_verdict he hv) ▸ ht⟩
  · rw [exec_launchRetire hr hy, he]
    rfl

end Sys2Proof.Machine
end

section
/-! PROOFS. Dealing, and the start of a group (02 R36, R51, R60, 17 R379, R380). -/

namespace Sys2Proof.Machine

/-! ### Dealing (02 R51, 17 R379) -/

/-- What a deal needs: the launch may be dealt to, the cores are idle and suit its next group, and no other launch goes first. -/
def State.mayDeal (s : State) (r : Run) (cores : List Nat) (free : Nat) : Prop :=
  s.dealable r = true ∧
  (∀ n ∈ cores, s.ownCore n = true ∧ isHub n = false ∧ tget false n r.excl = false ∧ n ∉ s.busyCores ∧ r.inPlace n = false ∧
    r.pinned n = false) ∧
  r.fitsOn r.dealt cores = true ∧ free = s.freePlaces r (r.barred s.busyCores) ∧ s.turnOf r s.busyCores = true ∧
  s.runs.any s.resumable = false

/-- The test with which a deal is refused. -/
def State.refusesDeal (s : State) (r : Run) (cores : List Nat) (free : Nat) : Bool :=
  !s.dealable r || !cores.all (fun n => s.ownCore n && !isHub n && !r.barred s.busyCores n && !r.inPlace n && !r.pinned n) ||
    !r.fitsOn r.dealt cores || free != s.freePlaces r (r.barred s.busyCores) || !s.turnOf r s.busyCores || s.runs.any s.resumable

theorem mayDeal_iff (s : State) (r : Run) (cores : List Nat) (free : Nat) : s.mayDeal r cores free ↔ s.refusesDeal r cores free = false := by
  unfold State.mayDeal State.refusesDeal Run.barred
  simp [and_assoc]

theorem exec_deal {s : State} {r : Run} (hr : s.run? r.id = some r) (cores : List Nat) (free : Nat) :
    exec (.deal r.id cores free) s =
      if s.refusesDeal r cores free then .next s
      else .next (s.fresh.2.setRun { r with
        dealt := r.dealt + r.chunk free, turn := s.nextId, pins := r.pinsOf (r.dealt + r.chunk free - 1) (cores.headD 0),
        places := r.places ++
          [{ cores := cores, current := r.dealt, last := r.dealt + r.chunk free - 1, started := false, live := [] }] }) := by
  show execDeal r.id cores free s = _
  rw [execDeal, hr]
  rfl

/-- The size of a chunk (02 R51): one group where the order counts, else its share of what is left. -/
theorem chunk_spec (r : Run) (free : Nat) : 1 ≤ r.chunk free ∧ (r.ordered = true → r.chunk free = 1) ∧
    (r.ordered = false → wideGroup r.levels = false → r.chunk free = max 1 ((r.groups - r.dealt + 2 * free - 1) / (2 * free))) := by
  unfold Run.chunk
  dsimp only
  refine ⟨?_, fun ho => ?_, fun ho hw => ?_⟩
  · split
    · exact Nat.le_max_left ..
    · split
      · exact Nat.le_refl 1
      · exact Nat.le_max_left ..
  · rw [if_pos ho]
    split
    · refine Nat.max_eq_left ((List.takeWhile_prefix _).length_le.trans ?_)
      exact Nat.le_refl 1
    · rfl
  · rw [ho, hw]
    rfl

theorem deal_spec {s : State} {r : Run} (hr : s.run? r.id = some r) (cores : List Nat) (free : Nat) :
    (¬s.mayDeal r cores free → exec (.deal r.id cores free) s = .next s) ∧
    (s.mayDeal r cores free → ∃ t k, exec (.deal r.id cores free) s = .next t ∧ 1 ≤ k ∧ t.cores = s.cores ∧
      t.run? r.id = some { r with
        dealt := r.dealt + k, turn := s.nextId, pins := r.pinsOf (r.dealt + k - 1) (cores.headD 0),
        places := r.places ++ [{ cores := cores, current := r.dealt, last := r.dealt + k - 1, started := false, live := [] }] } ∧
      (r.ordered = true → k = 1) ∧
      (r.ordered = false → wideGroup r.levels = false → k = max 1 ((r.groups - r.dealt + 2 * free - 1) / (2 * free)))) := by
  rw [mayDeal_iff, exec_deal hr]
  refine ⟨fun h => if_pos (by simpa using h), fun h => ?_⟩
  obtain ⟨h1, h2, h3⟩ := chunk_spec r free
  rw [if_neg (by rw [h]; exact Bool.false_ne_true)]
  exact ⟨_, _, rfl, h1, rfl, run?_setRun (q := { r with
    dealt := r.dealt + r.chunk free, turn := s.nextId, pins := r.pinsOf (r.dealt + r.chunk free - 1) (cores.headD 0),
    places := r.places ++ [{ cores := cores, current := r.dealt, last := r.dealt + r.chunk free - 1, started := false, live := [] }] })
    (s := s.fresh.2) hr, h2, h3⟩

/-! ### Words as bytes -/

theorem wordBytes_append (l m : List Nat) : wordBytes (l ++ m) = wordBytes l ++ wordBytes m := List.flatMap_append

theorem wordBytes_length (l : List Nat) : (wordBytes l).length = 8 * l.length := by
  induction l with
  | nil => rfl
  | cons w ws ih => rw [wordBytes, List.flatMap_cons, List.length_append, leBytes_length, ← wordBytes, ih, List.length_cons]; omega

/-- A word read where words have been written one after another. -/
theorem rdLe_wordBytes (t : Table Byte) (a : Nat) {ws : List Nat} {k w : Nat} (h : ws[k]? = some w) :
    rdLe (tputs 0 a (wordBytes ws) t) (a + 8 * k) 8 = w % 2 ^ 64 := by
  obtain ⟨hk, hw⟩ := List.getElem?_eq_some_iff.1 h
  have e : wordBytes ws = wordBytes (ws.take k) ++ leBytes w 8 ++ wordBytes (ws.drop (k + 1)) := by
    rw [← hw]
    conv_lhs => rw [← List.take_append_drop k ws, List.drop_eq_getElem_cons hk, wordBytes_append]
    rw [List.append_assoc]
    rfl
  have hl : (wordBytes (ws.take k)).length = 8 * k := by rw [wordBytes_length, List.length_take, Nat.min_eq_left (Nat.le_of_lt hk)]
  rw [e, ← hl]
  exact rdLe_tputs ..

/-! ### Cores groomed (02 R36, 17 R380) -/

/-- Of a state only what the start of a group writes to cores has changed. -/
def onlyGrooms (s t : State) : Prop :=
  { t with lines := s.lines, reqs := s.reqs, cores := s.cores, gangs := s.gangs, agenda := s.agenda } = s

theorem onlyGrooms_trans {s t u : State} (h : onlyGrooms s t) (k : onlyGrooms t u) : onlyGrooms s u := by
  unfold onlyGrooms at *
  rw [← h]; conv_rhs => rw [← k]

theorem onlyGrooms_cleanCluster (s : State) (cl : Nat) : onlyGrooms s (s.cleanCluster cl) := rfl
theorem onlyGrooms_setCore (s : State) (n : Nat) (c : Core) : onlyGrooms s (s.setCore n c) := rfl
theorem onlyGrooms_setGang (s : State) (n : Nat) (g : Gang) : onlyGrooms s (s.setGang n g) := rfl
theorem onlyGrooms_agenda (s : State) (l : List Instr) : onlyGrooms s { s with agenda := l } := rfl

theorem onlyGrooms_groom (s : State) (r : Run) (k n j : Nat) : onlyGrooms s (s.groom r k n j) := by
  have hc : onlyGrooms s ((s.cleanCluster (clusterOf n)).setCore n (s.groomed r k n j)) :=
    onlyGrooms_trans (onlyGrooms_cleanCluster ..) (onlyGrooms_setCore ..)
  unfold State.groom
  dsimp only
  split
  · exact onlyGrooms_trans (onlyGrooms_trans hc (onlyGrooms_setGang ..)) (onlyGrooms_agenda ..)
  · exact onlyGrooms_trans hc (onlyGrooms_agenda ..)

theorem cores_cleanCluster (s : State) (cl : Nat) : (s.cleanCluster cl).cores = s.cores := rfl

theorem core_groom (s : State) (r : Run) (k n j m : Nat) :
    (s.groom r k n j).core m = if m = n then s.groomed r k n j else s.core m := by
  have h (u : State) (hu : u.cores = (s.cleanCluster (clusterOf n)).cores) (hg : u.groomed r k n j = s.groomed r k n j) :
      (u.setCore n (u.groomed r k n j)).core m = if m = n then s.groomed r k n j else s.core m := by
    rw [State.core_setCore, hg, core_congr hu, core_congr (cores_cleanCluster ..)]
  unfold State.groom
  dsimp only
  split
  · exact h (s.cleanCluster (clusterOf n)) rfl rfl
  · exact h (s.cleanCluster (clusterOf n)) rfl rfl

theorem agenda_groom (s : State) (r : Run) (k n j : Nat) : (s.groom r k n j).agenda =
    s.agenda ++ [.start { core := n, run := r.id, group := k, gidx := j, resume := false, xrun := false }] := by
  unfold State.groom
  dsimp only
  split <;> rfl

/-- What a core is groomed to depends on that core and on the device's registers. -/
theorem groomed_congr {s t : State} (h : onlyGrooms s t) {n : Nat} (hc : t.core n = s.core n) (r : Run) (k j : Nat) :
    t.groomed r k n j = s.groomed r k n j := by
  have hp : t.peerid = s.peerid := by unfold onlyGrooms at h; rw [← h]
  have hs : t.svDefaults = s.svDefaults := by unfold onlyGrooms at h; rw [← h]; rfl
  unfold State.groomed identWords
  dsimp only
  rw [hc, hp, hs]

/-- The cores of a group groomed one after another. -/
def State.grooms (s : State) (r : Run) (k : Nat) (l : List (Nat × Nat)) : State := l.foldl (fun t e => t.groom r k e.1 e.2) s

theorem onlyGrooms_grooms (s : State) (r : Run) (k : Nat) (l : List (Nat × Nat)) : onlyGrooms s (s.grooms r k l) :=
  List.foldlRecOn l _ (show onlyGrooms s s from rfl) (fun _ h e _ => onlyGrooms_trans h (onlyGrooms_groom _ r k e.1 e.2))

theorem core_grooms_ne {l : List (Nat × Nat)} {n : Nat} (h : n ∉ l.map Prod.fst) (s : State) (r : Run) (k : Nat) :
    (s.grooms r k l).core n = s.core n := by
  refine List.foldlRecOn (motive := fun t : State => t.core n = s.core n) l _ rfl (fun t ht e he => ?_)
  have hne : n ≠ e.1 := fun hn => h (hn ▸ List.mem_map_of_mem he)
  rw [core_groom, if_neg hne, ht]

theorem core_grooms {l : List (Nat × Nat)} (h : (l.map Prod.fst).Nodup) (s : State) (r : Run) (k : Nat) :
    ∀ e ∈ l, (s.grooms r k l).core e.1 = s.groomed r k e.1 e.2 := by
  induction l generalizing s with
  | nil => exact fun e he => absurd he List.not_mem_nil
  | cons a l ih =>
    rw [List.map_cons, List.nodup_cons] at h
    obtain ⟨ha, hl⟩ := h
    intro e he
    show ((s.groom r k a.1 a.2).grooms r k l).core e.1 = _
    rcases List.mem_cons.1 he with rfl | he
    · rw [core_grooms_ne ha, core_groom, if_pos rfl]
    · have hne : e.1 ≠ a.1 := fun k => ha (k ▸ List.mem_map_of_mem he)
      rw [ih hl _ e he, groomed_congr (onlyGrooms_groom ..)]
      rw [core_groom, if_neg hne]

theorem agenda_grooms (s : State) (r : Run) (k : Nat) (l : List (Nat × Nat)) : (s.grooms r k l).agenda =
    s.agenda ++ l.map (fun e => .start { core := e.1, run := r.id, group := k, gidx := e.2, resume := false, xrun := false }) := by
  induction l generalizing s with
  | nil => exact (List.append_nil _).symm
  | cons a l ih =>
    show ((s.groom r k a.1 a.2).grooms r k l).agenda = _
    rw [ih, agenda_groom, List.append_assoc]
    rfl

/-! ### What a core holds at the start of a task (02 R36, 05 R119, 16 R360) -/

theorem groomed_registers (s : State) (r : Run) (k n j : Nat) :
    let c := s.groomed r k n j
    (∀ i, c.reg (.g i) = 0 ∧ c.reg (.s i) = 0 ∧ c.reg (.v i) = 0) ∧ (∀ i, 1 ≤ i → c.reg (.pa i) = 0 ∧ c.reg (.px i) = 0) ∧
    (∀ i, 32 ≤ i → i < 64 → c.absent (.g i) = true) ∧ (∀ i, i < 32 → c.absent (.v i) = true) ∧
    c.reg (.key 0x10) = r.seed % 2 ^ 64 := by
  have hv (i : Nat) : (s.groomed r k n j).reg (.v i) = (tget (0 : BitVec 1024) i []).toNat := rfl
  refine ⟨fun i => ⟨rfl, rfl, by rw [hv, tget]; exact BitVec.toNat_zero⟩, fun i hi => ⟨if_neg (Nat.ne_of_gt hi), if_neg (Nat.ne_of_gt hi)⟩, fun i hi _ => ?_, fun i _ => rfl, ?_⟩
  · show (decide (32 ≤ i) && true) = true
    rw [decide_eq_true hi]; rfl
  · show (tget 0 0x10 (tput 0 0x10 (BitVec.ofNat 64 r.seed) [])).toNat = _
    rw [tget_tput_same, BitVec.toNat_ofNat]

theorem groomed_supervisor (s : State) (r : Run) (k n j : Nat) :
    let c := s.groomed r k n j
    c.svGet 0 = s.cctldef ∧ c.svGet 1 = s.tvecdef ∧ c.svGet 9 = s.spilladef ∧ c.svGet 0xA = s.spillxdef := by
  have h (i : Nat) : (s.groomed r k n j).svGet i = tget 0 i s.svDefaults := rfl
  unfold State.svDefaults at h
  refine ⟨?_, ?_, ?_, ?_⟩
  · rw [h, tget_tput_ne _ (by decide), tget_tput_ne _ (by decide), tget_tput_ne _ (by decide), tget_tput_same]
  · rw [h, tget_tput_ne _ (by decide), tget_tput_ne _ (by decide), tget_tput_same]
  · rw [h, tget_tput_ne _ (by decide), tget_tput_same]
  · rw [h, tget_tput_same]

/-- The constant image and the identity words. -/
theorem groomed_words (s : State) (r : Run) (k n j : Nat) (hi : r.image.length = 240) :
    let c := s.groomed r k n j
    let wid := BitVec.ofNat 64 (packWid r.levels 0 (j + groupTasks r.levels * groupNo r.levels r.d r.dIdx k))
    (∀ i w, r.image[i]? = some w → rdLe c.lm (8 * i) 8 = w.toNat) ∧
    ∀ i, i < 16 → rdLe c.lm (8 * (240 + i)) 8 = ((identWords s r n wid).getD i 0) % 2 ^ 64 := by
  dsimp only
  generalize hw : BitVec.ofNat 64 (packWid r.levels 0 (j + groupTasks r.levels * groupNo r.levels r.d r.dIdx k)) = wid
  have hlm : (s.groomed r k n j).lm = tputs 0 0 (wordBytes (r.image.map BitVec.toNat ++ identWords s r n wid)) [] := by
    rw [← hw]; rfl
  have hl : (r.image.map BitVec.toNat).length = 240 := by rw [List.length_map, hi]
  rw [hlm]
  refine ⟨fun i w h => ?_, fun i h => ?_⟩
  · have hlt : i < 240 := hi ▸ (List.getElem?_eq_some_iff.1 h).1
    have := rdLe_wordBytes [] 0 (ws := r.image.map BitVec.toNat ++ identWords s r n wid) (k := i) (w := w.toNat)
      (by rw [List.getElem?_append_left (hl ▸ hlt), List.getElem?_map, h]; rfl)
    rw [Nat.zero_add] at this
    rw [this]
    exact Nat.mod_eq_of_lt w.isLt
  · have hlen : (identWords s r n wid).length = 16 := rfl
    have := rdLe_wordBytes [] 0 (ws := r.image.map BitVec.toNat ++ identWords s r n wid) (k := 240 + i)
      (w := (identWords s r n wid).getD i 0)
      (by rw [List.getElem?_append_right (by omega), hl, Nat.add_sub_cancel_left, List.getD_eq_getElem _ _ (hlen ▸ h),
            List.getElem?_eq_getElem (hlen ▸ h)])
    rw [Nat.zero_add] at this
    exact this

/-! ### GROUP_START (17 R380) -/

/-- What a group waits for before it starts. -/
def State.groupWaits (s : State) (r : Run) (group : Nat) (p : Place) : Prop :=
  p.started = true ∨ r.preempted = true ∨ r.saved.isSome = true ∨ r.aborted = true ∨ s.load.isSome = true ∨
  r.outOfOrder group = true ∨ ∃ n ∈ p.cores, (s.core n).task.isSome = true ∨ (s.gang (gangOf n)).queue ≠ [] ∨
    ∃ slot w, .codeStore n slot w ∈ s.agenda

/-- The same as a test. -/
def State.holdsGroup (s : State) (r : Run) (group : Nat) (p : Place) : Bool :=
  p.started || r.preempted || r.saved.isSome || r.aborted || s.load.isSome ||
    p.cores.any (fun n => (s.core n).task.isSome || !(s.gang (gangOf n)).queue.isEmpty) || r.outOfOrder group ||
    s.codeComing p.cores

theorem codeComing_iff (s : State) (cores : List Nat) : s.codeComing cores = true ↔ ∃ n ∈ cores, ∃ slot w, .codeStore n slot w ∈ s.agenda := by
  unfold State.codeComing
  rw [List.any_eq_true]
  constructor
  · rintro ⟨m, hm, h⟩
    split at h
    · next n slot w => exact ⟨n, by simpa using h, slot, w, hm⟩
    · exact absurd h Bool.false_ne_true
  · rintro ⟨n, hn, slot, w, hm⟩
    exact ⟨_, hm, by simpa using hn⟩

theorem holdsGroup_iff (s : State) (r : Run) (group : Nat) (p : Place) : s.holdsGroup r group p = true ↔ s.groupWaits r group p := by
  unfold State.holdsGroup State.groupWaits
  simp only [Bool.or_eq_true, codeComing_iff, List.any_eq_true, Bool.not_eq_true', List.isEmpty_eq_false_iff]
  constructor
  · rintro (((((((h | h) | h) | h) | h) | ⟨n, hn, h | h⟩) | h) | ⟨n, hn, h⟩)
    · exact .inl h
    · exact .inr (.inl h)
    · exact .inr (.inr (.inl h))
    · exact .inr (.inr (.inr (.inl h)))
    · exact .inr (.inr (.inr (.inr (.inl h))))
    · exact .inr (.inr (.inr (.inr (.inr (.inr ⟨n, hn, .inl h⟩)))))
    · exact .inr (.inr (.inr (.inr (.inr (.inr ⟨n, hn, .inr (.inl h)⟩)))))
    · exact .inr (.inr (.inr (.inr (.inr (.inl h)))))
    · exact .inr (.inr (.inr (.inr (.inr (.inr ⟨n, hn, .inr (.inr h)⟩)))))
  · rintro (h | h | h | h | h | h | ⟨n, hn, h | h | h⟩)
    iterate 6 simp only [h, true_or, or_true]
    · exact .inl (.inl (.inr ⟨n, hn, .inl h⟩))
    · exact .inl (.inl (.inr ⟨n, hn, .inr h⟩))
    · exact .inr ⟨n, hn, h⟩

/-- The cores and the place of a group after its start. -/
def State.groupBegun (s : State) (r : Run) (group : Nat) (p : Place) : State :=
  let t := s.grooms r group (p.cores.zip (r.tasksIn group))
  let t := { t with xgroups := t.xgroups.filter (fun x => !(x.run == r.id && x.group == group)) }
  t.mapPlace r.id group (fun p => { p with started := true, live := [] })

theorem groupBegun_kept (s : State) (r : Run) (group : Nat) (p : Place) :
    (s.groupBegun r group p).cores = (s.grooms r group (p.cores.zip (r.tasksIn group))).cores ∧
    (s.groupBegun r group p).agenda = (s.grooms r group (p.cores.zip (r.tasksIn group))).agenda := ⟨rfl, rfl⟩

/-- A launch is found again after a change that keeps the identifiers. -/
theorem find_run_map {l : List Run} {id : Nat} {r : Run} (h : l.find? (fun r => r.id == id) = some r) {f : Run → Run}
    (hf : ∀ a, (f a).id = a.id) : (l.map f).find? (fun r => r.id == id) = some (f r) := by
  have hp : ((fun r : Run => r.id == id) ∘ f) = fun r => r.id == id := by
    funext a; dsimp only [Function.comp]; rw [hf]
  rw [List.find?_map, hp, h, Option.map_some]

theorem run?_mapPlace {s : State} {id : Nat} {r : Run} (h : s.run? id = some r) (group : Nat) (f : Place → Place) :
    ∃ ps, (s.mapPlace id group f).run? id = some { r with places := ps } := by
  exact ⟨r.places.map (fun p => if p.current = group then f p else p),
    (find_run_map h (fun a => by split <;> rfl)).trans (congrArg some (if_pos (run?_id h)))⟩

theorem run?_groupBegun {s : State} {r : Run} (hr : s.run? r.id = some r) (group : Nat) (p : Place) :
    ∃ ps, (s.groupBegun r group p).run? r.id = some { r with places := ps } := by
  exact run?_mapPlace (s := { s.grooms r group (p.cores.zip (r.tasksIn group)) with xgroups := _ })
    ((run?_congr (congrArg State.runs (onlyGrooms_grooms s r group (p.cores.zip (r.tasksIn group)))) r.id).trans hr) group _

theorem groupStart_waits {s : State} {r : Run} {group : Nat} {p : Place} (hr : s.run? r.id = some r)
    (hp : r.places.find? (fun p => p.current == group) = some p) (h : s.groupWaits r group p) :
    exec (.groupStart r.id group) s = .next s := by
  show execGroupStart r.id group s = _
  rw [execGroupStart, hr]
  dsimp only
  rw [hp]
  exact if_pos ((holdsGroup_iff ..).2 h)

theorem groupStart_goes {s : State} {r : Run} {group : Nat} {p : Place} (hr : s.run? r.id = some r)
    (hp : r.places.find? (fun p => p.current == group) = some p) (h : ¬s.groupWaits r group p) :
    ∃ t q, exec (.groupStart r.id group) s = .next t ∧ t.cores = (s.groupBegun r group p).cores ∧
      t.agenda = (s.groupBegun r group p).agenda ∧ t.run? r.id = some q ∧ q.started = r.started + 1 := by
  obtain ⟨ps, hq⟩ := run?_groupBegun hr group p
  let q : Run := { r with
    places := ps, started := r.started + 1, startAt := if r.startAt = 0 then (s.groupBegun r group p).nextId else r.startAt }
  refine ⟨(s.groupBegun r group p).fresh.2.setRun q, q, ?_, rfl, rfl, run?_setRun (q := q) (s := (s.groupBegun r group p).fresh.2) hq, rfl⟩
  show execGroupStart r.id group s = _
  rw [execGroupStart, hr]
  dsimp only
  rw [hp]
  refine (if_neg (fun k => h ((holdsGroup_iff ..).1 k))).trans ?_
  show (match (s.groupBegun r group p).run? r.id with
    | some q => Host.Outcome.next ((s.groupBegun r group p).fresh.2.setRun
        { q with started := q.started + 1, startAt := if q.startAt = 0 then (s.groupBegun r group p).nextId else q.startAt })
    | none => .next (s.groupBegun r group p)) = _
  rw [hq]

theorem nodup_map_fst_zip {α β : Type} {l : List α} (h : l.Nodup) (m : List β) : ((l.zip m).map Prod.fst).Nodup := by
  induction l generalizing m with
  | nil => exact List.nodup_nil
  | cons a l ih =>
    cases m with
    | nil => exact List.nodup_nil
    | cons b m =>
      rw [List.nodup_cons] at h
      rw [List.zip_cons_cons, List.map_cons, List.nodup_cons]
      refine ⟨fun k => h.1 ?_, ih h.2 m⟩
      obtain ⟨e, he, hea⟩ := List.mem_map.1 k
      exact (show e.1 = a from hea) ▸ (List.of_mem_zip he).1

/-- The identity words that have a meaning; the rest are zero. -/
theorem identWords_getD (s : State) (r : Run) (n : Nat) (wid : Word) {i : Nat} (h : i < 16) : (identWords s r n wid).getD i 0 =
    [n, n / 8, n / 32, n / 1024, s.peerid, wid.toNat, r.args.toNat, r.seed, r.slate.toNat, r.d + 2 ^ 16 * r.dIdx,
      r.levels.length + 2 ^ 8 * r.takeLv.getD 0x1F + 2 ^ 16 * r.gangLv.getD 0x1F + 2 ^ 32 * r.cgrp, Config.vlen].getD i 0 := by
  interval_cases i <;> rfl

/-- The start of a group on its cores. -/
theorem groupStart_cores {s : State} {r : Run} {group : Nat} {p : Place} (hr : s.run? r.id = some r)
    (hp : r.places.find? (fun p => p.current == group) = some p) (h : ¬s.groupWaits r group p) (hd : p.cores.Nodup) :
    ∃ t, exec (.groupStart r.id group) s = .next t ∧ (∃ q, t.run? r.id = some q ∧ q.started = r.started + 1) ∧
      ∀ e ∈ p.cores.zip (r.tasksIn group), t.core e.1 = s.groomed r group e.1 e.2 ∧
        .start { core := e.1, run := r.id, group := group, gidx := e.2, resume := false, xrun := false } ∈ t.agenda := by
  obtain ⟨t, q, e, hc, ha, hq, hs⟩ := groupStart_goes hr hp h
  refine ⟨t, e, ⟨q, hq, hs⟩, fun e he => ⟨?_, ?_⟩⟩
  · rw [core_congr (hc.trans (groupBegun_kept ..).1)]
    exact core_grooms (nodup_map_fst_zip hd _) s r group e he
  · rw [ha, (groupBegun_kept ..).2, agenda_grooms]
    exact List.mem_append_right _ (List.mem_map_of_mem he)

end Sys2Proof.Machine
end

section
/-! PROOFS. START, and code stores and loads (02 R60, 17 R380 to R382, R389). -/

namespace Sys2Proof.Machine

/-! ### What results that land and stores that are applied leave of a core (05 R107, 07 R168) -/

/-- Of a core only registers, presence bits, local memory and what waits to be written there have changed. -/
def Core.onlyLands (c d : Core) : Prop :=
  { d with g := c.g, s := c.s, v := c.v, pa := c.pa, px := c.px, t := c.t, key := c.key, presG := c.presG, presV := c.presV, lm := c.lm,
           a := c.a, x := c.x, allFrom := c.allFrom } = c ∧
  ∀ x, { d.stream x with landings := (c.stream x).landings, lmq := (c.stream x).lmq } = c.stream x

theorem Core.onlyLands_refl (c : Core) : c.onlyLands c := ⟨rfl, fun _ => rfl⟩

theorem Core.onlyLands_trans {c d e : Core} (h : c.onlyLands d) (k : d.onlyLands e) : c.onlyLands e := by
  obtain ⟨h1, h2⟩ := h
  obtain ⟨k1, k2⟩ := k
  refine ⟨?_, fun x => ?_⟩
  · rw [← h1]; conv_rhs => rw [← k1]
  · rw [← h2 x]; conv_rhs => rw [← k2 x]

theorem Core.onlyLands_setReg (c : Core) (r : Reg) (m v : Nat) : c.onlyLands (c.setReg r m v) := by
  refine ⟨?_, fun x => by rw [(Core.setReg_rest c r m v).2 x]⟩
  cases r <;> simp only [Core.setReg, Core.setTile] <;> (try split) <;> rfl

theorem Core.onlyLands_setStream (c : Core) (x : Bool) (lm : Table Byte) (ls : List Landing) (q : List LmWrite) :
    c.onlyLands ({ c with lm := lm }.setStream x { c.stream x with landings := ls, lmq := q }) := by
  refine ⟨by cases x <;> rfl, fun y => ?_⟩
  rw [Core.stream_setStream]
  split
  · next e => subst e; rfl
  · cases y <;> rfl

theorem Core.onlyLands_land (c : Core) (x : Bool) (t : Nat) : c.onlyLands (c.land x t) := by
  have hf (ls : List Landing) : c.onlyLands (ls.foldl (fun c l => c.setReg l.dst l.mask l.val) c) :=
    List.foldlRecOn ls _ c.onlyLands_refl (fun _ k l _ => Core.onlyLands_trans k (Core.onlyLands_setReg ..))
  exact Core.onlyLands_trans (hf ((c.stream x).landings.filter (fun l => decide (l.lands ≤ t)))) (Core.onlyLands_setStream _ x _ _ _)

theorem Core.onlyLands_settle (c : Core) (t : Nat) : c.onlyLands (c.settle t) :=
  Core.onlyLands_trans (Core.onlyLands_land ..) (Core.onlyLands_land ..)

theorem Core.onlyLands_lmFlush (c : Core) (x : Bool) : c.onlyLands (c.lmFlush x) :=
  Core.onlyLands_setStream c x (c.lmView x) (c.stream x).landings []

theorem Core.onlyLands_lmDrain1 (c : Core) (x : Bool) : c.onlyLands (c.lmDrain1 x) := by
  have hs (t : Nat) : c.onlyLands (if x then c.lmSame t else c) := by
    unfold Core.lmSame
    split
    · split
      · exact Core.onlyLands_lmFlush ..
      · exact c.onlyLands_refl
    · exact c.onlyLands_refl
  unfold Core.lmDrain1
  split
  · exact c.onlyLands_refl
  · exact Core.onlyLands_trans (hs _) (Core.onlyLands_setStream _ x _ _ _)

theorem Core.onlyLands_allFrom {c d : Core} (h : c.onlyLands d) (k : Nat) : c.onlyLands { d with allFrom := k } := ⟨h.1, h.2⟩

theorem Core.onlyLands_arrival (c : Core) : c.onlyLands c.arrival := by
  have hd (d : Core) (x : Bool) : d.onlyLands (d.lmDrain x) :=
    List.foldlRecOn (d.stream x).lmq _ d.onlyLands_refl (fun _ k _ _ => Core.onlyLands_trans k (Core.onlyLands_lmDrain1 ..))
  have h := Core.onlyLands_trans (Core.onlyLands_settle c c.cyc) (Core.onlyLands_trans (hd _ false) (hd _ true))
  exact Core.onlyLands_allFrom h _

theorem Core.onlyLands.run {c d : Core} (h : c.onlyLands d) (x : Bool) : (d.stream x).run = (c.stream x).run := by rw [← h.2 x]
theorem Core.onlyLands.pc {c d : Core} (h : c.onlyLands d) (x : Bool) : (d.stream x).pc = (c.stream x).pc := by rw [← h.2 x]

/-! ### START (02 R60, 17 R380, R389) -/

/-- The task that a START message is for. -/
def State.takesStart (s : State) (m : StartMsg) : Prop :=
  ∃ k, (s.core m.core).task = some k ∧ k.run = m.run ∧ k.group = m.group ∧ k.gidx = m.gidx

theorem takesStart_iff (s : State) (m : StartMsg) : s.takesStart m ↔
    (s.core m.core).task.any (fun t => t.run == m.run && t.group == m.group && t.gidx == m.gidx) = true := by
  unfold State.takesStart
  cases (s.core m.core).task <;> simp [and_assoc]

theorem start_ignored {s : State} {m : StartMsg} (h : ¬s.takesStart m) : exec (.start m) s = .next s := by
  show execStart m s = _
  rw [takesStart_iff, Bool.not_eq_true] at h
  unfold execStart
  dsimp only
  rw [h]
  rfl

/-- A START of a resumption: the streams run on from where they stood. -/
theorem start_resumes {s : State} {m : StartMsg} (h : s.takesStart m) (hr : m.resume = true) :
    ∃ t, exec (.start m) s = .next t ∧ (t.core m.core).a.run = true ∧ (t.core m.core).x.run = m.xrun ∧
      (t.core m.core).a.pc = (s.core m.core).a.pc ∧ ∀ n, n ≠ m.core → t.core n = s.core n := by
  let c := (s.core m.core).arrival
  refine ⟨s.setCore m.core { c with a := { c.a with run := true }, x := { c.x with run := m.xrun },
                                    task := c.task.map (fun t => { t with watch := some c.cyc }) }, ?_, ?_⟩
  · show execStart m s = _
    unfold execStart
    dsimp only
    rw [if_neg (by rw [(takesStart_iff ..).1 h]; decide), if_pos hr]
  · rw [State.core_setCore, if_pos rfl]
    exact ⟨rfl, rfl, (Core.onlyLands_arrival (s.core m.core)).pc false, fun n hn => (State.core_setCore ..).trans (if_neg hn)⟩

/-- Cores whose streams begin, one after another. -/
def State.begins (s : State) (l : List Nat) (entry : Nat) : State := l.foldl (fun s n => s.setCore n ((s.core n).begin entry)) s

theorem begins_cons (s : State) (m : Nat) (l : List Nat) (entry : Nat) :
    s.begins (m :: l) entry = (s.setCore m ((s.core m).begin entry)).begins l entry := List.foldl_cons ..

theorem Core.begin_streams (c : Core) (entry : Nat) :
    (c.begin entry).a.run = true ∧ (c.begin entry).a.pc = entry ∧ (c.begin entry).x.run = c.x.run :=
  ⟨rfl, rfl, (Core.onlyLands_arrival c).run true⟩

theorem core_begins_ne {l : List Nat} {n : Nat} (h : n ∉ l) (s : State) (entry : Nat) : (s.begins l entry).core n = s.core n := by
  refine List.foldlRecOn (motive := fun t : State => t.core n = s.core n) l _ rfl (fun t ht m hm => ?_)
  have hne : n ≠ m := fun k => h (k ▸ hm)
  rw [State.core_setCore, if_neg hne, ht]

theorem core_begins {l : List Nat} {n : Nat} (h : n ∈ l) (s : State) (entry : Nat) :
    ((s.begins l entry).core n).a.run = true ∧ ((s.begins l entry).core n).a.pc = entry ∧
    ((s.begins l entry).core n).x.run = (s.core n).x.run := by
  induction l generalizing s with
  | nil => exact absurd h List.not_mem_nil
  | cons m l ih =>
    rw [begins_cons]
    obtain ⟨b1, b2, b3⟩ := Core.begin_streams (s.core m) entry
    by_cases hl : n ∈ l
    · obtain ⟨h1, h2, h3⟩ := ih hl (s.setCore m ((s.core m).begin entry))
      refine ⟨h1, h2, h3.trans ?_⟩
      rw [State.core_setCore]
      split
      · next e => rw [b3, e]
      · rfl
    · have e : n = m := (List.mem_cons.1 h).resolve_right hl
      rw [core_begins_ne hl, State.core_setCore, if_pos e, e]
      exact ⟨b1, b2, b3⟩

theorem cores_mapPlace (s : State) (run g : Nat) (f : Place → Place) : (s.mapPlace run g f).cores = s.cores := rfl

theorem core_stories (s : State) (l : List Story) (n : Nat) : ({ s with stories := l } : State).core n = s.core n := rfl

/-- A START of a group: the cores begin once it has reached every one of them. -/
theorem start_begins {s : State} {m : StartMsg} {r : Run} {p : Place} (h : s.takesStart m) (hm : m.resume = false)
    (hr : s.run? m.run = some r) (hp : r.places.find? (fun p => p.current == m.group) = some p) :
    ((without m.core p.live ++ [m.core]).length < (r.coresFor p).length →
      ∃ t, exec (.start m) s = .next t ∧ t.cores = s.cores ∧ t.mem = s.mem) ∧
    ((r.coresFor p).length ≤ (without m.core p.live ++ [m.core]).length → ∃ t, exec (.start m) s = .next t ∧
      (∀ n ∈ r.coresFor p, (t.core n).a.run = true ∧ (t.core n).a.pc = r.entry ∧ (t.core n).x.run = (s.core n).x.run) ∧
      (∀ n, n ∉ r.coresFor p → t.core n = s.core n) ∧ ∀ z ∈ t.stories, z.id = r.sb → z.t0.isSome = true) := by
  have e : exec (.start m) s = (if (without m.core p.live ++ [m.core]).length < (r.coresFor p).length then
      .next (s.mapPlace m.run m.group (fun p' => { p' with live := without m.core p.live ++ [m.core] }))
    else
      let t := (s.mapPlace m.run m.group (fun p' => { p' with live := without m.core p.live ++ [m.core] })).begins (r.coresFor p) r.entry
      .next { t with stories := t.stories.map (fun y => if y.id = r.sb then { y with t0 := some (y.t0.getD t.dcyc) } else y) }) := by
    show execStart m s = _
    unfold execStart
    dsimp only
    rw [if_neg (by rw [(takesStart_iff ..).1 h]; decide), if_neg (by rw [hm]; decide), hr]
    dsimp only
    rw [hp]
    rfl
  refine ⟨fun hl => ⟨_, e.trans (if_pos hl), rfl, rfl⟩, fun hl => ⟨_, e.trans (if_neg (Nat.not_lt.2 hl)), fun n hn => ?_, fun n hn => ?_,
    fun z hz hid => ?_⟩⟩
  · rw [core_stories, ← core_congr (cores_mapPlace s ..)]
    exact core_begins hn ..
  · rw [core_stories, core_begins_ne hn, core_congr (cores_mapPlace ..)]
  · obtain ⟨y, -, hy⟩ := List.mem_map.1 hz
    split at hy
    · rw [← hy]; rfl
    · next hne => exact absurd (hy ▸ hid) hne

end Sys2Proof.Machine
end

section
/-! PROOFS. Code stores and code loads (17 R380 to R382). -/

namespace Sys2Proof.Machine

/-! ### CODE_STORE (17 R382) -/

/-- The code store at its core: written where the core is idle, else dropped with a record. -/
def State.storedCode (s : State) (n slot w : Nat) : State :=
  if (s.core n).codeIdle then s.setCore n { s.core n with code := tput 0 slot (BitVec.ofNat 96 w) (s.core n).code }
  else s.errRecord 0x07 true 0 s.noCtx 0 slot 0

/-- The progress of the code load in progress, where a store is the next of its core. -/
def State.loadAfter (s : State) (n slot : Nat) (load : Bool) : Option CodeLoad :=
  match s.load.filter (fun _ => load) with
  | some l =>
    if slot = l.first + tget 0 n l.left ∧ tget 0 n l.left < l.count then some { l with left := tput 0 n (tget 0 n l.left + 1) l.left }
    else s.load
  | none => s.load

theorem exec_codeStore_waits {s : State} {n : Nat} (h : s.codeComing [n] = true) (slot w : Nat) :
    exec (.codeStore n slot (w, true)) s = .next s := by
  show execCodeStore n slot (w, true) s = _
  rw [execCodeStore, h]
  rfl

theorem exec_codeStore {s : State} {n : Nat} {load : Bool} (h : load = true → s.codeComing [n] = false) (slot w : Nat) :
    exec (.codeStore n slot (w, load)) s = .next { s.storedCode n slot w with load := (s.storedCode n slot w).loadAfter n slot load } := by
  have hw : ¬(load && s.codeComing [n]) = true := by
    cases load
    · exact Bool.false_ne_true
    · rw [h rfl]; exact Bool.false_ne_true
  show execCodeStore n slot (w, load) s = _
  rw [execCodeStore, if_neg hw]
  unfold State.loadAfter
  dsimp only
  split
  · next l e =>
    rw [show (s.storedCode n slot w).load.filter (fun _ => load) = some l from e]
    dsimp only
    split <;> rfl
  · next e =>
    rw [show (s.storedCode n slot w).load.filter (fun _ => load) = none from e]
    rfl

theorem onlyReads.load {s t : State} (h : onlyReads s t) : t.load = s.load := by unfold onlyReads at h; rw [← h]

theorem logs_load {s t : State} {kind : Nat} {drop : Bool} {code : Nat} {cx : Ctx} {addr d0 d1 : Nat}
    (h : s.logs t kind drop code cx addr d0 d1) (l : Option CodeLoad) : s.logs { t with load := l } kind drop code cx addr d0 d1 := h

theorem storedCode_load (s : State) (n slot w : Nat) : (s.storedCode n slot w).load = s.load := by
  unfold State.storedCode
  split
  · rfl
  · exact (onlyReads_errRecord s 0x07 true 0 s.noCtx 0 slot 0).load

theorem codeStore_spec (s : State) (n slot w : Nat) (load : Bool) (h : load = true → s.codeComing [n] = false) :
    ((s.core n).codeIdle = true → ∃ t, exec (.codeStore n slot (w, load)) s = .next t ∧
      tget 0 slot (t.core n).code = BitVec.ofNat 96 w ∧ (∀ k, k ≠ slot → tget 0 k (t.core n).code = tget 0 k (s.core n).code) ∧
      (∀ m, m ≠ n → t.core m = s.core m) ∧ t.mem = s.mem) ∧
    ((s.core n).codeIdle = false → ∃ t, exec (.codeStore n slot (w, load)) s = .next t ∧ t.cores = s.cores ∧
      s.logs t 0x07 true 0 s.noCtx 0 slot 0) ∧
    (∃ t, exec (.codeStore n slot (w, load)) s = .next t ∧ (load = false → t.load = s.load) ∧
      ∀ l, load = true → s.load = some l → slot = l.first + tget 0 n l.left → tget 0 n l.left < l.count →
        t.load = some { l with left := tput 0 n (tget 0 n l.left + 1) l.left }) := by
  have e := exec_codeStore h slot w
  refine ⟨fun hi => ⟨_, e, ?_⟩, fun hi => ⟨_, e, ?_⟩, _, e, fun hl => ?_, fun l hl hs h1 h2 => ?_⟩
  · have hs : s.storedCode n slot w = s.setCore n { s.core n with code := tput 0 slot (BitVec.ofNat 96 w) (s.core n).code } := if_pos hi
    have hc (m : Nat) : (s.storedCode n slot w).core m = if m = n then { s.core n with code := tput 0 slot (BitVec.ofNat 96 w) (s.core n).code }
        else s.core m := by rw [hs, State.core_setCore]
    have hn := (hc n).trans (if_pos rfl)
    refine ⟨?_, fun k hk => ?_, fun m hm => (hc m).trans (if_neg hm), ?_⟩
    · exact (congrArg (fun c : Core => tget 0 slot c.code) hn).trans (tget_tput_same ..)
    · exact (congrArg (fun c : Core => tget 0 k c.code) hn).trans (tget_tput_ne _ hk ..)
    · exact (congrArg State.mem hs).trans rfl
  · have hs : s.storedCode n slot w = s.errRecord 0x07 true 0 s.noCtx 0 slot 0 := if_neg (by rw [hi]; exact Bool.false_ne_true)
    exact ⟨(congrArg State.cores hs).trans (errRecord_cores ..), logs_load (hs ▸ errRecord_logs ..) _⟩
  · dsimp only
    rw [State.loadAfter, storedCode_load, hl]
    cases s.load <;> rfl
  · dsimp only
    rw [State.loadAfter, storedCode_load, hl, hs]
    exact if_pos ⟨h1, h2⟩

/-! ### CODE_LOAD_COMPLETE (17 R381) -/

theorem codeLoadComplete_spec {s : State} {l : CodeLoad} (h : s.load = some l) :
    let all : Prop := l.count = 0 ∨ (l.left.length = 1024 * 2 ^ s.partLog ∧ ∀ e ∈ l.left, e.2 = l.count)
    ∃ t, exec .codeLoadComplete s = .next t ∧ (all → t = { s with load := none }) ∧ (¬all → t = s) := by
  have e : exec .codeLoadComplete s = .next (if l.count = 0 ∨ (l.left.length = 1024 * 2 ^ s.partLog ∧ l.left.all (fun e => e.2 == l.count))
      then { s with load := none } else s) := by
    show execCodeLoadComplete s = _
    rw [execCodeLoadComplete, h]
  have hall : (l.count = 0 ∨ (l.left.length = 1024 * 2 ^ s.partLog ∧ l.left.all (fun e => e.2 == l.count) = true)) ↔
      (l.count = 0 ∨ (l.left.length = 1024 * 2 ^ s.partLog ∧ ∀ e ∈ l.left, e.2 = l.count)) := by simp [List.all_eq_true]
  exact ⟨_, e, fun ha => if_pos (hall.2 ha), fun ha => if_neg (fun k => ha (hall.1 k))⟩

/-! ### CLDCTL.GO (17 R381) -/

theorem exec_cldctlGo (s : State) (w : Writer) (v : Word) : exec (.cldctlGo w v) s = .next (s.writeCldctl w v) := rfl

theorem imageSlots_length (a slot : Nat) (first : Bool) (f : Nat) (s : State) : (imageSlots a slot first f s).1.length ≤ f := by
  induction f generalizing a slot first s with
  | zero => exact Nat.le_refl 0
  | succ f ih =>
    unfold imageSlots
    split
    · exact Nat.zero_le _
    · exact Nat.succ_le_succ (ih ..)

/-- An image in assigned and undamaged memory is read slot by slot. -/
theorem imageSlots_intact {s : State} {b : Nat} (f i slot : Nat) (first : Bool)
    (h : ∀ j, 12 * i ≤ j → j < 12 * (i + f) → s.assigned (b + j) = true ∧ tget false ((b + j) / 8) s.bad = false) :
    imageSlots (b + 12 * i) slot first f s = ((upFrom i f).map (fun j => s.memRd (b + 12 * j) 12), s) := by
  induction f generalizing i slot first with
  | zero => rfl
  | succ f ih =>
    have hw (k : Nat) (h1 : (b + 12 * i) / 8 ≤ k) (h2 : k ≤ (b + 12 * i + 11) / 8) : tget false k s.bad = false := by
      by_cases hk : b + 12 * i ≤ 8 * k
      · have := (h (8 * k - b) (by omega) (by omega)).2
        rwa [show (b + (8 * k - b)) / 8 = k by omega] at this
      · have := (h (12 * i) (Nat.le_refl _) (by omega)).2
        rwa [show (b + 12 * i) / 8 = k by omega] at this
    have ha := (h (12 * i) (Nat.le_refl _) (by omega)).1
    have ha' := (h (12 * i + 11) (by omega) (by omega)).1
    have hbad : s.badIn (b + 12 * i) 12 = false := by
      refine List.any_eq_false.2 fun k hk => ?_
      rw [mem_upFrom] at hk
      rw [hw k hk.1 (by omega)]; exact Bool.false_ne_true
    have hnone (lo : Nat) (hlo : (b + 12 * i) / 8 ≤ lo) :
        (upFrom lo ((b + 12 * i + 11) / 8 + 1 - lo)).filter (fun k => tget false k s.bad) = [] := by
      refine List.filter_eq_nil_iff.2 fun k hk => ?_
      rw [mem_upFrom] at hk
      rw [hw k (by omega) (by omega)]; exact Bool.false_ne_true
    have hlo : (b + 12 * i) / 8 ≤ if first then (b + 12 * i) / 8 else (b + 12 * i + 7) / 8 := by split <;> omega
    unfold imageSlots
    rw [← Nat.add_assoc] at ha'
    rw [if_neg (by rw [ha, ha']; decide)]
    dsimp only
    rw [hnone _ hlo, List.foldl_nil, hbad, show b + 12 * i + 12 = b + 12 * (i + 1) by omega,
      ih (i + 1) _ _ (fun j h1 h2 => h j (by omega) (by omega))]
    rfl

theorem cldctlGo_spec (s : State) (w : Writer) (v : Word) :
    let first := fld v.toNat 0 12
    let count := fld v.toNat 12 13
    let a := s.cldsrc.toNat
    let bad : Prop := s.load.isSome = true ∨ 4096 < first + count ∨ count = 0 ∨ s.anyTask = true
    (bitAt v.toNat 25 = false → exec (.cldctlGo w v) s = .next { s with cldctl := keepBits v 0 25 }) ∧
    (bitAt v.toNat 25 = true → bad → exec (.cldctlGo w v) s = .next (s.svDiscard w 0x211 v.toNat)) ∧
    (bitAt v.toNat 25 = true → ¬bad → ∃ t l, exec (.cldctlGo w v) s = .next t ∧ t.load = some l ∧ l.first = first ∧
      l.count = l.words.length ∧ l.count ≤ count ∧ t.cldctl = keepBits v 0 25 ∧
      ((∀ i, i < 12 * count → s.assigned (a + i) = true ∧ tget false ((a + i) / 8) s.bad = false) →
        l.words = (upFrom 0 count).map (fun i => s.memRd (a + 12 * i) 12))) := by
  have hbad : (s.load.isSome || decide (4096 < fld v.toNat 0 12 + fld v.toNat 12 13) || fld v.toNat 12 13 == 0 || s.anyTask) = true ↔
      (s.load.isSome = true ∨ 4096 < fld v.toNat 0 12 + fld v.toNat 12 13 ∨ fld v.toNat 12 13 = 0 ∨ s.anyTask = true) := by
    simp [or_assoc]
  rw [exec_cldctlGo, State.writeCldctl]
  dsimp only
  refine ⟨fun h => ?_, fun h hb => ?_, fun h hb => ?_⟩
  · rw [if_pos (by rw [h]; rfl)]
  · rw [if_neg (by rw [h]; decide), if_pos (hbad.2 hb)]
  · rw [if_neg (by rw [h]; decide), if_neg (fun k => hb (hbad.1 k))]
    refine ⟨_, _, rfl, rfl, rfl, rfl, imageSlots_length .., rfl, fun hi => ?_⟩
    have := imageSlots_intact (s := s) (b := s.cldsrc.toNat) (fld v.toNat 12 13) 0 (fld v.toNat 0 12) true
      (fun j _ h2 => hi j (by omega))
    exact congrArg Prod.fst this

end Sys2Proof.Machine
end

section
/-! PROOFS. The watchdog of safe points, ends of tasks and requests of pre-emption (02 R47, 06 R162, 17 R383). -/

namespace Sys2Proof.Machine

/-! ### SAFEPOINT_OVERDUE (06 R162) -/

theorem overdue_level {s : State} {n : Nat} (h : s.overdue n = true) : (s.core n).level = .t := by
  unfold State.overdue at h
  dsimp only at h
  split at h
  · simp only [Bool.and_eq_true, beq_iff_eq] at h
    exact h.1.2
  · exact absurd h Bool.false_ne_true

theorem safepointOverdue_waits {s : State} {n : Nat} (h : s.overdue n = false ∨ (s.core n).mayIssue false = false) :
    exec (.safepointOverdue n) s = .next s := by
  show execSafepointOverdue n s = _
  unfold execSafepointOverdue
  exact if_neg (by rcases h with h | h <;> rw [h] <;> simp)

theorem safepointOverdue_traps {s : State} {n : Nat} (h : s.overdue n = true) (hm : (s.core n).mayIssue false = true)
    (hub : isHub n = false) : ∃ t, exec (.safepointOverdue n) s = .next t ∧ (t.core n).level = .s ∧ (t.core n).svGet 4 = 0x0C ∧
      (t.core n).svGet 2 = BitVec.ofNat 64 (s.core n).a.pc ∧ t.mem = s.mem := by
  have hx : exec (.safepointOverdue n) s = execSafepointOverdue n s := rfl
  have hl := overdue_level h
  rw [hx]
  unfold execSafepointOverdue
  rw [if_pos (by rw [h, hm]; rfl)]
  dsimp only
  generalize hu : s.mapTask n (fun t => { t with watch := some ((s.core n).issueAt false) }) = u
  have hc : u.core n = { s.core n with task := (s.core n).task.map (fun t => { t with watch := some ((s.core n).issueAt false) }) } := by
    rw [← hu, State.mapTask, State.core_setCore, if_pos rfl]
  obtain ⟨-, kl, ks⟩ := Core.sameTask_at' (u.core n) ((u.core n).issueAt false)
  generalize hd : (u.core n).at' ((u.core n).issueAt false) = d at kl ks
  have hd' : (u.setCore n d).core n = d := by rw [State.core_setCore, if_pos rfl]
  obtain ⟨ht, hmem⟩ := trapOn_user (s := u.setCore n d) hub (by rw [hd', kl, hc]; simp [hl]) false 0x0C 0 0 0
  rw [hd'] at ht
  obtain ⟨h4, -, h2⟩ := Core.svGet_trapRegs d 0x0C 0 0 0
  refine ⟨_, rfl, ?_, ?_, ?_, ?_⟩
  · rw [ht]; rfl
  · rw [ht, Core.svGet_enterTrap, h4, causeWord_a]; rfl
  · rw [ht, Core.svGet_enterTrap, h2, show d.a.pc = (u.core n).a.pc from ks false, hc]
  · rw [hmem, State.setCore_mem, ← hu]; rfl

/-! ### TASK_END (02 R47) -/

/-- A core without a task, and the tasks of a launch that have ended. -/
def endStands (run : Nat) (ended : List Word) (n : Nat) (c : Core) (u : State) : Prop :=
  u.core n = c ∧ ∃ q, u.run? run = some q ∧ q.endedTasks = ended

section
variable {run : Nat} {ended : List Word} {n : Nat} {c : Core}

theorem endStands_congr {u v : State} (hc : v.cores = u.cores) (hr : v.runs = u.runs) (h : endStands run ended n c u) :
    endStands run ended n c v := by
  obtain ⟨h1, q, h2, h3⟩ := h
  exact ⟨(core_congr hc n).trans h1, q, (run?_congr hr run).trans h2, h3⟩

theorem endStands_setRun {u : State} (h : endStands run ended n c u) {q : Run} (hi : q.id = run) (he : q.endedTasks = ended) :
    endStands run ended n c (u.setRun q) := by
  obtain ⟨h1, p, h2, -⟩ := h
  subst hi
  exact ⟨h1, q, run?_setRun h2, he⟩

theorem engPut_kept (s : State) (a : Nat) (bs : List Byte) : (s.engPut a bs).cores = s.cores ∧ (s.engPut a bs).runs = s.runs := by
  obtain ⟨h, e⟩ := s.touch_eq a
  unfold State.engPut
  rw [e]
  exact ⟨rfl, rfl⟩

theorem endStands_completeAt (hn : c.task = none) {u : State} (h : endStands run ended n c u) {q : Run} (hq : u.run? run = some q)
    (m bid opc : Nat) (bad : Bool) (v : Word) (hz : Table Nat) : endStands run ended n c (u.completeAt q m bid opc bad v hz) := by
  have hid := run?_id hq
  have he : q.endedTasks = ended := by
    obtain ⟨-, p, h2, h3⟩ := h
    rw [Option.some.inj (hq.symm.trans h2)]; exact h3
  unfold State.completeAt
  dsimp only
  split
  · next ht =>
    have hne : n ≠ m := by
      rintro rfl
      rw [show ((u.core n).told hz).task = (u.core n).task from rfl, h.1, hn] at ht
      exact absurd ht Bool.false_ne_true
    obtain ⟨h1, hr⟩ := h
    exact ⟨(State.core_setCore ..).trans ((if_neg hne).trans h1), hr⟩
  · split
    · split
      · obtain ⟨k1, k2⟩ := engPut_kept (u.setRun { q with saved := _ }) _ _
        exact endStands_congr k1 k2 (endStands_setRun h (q := { q with saved := _ }) hid he)
      · exact h
    · exact h

theorem endStands_finishPhase (hn : c.task = none) {u : State} (h : endStands run ended n c u) {r : Run} (hr : r.id = run)
    (b : BarInst) (opc : Nat) (bad : Bool) (v : Word) : endStands run ended n c (u.finishPhase r b opc bad v) := by
  unfold State.finishPhase
  dsimp only
  refine List.foldlRecOn b.cores _ ?_ (fun w hw a _ => ?_)
  · split
    · exact h
    · exact h
  · obtain ⟨q, hq, -⟩ := hw.2
    rw [hr, hq, Option.getD_some]
    exact endStands_completeAt hn hw hq ..

theorem endStands_tryPhase (hn : c.task = none) {u : State} (h : endStands run ended n c u) {r : Run} (hr : r.id = run)
    (b : BarInst) : endStands run ended n c (u.tryPhase r b) := by
  unfold State.tryPhase
  dsimp only
  split
  · exact h
  · split
    · exact endStands_finishPhase (u := u.setInst b) hn h hr ..
    · have hp := onlySends_post ((u.setInst b).setInst { b with sentUp := true })
      exact endStands_congr (onlySends_cores (hp _ _)) (hp _ _).runs h

theorem endStands_endAtBarriers (hn : c.task = none) {u : State} (h : endStands run ended n c u) {r : Run} (hr : r.id = run) (m : Nat) :
    endStands run ended n c (u.endAtBarriers r m) := by
  unfold State.endAtBarriers
  refine List.foldlRecOn _ _ h (fun w hw b _ => ?_)
  split
  · exact endStands_tryPhase hn hw hr _
  · exact hw

theorem endStands_stepPlaces {u : State} (h : endStands run ended n c u) (id : Nat) : endStands run ended n c (u.stepPlaces id) := by
  obtain ⟨h1, q, h2, h3⟩ := h
  refine ⟨h1, _, find_run_map h2 (fun a => by split <;> rfl), ?_⟩
  split <;> exact h3

theorem endStands_unasked {u : State} (h : endStands run ended n c u) : endStands run ended n c (u.unasked run) := by
  have h' := h
  obtain ⟨-, q, h2, h3⟩ := h'
  unfold State.unasked
  rw [h2]
  dsimp only
  split
  · have hs := onlySends_noting u (fun s => s.setRun { q with preempted := false })
    exact endStands_congr (onlySends_cores hs) hs.runs (endStands_setRun (q := { q with preempted := false }) h (run?_id h2 : q.id = run) h3)
  · exact h

end

theorem writeBack_kept (s : State) (n : Nat) (x : Bool) : (s.writeBack n x).cores = s.cores ∧ (s.writeBack n x).runs = s.runs ∧
    (s.writeBack n x).ctx = s.ctx :=
  ⟨(onlyUnit_sendBacks s _).cores, (onlyUnit_sendBacks s _).runs, (onlyUnit_sendBacks s _).ctx⟩

theorem Core.freed_fields (c : Core) : c.freed.task = none ∧ c.freed.level = .t ∧ c.freed.a.run = false ∧ c.freed.inbox = [] :=
  ⟨rfl, rfl, rfl, rfl⟩

/-- The stores of a task that ends are on their way, and it counts as ended. -/
def State.taskDone (s : State) (n : Nat) (r : Run) (k : Task) : State :=
  let s := s.setCore n (s.core n).landAll
  let s := ((s.writeBack n false).writeBack n true).takeHorizon (dieOf n)
  (s.setRun { r with endedTasks := r.endedTasks ++ [k.wid] }).freeCore n

theorem endStands_taskDone {s : State} {n : Nat} {r : Run} (k : Task) (hr : s.run? r.id = some r) :
    ∃ c : Core, c.task = none ∧ c.level = .t ∧ c.a.run = false ∧ c.inbox = [] ∧
      endStands r.id (r.endedTasks ++ [k.wid]) n c (s.taskDone n r k) := by
  obtain ⟨-, w1, -⟩ := writeBack_kept (s.setCore n (s.core n).landAll) n false
  obtain ⟨-, w2, -⟩ := writeBack_kept ((s.setCore n (s.core n).landAll).writeBack n false) n true
  obtain ⟨u, hu⟩ : ∃ u, u = (((s.setCore n (s.core n).landAll).writeBack n false).writeBack n true).takeHorizon (dieOf n) := ⟨_, rfl⟩
  have hruns : u.runs = s.runs := by rw [hu]; exact w2.trans w1
  obtain ⟨f1, f2, f3, f4⟩ := ((u.setRun { r with endedTasks := r.endedTasks ++ [k.wid] }).core n).freed_fields
  refine ⟨_, f1, f2, f3, f4, ?_⟩
  have e : s.taskDone n r k = (u.setRun { r with endedTasks := r.endedTasks ++ [k.wid] }).freeCore n := by rw [hu]; rfl
  rw [e]
  refine ⟨(core_freeCore ..).trans (if_pos rfl), { r with endedTasks := r.endedTasks ++ [k.wid] }, ?_, rfl⟩
  refine (run?_congr (onlyFrees_freeCore _ n).runs r.id).trans ?_
  exact run?_setRun (q := { r with endedTasks := r.endedTasks ++ [k.wid] }) ((run?_congr hruns r.id).trans hr)

theorem run?_of_runOf {s : State} {n : Nat} {r : Run} (h : s.runOf n = some r) : s.run? r.id = some r := by
  obtain ⟨t, -, ht⟩ := Option.bind_eq_some_iff.1 h
  rw [run?_id ht]; exact ht

theorem taskEnd_waits {s : State} {n : Nat} (h : s.mayEnd n = false) : exec (.taskEnd n) s = .next s := by
  show execTaskEnd n s = _
  unfold execTaskEnd
  rw [h]
  rfl

theorem endStands_ensureCut {run n : Nat} {es : List Word} {c : Core} {s : State} (h : endStands run es n c s) (r : Run) (cut : Nat) :
    endStands run es n c (s.ensureCut r cut) := by
  obtain ⟨e1, e2, -⟩ := ensureCut_kept s r cut
  exact endStands_congr e2 e1 h

theorem endStands_endAtCuts {run n : Nat} {es : List Word} {c : Core} {s : State} (h : endStands run es n c s) (k m : Nat) :
    endStands run es n c (s.endAtCuts k m) :=
  endStands_congr rfl rfl h

/-- TASK_END: the core is free and the task counts as ended. -/
theorem taskEnd_ends {s : State} {n : Nat} {r : Run} {k : Task} (h : s.mayEnd n = true) (hr : s.runOf n = some r)
    (hk : (s.core n).task = some k) : ∃ t q, exec (.taskEnd n) s = .next t ∧ (t.core n).task = none ∧ (t.core n).level = .t ∧
      (t.core n).a.run = false ∧ (t.core n).inbox = [] ∧ t.run? r.id = some q ∧ q.endedTasks = r.endedTasks ++ [k.wid] := by
  obtain ⟨c, c1, c2, c3, c4, hd⟩ := endStands_taskDone (n := n) k (run?_of_runOf hr)
  obtain ⟨q, hq, -⟩ := hd.2
  have hb := endStands_endAtBarriers c1 hd (run?_id hq) n
  have hcut : endStands r.id (r.endedTasks ++ [k.wid]) n c
      (if r.takeLv.isSome then ((((s.taskDone n r k).endAtBarriers q n).ensureCut r
        (((s.taskDone n r k).endAtBarriers q n).nextCut r.id)).endAtCuts r.id n) else (s.taskDone n r k).endAtBarriers q n) := by
    split
    · exact endStands_endAtCuts (endStands_ensureCut hb r _) r.id n
    · exact hb
  obtain ⟨h1, p, h2, h3⟩ := endStands_unasked (endStands_stepPlaces hcut r.id)
  refine ⟨_, p, ?_, by rw [h1, c1], by rw [h1, c2], by rw [h1, c3], by rw [h1, c4], h2, h3⟩
  show execTaskEnd n s = _
  unfold execTaskEnd
  rw [if_neg (by rw [h]; decide), hr, hk]
  dsimp only
  rw [show ((((((s.setCore n (s.core n).landAll).writeBack n false).writeBack n true).takeHorizon (dieOf n)).setRun
    { r with endedTasks := r.endedTasks ++ [k.wid] }).freeCore n).run? r.id = some q from hq]
  rfl

/-! ### PREEMPTION_REQUEST (17 R383) -/

/-- What a request to a victim needs. -/
def State.mayPreempt (s : State) (v : Run) (cls : Nat) : Prop :=
  bitAt s.lctl.toNat 4 = true ∧
  (∃ r ∈ s.runs, r.cls = cls ∧ s.dealable r = true ∧ s.placeable r s.busyCores = false ∧ (∃ w ∈ s.victims r, w.id = v.id) ∧
    ∀ w ∈ s.victims r, w.cls < v.cls ∨ (w.cls = v.cls ∧ w.startAt ≤ v.startAt)) ∧
  s.areasUsed < fld s.ctx.toNat 0 3 ∧ (∀ q ∈ s.runs, q.preempted = false ∧ s.resumable q = false)

/-- The test with which a request is refused. -/
def State.refusesPreempt (s : State) (v : Run) (cls : Nat) : Bool :=
  !bitAt s.lctl.toNat 4 || !s.asking.any (fun r => r.cls == cls && s.isVictim r v) || fld s.ctx.toNat 0 3 ≤ s.areasUsed ||
    s.runs.any (fun q => q.preempted) || s.runs.any s.resumable

theorem mayPreempt_iff (s : State) (v : Run) (cls : Nat) : s.mayPreempt v cls ↔ s.refusesPreempt v cls = false := by
  have hv (r : Run) : s.isVictim r v = true ↔ (∃ w ∈ s.victims r, w.id = v.id) ∧
      ∀ w ∈ s.victims r, w.cls < v.cls ∨ (w.cls = v.cls ∧ w.startAt ≤ v.startAt) := by
    unfold State.isVictim; simp
  have ha : s.asking.any (fun r => r.cls == cls && s.isVictim r v) = true ↔
      ∃ r ∈ s.runs, r.cls = cls ∧ s.dealable r = true ∧ s.placeable r s.busyCores = false ∧ s.isVictim r v = true := by
    unfold State.asking
    simp only [List.any_eq_true, List.mem_filter, Bool.and_eq_true, Bool.not_eq_true', beq_iff_eq]
    constructor
    · rintro ⟨r, ⟨h1, h2, h3⟩, h4, h5⟩; exact ⟨r, h1, h4, h2, h3, h5⟩
    · rintro ⟨r, h1, h4, h2, h3, h5⟩; exact ⟨r, ⟨h1, h2, h3⟩, h4, h5⟩
  unfold State.mayPreempt State.refusesPreempt
  simp only [Bool.or_eq_false_iff, Bool.not_eq_false', ha, hv, decide_eq_false_iff_not, Nat.not_le, List.any_eq_false, Bool.not_eq_true]
  constructor
  · rintro ⟨h1, h2, h3, h4⟩
    exact ⟨⟨⟨⟨h1, h2⟩, h3⟩, fun q hq => (h4 q hq).1⟩, fun q hq => (h4 q hq).2⟩
  · rintro ⟨⟨⟨⟨h1, h2⟩, h3⟩, h4⟩, h5⟩
    exact ⟨h1, h2, h3, fun q hq => ⟨h4 q hq, h5 q hq⟩⟩

/-- The task of one core asked to save itself: its watchdog starts, or stands where the core does not run at level T. -/
def State.askTask (s : State) (n : Nat) : State :=
  let c := s.core n
  let count := c.level == .t && !c.a.halted && !c.x.halted
  s.mapTask n (fun t => { t with preempt := true, watch := if count then some c.cyc else none,
                                 watchHeld := if count then none else some 0 })

theorem askTask_runs (s : State) (n : Nat) : (s.askTask n).runs = s.runs := rfl

theorem asked_foldl {l : List Nat} {s : State} {n : Nat} (h : n ∈ l ∨ ∀ k, (s.core n).task = some k → k.preempt = true) :
    ∀ k, ((l.foldl State.askTask s).core n).task = some k → k.preempt = true := by
  induction l generalizing s with
  | nil => exact h.resolve_left List.not_mem_nil
  | cons m ms ih =>
    refine ih ?_
    unfold State.askTask State.mapTask
    dsimp only
    rw [State.core_setCore]
    by_cases e : n = m
    · refine .inr fun k hk => ?_
      rw [if_pos e] at hk
      obtain ⟨t, -, rfl⟩ := Option.map_eq_some_iff.1 hk
      rfl
    · rw [if_neg e]
      exact h.imp_left fun k => (List.mem_cons.1 k).resolve_left e

theorem exec_preemptionRequest {s : State} {v : Run} (hv : s.run? v.id = some v) (cls : Nat) :
    exec (.preemptionRequest v.id cls) s =
      if s.refusesPreempt v cls then .next s
      else .next (s.noting fun s =>
        ((s.setRun { v with preempted := true }).coresOf v.id).foldl State.askTask (s.setRun { v with preempted := true })) := by
  show execPreemptionRequest v.id cls s = _
  rw [execPreemptionRequest, hv]
  rfl

theorem preemptionRequest_spec {s : State} {v : Run} (hv : s.run? v.id = some v) (cls : Nat) :
    (¬s.mayPreempt v cls → exec (.preemptionRequest v.id cls) s = .next s) ∧
    (s.mayPreempt v cls → ∃ t, exec (.preemptionRequest v.id cls) s = .next t ∧ t.run? v.id = some { v with preempted := true } ∧
      ∀ n ∈ s.coresOf v.id, ∀ k, (t.core n).task = some k → k.preempt = true) := by
  rw [mayPreempt_iff, exec_preemptionRequest hv]
  refine ⟨fun h => if_pos (by simpa using h), fun h => ⟨_, if_neg (by rw [h]; exact Bool.false_ne_true), ?_, fun n hn => ?_⟩⟩
  · refine (run?_congr (onlySends_noting ..).runs v.id).trans ?_
    refine (run?_congr ?_ v.id).trans (run?_setRun (q := { v with preempted := true }) hv)
    exact List.foldlRecOn (motive := fun t : State => t.runs = (s.setRun { v with preempted := true }).runs) _ _ rfl
      (fun u k n _ => (askTask_runs u n).trans k)
  · rw [core_congr (onlySends_cores (onlySends_noting ..))]
    exact asked_foldl (.inl hn)

end Sys2Proof.Machine
end

section
/-! PROOFS. Resumption of a saved launch (17 R389, 06 R162). -/

namespace Sys2Proof.Machine

theorem sendsMore_foldl {α : Type} (p : State → α → Nat) (m : State → α → Instr) (l : List α) (s : State) :
    sendsMore s (l.foldl (fun u a => u.post (p u a) (m u a)) s) :=
  List.foldlRecOn l _ ⟨rfl, List.Subset.refl _, List.Subset.refl _, List.Subset.refl _⟩
    (fun _ k _ _ => sendsMore_trans k (sendsMore_post ..))

theorem sendsMore_noting (s : State) (f : State → State) : sendsMore (f s) (s.noting f) :=
  sendsMore_trans (sendsMore_foldl _ _ _ _) (sendsMore_foldl _ _ _ _)

/-! ### Tables filled key by key -/

/-- A key filled in a run of writes under distinct keys reads as what was written there. -/
theorem tget_fill {α : Type} [DecidableEq α] (d : α) {key : Nat → Nat} (hk : ∀ i j, key i = key j → i = j) (f : Nat → α) {l : List Nat}
    {i : Nat} (h : i ∈ l) (t : Table α) : tget d (key i) (l.foldl (fun q j => tput d (key j) (f j) q) t) = f i := by
  have hn : ∀ (l : List Nat) (t : Table α), i ∉ l → tget d (key i) (l.foldl (fun q j => tput d (key j) (f j) q) t) = tget d (key i) t :=
    fun l t hi => List.foldlRecOn (motive := fun u => tget d (key i) u = tget d (key i) t) l _ rfl (fun u hu j hj => by
      rw [tget_tput_ne d (fun e => hi (hk i j e ▸ hj)), hu])
  induction l generalizing t with
  | nil => exact absurd h List.not_mem_nil
  | cons j l ih =>
    rw [List.foldl_cons]
    by_cases hi : i ∈ l
    · exact ih hi _
    · have e : i = j := (List.mem_cons.1 h).resolve_right hi
      rw [hn l _ hi, e, tget_tput_same]

/-! ### What a core is restored to (17 R389) -/

theorem memRd_mod (s : State) (a : Nat) : (BitVec.ofNat 64 (s.memRd a 8)).toNat = s.memRd a 8 := by
  rw [BitVec.toNat_ofNat]
  exact Nat.mod_eq_of_lt (rdLe_lt s.mem a 8)

theorem slotWord_zero (s : State) (a : Nat) : s.slotWord a 0 = s.memRd a 8 := by rw [State.slotWord, Nat.add_zero]

theorem restored_pc (s : State) (r : Run) (area n : Nat) (t : Task) :
    (s.restored r area n t).a.pc = fld (s.slotWord (s.contextSlot area n) 0) 0 12 ∧
    (s.restored r area n t).x.pc = fld (s.slotWord (s.contextSlot area n) 0) 12 12 := ⟨rfl, rfl⟩

theorem restored_files (s : State) (r : Run) (area n : Nat) (t : Task) :
    (s.restored r area n t).g =
      (upFrom 0 64).foldl (fun q i => tput 0 i (BitVec.ofNat 64 (s.slotWord (s.contextSlot area n) (0x200 + 8 * i))) q) [] ∧
    (s.restored r area n t).s =
      (upFrom 0 16).foldl (fun q i => tput 0 i (BitVec.ofNat 64 (s.slotWord (s.contextSlot area n) (0x400 + 8 * i))) q) [] ∧
    (s.restored r area n t).presG =
      (upFrom 0 32).foldl (fun q i => tput false (32 + i) (bitAt (s.slotWord (s.contextSlot area n) 0x20) i) q) [] := by
  unfold State.restored
  dsimp only
  exact ⟨rfl, rfl, rfl⟩

/-- A register of a file that is filled from words of a slot. -/
theorem slotWord_filled (s : State) (a off n : Nat) {i : Nat} (hi : i < n) :
    (tget 0 i ((upFrom 0 n).foldl (fun q j => tput 0 j (BitVec.ofNat 64 (s.slotWord a (off + 8 * j))) q) [])).toNat =
      s.memRd (a + off + 8 * i) 8 := by
  rw [tget_fill (0 : Word) (key := fun j => j) (fun _ _ e => e) (fun j => BitVec.ofNat 64 (s.slotWord a (off + 8 * j)))
    (mem_upFrom.2 ⟨Nat.zero_le i, by omega⟩), State.slotWord, memRd_mod, Nat.add_assoc]

theorem restored_registers (s : State) (r : Run) (area n : Nat) (t : Task) :
    let a := s.contextSlot area n
    let c := s.restored r area n t
    c.task.isSome = true ∧ c.code = (s.core n).code ∧ c.a.pc = fld (s.memRd a 8) 0 12 ∧ c.x.pc = fld (s.memRd a 8) 12 12 ∧
    (∀ i, i < 64 → c.reg (.g i) = s.memRd (a + 0x200 + 8 * i) 8) ∧ (∀ i, i < 16 → c.reg (.s i) = s.memRd (a + 0x400 + 8 * i) 8) ∧
    (∀ i, i < 32 → (c.absent (.g (32 + i)) = true ↔ bitAt (s.memRd (a + 0x20) 8) i = false)) := by
  obtain ⟨hg, hs, hp⟩ := restored_files s r area n t
  obtain ⟨ha, hx⟩ := restored_pc s r area n t
  rw [slotWord_zero] at ha hx
  refine ⟨rfl, rfl, ha, hx, fun i hi => ?_, fun i hi => ?_, fun i hi => ?_⟩
  · rw [Core.reg, hg]; exact slotWord_filled s _ 0x200 64 hi
  · rw [Core.reg, hs]; exact slotWord_filled s _ 0x400 16 hi
  · have := tget_fill false (key := fun j => 32 + j) (fun _ _ e => Nat.add_left_cancel e)
      (fun j => bitAt (s.slotWord (s.contextSlot area n) 0x20) j) (mem_upFrom.2 ⟨Nat.zero_le i, by omega⟩ : i ∈ upFrom 0 32) []
    rw [← hp] at this
    unfold Core.absent
    dsimp only
    rw [this, decide_eq_true (Nat.le_add_right 32 i), Bool.true_and, Bool.not_eq_true', State.slotWord]

/-- The cores of a saved launch restored one after another. -/
def State.restores (t s : State) (r : Run) (area : Nat) (l : List (Nat × Task)) : State :=
  l.foldl (fun t e => (t.cleanCluster (clusterOf e.1)).setCore e.1 (s.restored r area e.1 e.2)) t

theorem restores_kept (t s : State) (r : Run) (area : Nat) (l : List (Nat × Task)) :
    (t.restores s r area l).runs = t.runs ∧ (t.restores s r area l).mem = t.mem :=
  List.foldlRecOn (motive := fun u : State => u.runs = t.runs ∧ u.mem = t.mem) l _ ⟨rfl, rfl⟩ (fun _ k _ _ => k)

theorem core_cleanSet (t : State) (cl n m : Nat) (c : Core) : ((t.cleanCluster cl).setCore n c).core m = if m = n then c else t.core m :=
  State.core_setCore ..

theorem core_restores_ne {l : List (Nat × Task)} {n : Nat} (h : n ∉ l.map Prod.fst) (t s : State) (r : Run) (area : Nat) :
    (t.restores s r area l).core n = t.core n := by
  refine List.foldlRecOn (motive := fun u : State => u.core n = t.core n) l _ rfl (fun u hu e he => ?_)
  have hne : n ≠ e.1 := fun hn => h (hn ▸ List.mem_map_of_mem he)
  rw [core_cleanSet, if_neg hne, hu]

theorem core_restores {l : List (Nat × Task)} (h : (l.map Prod.fst).Nodup) (t s : State) (r : Run) (area : Nat) :
    ∀ e ∈ l, (t.restores s r area l).core e.1 = s.restored r area e.1 e.2 := by
  induction l generalizing t with
  | nil => exact fun e he => absurd he List.not_mem_nil
  | cons a l ih =>
    rw [List.map_cons, List.nodup_cons] at h
    obtain ⟨ha, hl⟩ := h
    intro e he
    show (((t.cleanCluster (clusterOf a.1)).setCore a.1 (s.restored r area a.1 a.2)).restores s r area l).core e.1 = _
    rcases List.mem_cons.1 he with rfl | he
    · rw [core_restores_ne ha, core_cleanSet, if_pos rfl]
    · exact ih hl _ e he

/-! ### RESUMPTION (17 R389) -/

/-- What a resumption needs. -/
def State.mayResume (s : State) (r : Run) (tasks : List (Nat × Task)) : Prop :=
  s.resumable r = true ∧ s.codeComing (tasks.map Prod.fst) = false ∧ ∀ n ∈ tasks.map Prod.fst, (s.gang (gangOf n)).queue = []

/-- The test with which a resumption is refused. -/
def State.refusesResume (s : State) (r : Run) (tasks : List (Nat × Task)) : Bool :=
  !s.resumable r || s.codeComing (tasks.map Prod.fst) || (tasks.map Prod.fst).any (fun n => !(s.gang (gangOf n)).queue.isEmpty)

theorem mayResume_iff (s : State) (r : Run) (tasks : List (Nat × Task)) : s.mayResume r tasks ↔ s.refusesResume r tasks = false := by
  unfold State.mayResume State.refusesResume
  rw [Bool.or_eq_false_iff, Bool.or_eq_false_iff, Bool.not_eq_false', List.any_eq_false, and_assoc]
  simp only [Bool.not_eq_true', Bool.not_eq_false, List.isEmpty_iff]

/-- The START messages of a resumption. -/
def State.restarts (s : State) (r : Run) (area : Nat) (tasks : List (Nat × Task)) : List Instr :=
  tasks.map (fun e => .start { core := e.1, run := r.id, group := e.2.group, gidx := e.2.gidx, resume := true,
                               xrun := bitAt (s.slotWord (s.contextSlot area e.1) 0) 24 })

/-- The cores and gangs of a resumed launch restored. -/
def State.resumed (s : State) (r : Run) (area : Nat) (tasks : List (Nat × Task)) : State :=
  (if r.gangLv.isSome then (tasks.map (fun e => gangOf e.1)).eraseDups else []).foldl
    (fun t gn => t.setGang gn (s.restoredGang area gn)) (s.restores s r area tasks)

theorem resumed_kept (s : State) (r : Run) (area : Nat) (tasks : List (Nat × Task)) :
    (s.resumed r area tasks).cores = (s.restores s r area tasks).cores ∧ (s.resumed r area tasks).runs = s.runs ∧
    (s.resumed r area tasks).mem = s.mem := by
  obtain ⟨k1, k2⟩ := restores_kept s s r area tasks
  exact List.foldlRecOn
    (motive := fun u : State => u.cores = (s.restores s r area tasks).cores ∧ u.runs = s.runs ∧ u.mem = s.mem)
    _ _ ⟨rfl, k1, k2⟩ (fun _ k _ _ => k)

theorem exec_resumption {s : State} {r : Run} {area : Nat} {tasks : List (Nat × Task)} (hr : s.run? r.id = some r)
    (hs : r.saved = some (area, tasks)) :
    exec (.resumption r.id) s =
      if s.refusesResume r tasks then .next s
      else .next (s.noting fun s =>
        ({ s.resumed r area tasks with agenda := (s.resumed r area tasks).agenda ++ s.restarts r area tasks } : State).setRun
          { r with saved := none }) := by
  show execResumption r.id s = _
  rw [execResumption, hr]
  dsimp only
  rw [hs]
  rfl

theorem resumption_restores {s : State} {r : Run} {area : Nat} {tasks : List (Nat × Task)} (hr : s.run? r.id = some r)
    (hs : r.saved = some (area, tasks)) (h : s.mayResume r tasks) (hd : (tasks.map Prod.fst).Nodup) :
    ∃ t, exec (.resumption r.id) s = .next t ∧ t.run? r.id = some { r with saved := none } ∧ t.mem = s.mem ∧
      ∀ e ∈ tasks, t.core e.1 = s.restored r area e.1 e.2 ∧
        .start { core := e.1, run := r.id, group := e.2.group, gidx := e.2.gidx, resume := true,
                 xrun := bitAt (s.memRd (s.contextSlot area e.1) 8) 24 } ∈ t.agenda := by
  obtain ⟨k1, k2, k3⟩ := resumed_kept s r area tasks
  have hn := sendsMore_noting s fun s =>
    ({ s.resumed r area tasks with agenda := (s.resumed r area tasks).agenda ++ s.restarts r area tasks } : State).setRun
      { r with saved := none }
  obtain ⟨n1, n2, -, -⟩ := hn
  refine ⟨_, (exec_resumption hr hs).trans (if_neg (by rw [(mayResume_iff ..).1 h]; exact Bool.false_ne_true)), ?_, ?_, fun e he => ⟨?_, ?_⟩⟩
  · exact (run?_congr n1.runs r.id).trans (run?_setRun (q := { r with saved := none }) (s := { s.resumed r area tasks with agenda := _ })
      ((run?_congr k2 r.id).trans hr))
  · exact (onlySends_mem n1).trans k3
  · rw [core_congr (onlySends_cores n1)]
    exact (core_congr k1 e.1).trans (core_restores hd s s r area e he)
  · rw [← slotWord_zero]
    exact n2 (List.mem_append_right _ (List.mem_map.2 ⟨e, he, rfl⟩))

theorem resumption_waits {s : State} {r : Run} {area : Nat} {tasks : List (Nat × Task)} (hr : s.run? r.id = some r)
    (hs : r.saved = some (area, tasks)) (h : ¬s.mayResume r tasks) : exec (.resumption r.id) s = .next s :=
  (exec_resumption hr hs).trans (if_pos (by simpa [mayResume_iff] using h))

end Sys2Proof.Machine
end

section
/-! PROOFS. Contexts saved (17 R384 to R388), and what the binder does as a whole. -/

namespace Sys2Proof.Machine

/-! ### Ranges of a table replaced -/

theorem tget_filter {α : Type} (d : α) {p : Nat × α → Bool} {k : Nat} (h : ∀ e : Nat × α, e.1 = k → p e = true) (t : Table α) :
    tget d k (t.filter p) = tget d k t := by
  induction t with
  | nil => rfl
  | cons e t ih =>
    obtain ⟨j, v⟩ := e
    by_cases hj : j = k
    · rw [List.filter_cons_of_pos (h (j, v) hj), tget, tget, if_pos hj, if_pos hj]
    · have ht : tget d k ((j, v) :: t) = tget d k t := by rw [tget, if_neg hj]
      rw [ht, List.filter_cons]
      split
      · rw [tget, if_neg hj, ih]
      · exact ih

theorem tget_append_right {α : Type} (d : α) {k : Nat} {t : Table α} (h : ∀ e ∈ t, e.1 ≠ k) (u : Table α) :
    tget d k (t ++ u) = tget d k u := by
  induction t with
  | nil => rfl
  | cons e t ih =>
    obtain ⟨j, v⟩ := e
    rw [List.cons_append, tget, if_neg (h (j, v) List.mem_cons_self), ih (fun e he => h e (List.mem_cons_of_mem _ he))]

theorem tget_shift {α : Type} (d : α) (a k : Nat) (t : Table α) : tget d (a + k) (t.map (fun e => (a + e.1, e.2))) = tget d k t := by
  induction t with
  | nil => rfl
  | cons e t ih =>
    obtain ⟨j, v⟩ := e
    rw [List.map_cons, tget, tget, ih]
    simp only [Nat.add_left_cancel_iff]

/-- Below a range that is replaced every key keeps its value. -/
theorem tget_putRange_below {a k : Nat} (h : k < a) (n : Nat) (new t : Table Byte) : tget 0 k (putRange a n new t) = tget 0 k t := by
  unfold putRange
  rw [tget_append, tget_append, tget_filter]
  · exact fun e he => decide_eq_true (he ▸ h)
  · intro e he
    obtain ⟨e', -, rfl⟩ := List.mem_map.1 he
    dsimp only; omega
  · intro e he
    have := of_decide_eq_true (List.mem_filter.1 he).2
    omega

/-- Inside the range stands the new table. -/
theorem tget_putRange_in {k n : Nat} (h : k < n) (a : Nat) (new t : Table Byte) : tget 0 (a + k) (putRange a n new t) = tget 0 k new := by
  unfold putRange
  rw [tget_append, tget_append_right, tget_shift, tget_filter]
  · exact fun e he => decide_eq_true (he ▸ h)
  · intro e he
    have := of_decide_eq_true (List.mem_filter.1 he).2
    omega
  · intro e he
    have := of_decide_eq_true (List.mem_filter.1 he).2
    omega

theorem rdLe_shift {t u : Table Byte} {a b : Nat} (n : Nat) (h : ∀ j, j < n → tget 0 (a + j) t = tget 0 (b + j) u) :
    rdLe t a n = rdLe u b n := by
  induction n generalizing a b with
  | zero => rfl
  | succ n ih =>
    have h0 := h 0 (Nat.succ_pos n)
    rw [Nat.add_zero, Nat.add_zero] at h0
    rw [rdLe_succ, rdLe_succ, h0, ih (fun j hj => ?_)]
    have := h (j + 1) (Nat.succ_lt_succ hj)
    rwa [show a + 1 + j = a + (j + 1) by omega, show b + 1 + j = b + (j + 1) by omega]

/-- A piece of a table that none of the later pieces reaches is read as it was laid down. -/
theorem tget_piecesAt (pre post : List (Nat × List Byte)) (off : Nat) (bs : List Byte) {k : Nat} (h : ∀ p ∈ post, k < p.1) :
    tget 0 k (piecesAt (pre ++ (off, bs) :: post)) = tget 0 k (tputs 0 off bs (piecesAt pre)) := by
  unfold piecesAt
  rw [List.foldl_append, List.foldl_cons]
  exact List.foldlRecOn (motive := fun u : Table Byte => tget 0 k u = _) post _ rfl (fun u hu p hp => by
    rw [tget_tputs_out 0 k p.1 p.2 u (.inl (h p hp)), hu])

/-! ### The slot of a core (17 R388) -/

/-- The head of a slot holds the saved g registers at 0x200. -/
theorem slotHead_g (s : State) (n : Nat) (t : Task) (pc : Nat) (loops : List LoopRec) {i : Nat} (hi : i < 64) :
    rdLe (s.slotHead n t pc loops) (0x200 + 8 * i) 8 =
      if (s.core n).savesG t.masks.1 i then (tget 0 i (s.core n).g).toNat else 0 := by
  let gw (i : Nat) : Nat := if (s.core n).savesG t.masks.1 i then (tget 0 i (s.core n).g).toNat else 0
  have hp : ∃ pre post, s.slotHead n t pc loops = piecesAt (pre ++ (0x200, wordBytes ((upFrom 0 64).map gw)) :: post) ∧
      post.map Prod.fst = [0x400, 0x480, 0x4C0, 0x508, 0x540, 0x640, 0x6C0, 0x740, 0x800, 0x900, 0xD00, 0x1100] := by
    unfold State.slotHead
    exact ⟨[_, _, _, _, _, _], [_, _, _, _, _, _, _, _, _, _, _, _], rfl, rfl⟩
  obtain ⟨pre, post, e, hpost⟩ := hp
  have hlow : ∀ p ∈ post, 0x400 ≤ p.1 := fun p hm => by
    have h := hpost ▸ List.mem_map_of_mem (f := Prod.fst) hm
    exact (by decide : ∀ k ∈ [0x400, 0x480, 0x4C0, 0x508, 0x540, 0x640, 0x6C0, 0x740, 0x800, 0x900, 0xD00, 0x1100], 0x400 ≤ k) _ h
  have hw : ((upFrom 0 64).map gw)[i]? = some (gw i) := by
    rw [List.getElem?_map, upFrom_eq_range', List.getElem?_range' hi, Nat.zero_add, Nat.one_mul]; rfl
  have hlt : gw i < 2 ^ 64 := by
    dsimp only [gw]
    split
    · exact BitVec.isLt _
    · exact Nat.two_pow_pos 64
  calc rdLe (s.slotHead n t pc loops) (0x200 + 8 * i) 8
      = rdLe (tputs 0 0x200 (wordBytes ((upFrom 0 64).map gw)) (piecesAt pre)) (0x200 + 8 * i) 8 :=
        rdLe_congr fun k _ hk => by rw [e, tget_piecesAt _ _ _ _ fun p hp => by have := hlow p hp; omega]
    _ = gw i % 2 ^ 64 := rdLe_wordBytes _ _ hw
    _ = gw i := Nat.mod_eq_of_lt hlt

/-! ### A core saved (17 R384, R388) -/

/-- Memory below an address, and the launches, have not changed. -/
def keepsBelow (b : Nat) (s t : State) : Prop := t.runs = s.runs ∧ ∀ k, k < b → tget 0 k t.mem = tget 0 k s.mem

theorem keepsBelow_refl (b : Nat) (s : State) : keepsBelow b s s := ⟨rfl, fun _ _ => rfl⟩

theorem keepsBelow_trans {b : Nat} {s t u : State} (h : keepsBelow b s t) (k : keepsBelow b t u) : keepsBelow b s u :=
  ⟨k.1.trans h.1, fun i hi => (k.2 i hi).trans (h.2 i hi)⟩

theorem putRegion_kept (s : State) (a n : Nat) (t : Table Byte) :
    (s.putRegion a n t).runs = s.runs ∧ (s.putRegion a n t).mem = putRange a n t s.mem := by
  obtain ⟨h, e⟩ := s.touch_eq a
  unfold State.putRegion
  rw [e]
  exact ⟨rfl, rfl⟩

theorem keepsBelow_putRegion {a b : Nat} (h : b ≤ a) (s : State) (n : Nat) (t : Table Byte) : keepsBelow b s (s.putRegion a n t) := by
  obtain ⟨hr, hm⟩ := putRegion_kept s a n t
  exact ⟨hr, fun k hk => by rw [hm, tget_putRange_below (Nat.lt_of_lt_of_le hk h)]⟩

theorem keepsBelow_foldl {α : Type} {b : Nat} {f : State → α → State} (h : ∀ s a, keepsBelow b s (f s a)) (l : List α) (s : State) :
    keepsBelow b s (l.foldl f s) :=
  List.foldlRecOn l f (keepsBelow_refl b s) (fun _ k a _ => keepsBelow_trans k (h _ a))

theorem keepsBelow_ite {b : Nat} {s t : State} (h : keepsBelow b s t) (c : Bool) : keepsBelow b s (if c then t else s) := by
  split
  · exact h
  · exact keepsBelow_refl b s

/-- What is written to a slot after its head leaves the first 1 KiB of the slot. -/
theorem saveCore_rest (s : State) (area amask n : Nat) (t : Task) (pc : Nat) (loops : List LoopRec) :
    ∃ m, 0x400 ≤ m ∧ keepsBelow (s.contextSlot area n + 0x400) (s.putRegion (s.contextSlot area n) m (s.slotHead n t pc loops))
      (s.saveCore area amask n t pc loops) := by
  have hput {a : Nat} (h : 0x400 ≤ a) (u : State) (n' : Nat) (t' : Table Byte) :
      keepsBelow (s.contextSlot area n + 0x400) u (u.putRegion (s.contextSlot area n + a) n' t') :=
    keepsBelow_putRegion (Nat.add_le_add_left h _) u n' t'
  have hput' {a : Nat} (h : 0x400 ≤ a) (e : Nat) (u : State) (n' : Nat) (t' : Table Byte) :
      keepsBelow (s.contextSlot area n + 0x400) u (u.putRegion (s.contextSlot area n + a + e) n' t') :=
    keepsBelow_putRegion (by omega) u n' t'
  have tail : ∃ v, v = (if n % 8 = 0 then s.putRegion (s.contextSlot area n) 0x2000 (s.slotHead n t pc loops)
      else (s.putRegion (s.contextSlot area n) 0xD00 (s.slotHead n t pc loops)).putRegion (s.contextSlot area n + 0x1100) 0xF00
        (getRange 0x1100 0xF00 (s.slotHead n t pc loops))) ∧
      keepsBelow (s.contextSlot area n + 0x400) v (s.saveCore area amask n t pc loops) := by
    unfold State.saveCore
    dsimp only
    refine ⟨_, rfl, ?_⟩
    refine keepsBelow_trans ?_ (hput (by decide) _ _ _)
    refine keepsBelow_trans ?_ (hput (by decide) _ _ _)
    refine keepsBelow_trans ?_ (hput (by decide) _ _ _)
    refine keepsBelow_trans ?_ (keepsBelow_foldl (fun u e => hput' (by decide) _ u _ _) _ _)
    refine keepsBelow_trans ?_ (hput (by decide) _ _ _)
    refine keepsBelow_trans ?_ (keepsBelow_foldl (fun u b => keepsBelow_ite (hput' (by decide) _ u _ _) _) _ _)
    refine keepsBelow_trans ?_ (keepsBelow_foldl (fun u i => keepsBelow_ite (hput' (by decide) _ u _ _) _) _ _)
    exact keepsBelow_foldl (fun u i => keepsBelow_ite (hput' (by decide) _ u _ _) _) _ _
  obtain ⟨v, hv, hk⟩ := tail
  by_cases hn : n % 8 = 0
  · rw [if_pos hn] at hv
    exact ⟨0x2000, by decide, hv ▸ hk⟩
  · rw [if_neg hn] at hv
    exact ⟨0xD00, by decide, keepsBelow_trans (hput (by decide) _ _ _) (hv ▸ hk)⟩

/-- A core's slot after its save: the launches stand, and the saved g registers lie at 0x200. -/
theorem saveCore_spec (s : State) (area amask n : Nat) (t : Task) (pc : Nat) (loops : List LoopRec) :
    (s.saveCore area amask n t pc loops).runs = s.runs ∧ ∀ i, i < 64 →
      (s.saveCore area amask n t pc loops).memRd (s.contextSlot area n + 0x200 + 8 * i) 8 =
        if (s.core n).savesG t.masks.1 i then (tget 0 i (s.core n).g).toNat else 0 := by
  obtain ⟨m, hm, hr, hk⟩ := saveCore_rest s area amask n t pc loops
  obtain ⟨pr, pm⟩ := putRegion_kept s (s.contextSlot area n) m (s.slotHead n t pc loops)
  refine ⟨hr.trans pr, fun i hi => ?_⟩
  rw [← slotHead_g s n t pc loops hi, State.memRd]
  refine rdLe_shift 8 fun j hj => ?_
  rw [hk _ (by omega), pm, Nat.add_assoc, Nat.add_assoc, tget_putRange_in (by omega), Nat.add_assoc]

/-- A core's results and stores written before its context is saved. -/
def State.written (s : State) (n : Nat) : State :=
  let s := s.setCore n ((((s.core n).settle ((s.core n).cyc + 2 ^ 16)).lmFlush false).lmFlush true)
  let c := s.core n
  let s := ((s.writeBack n false).writeBack n true).takeHorizon (dieOf n)
  (s.mergeVec (dieOf n) c.a.seen).mergeVec (dieOf n) c.x.seen

theorem takeHorizon_kept (s : State) (d : Nat) :
    (s.takeHorizon d).cores = s.cores ∧ (s.takeHorizon d).runs = s.runs ∧ (s.takeHorizon d).ctx = s.ctx := ⟨rfl, rfl, rfl⟩

theorem mergeVec_kept (s : State) (d : Nat) (v : Table Nat) :
    (s.mergeVec d v).cores = s.cores ∧ (s.mergeVec d v).runs = s.runs ∧ (s.mergeVec d v).ctx = s.ctx := ⟨rfl, rfl, rfl⟩

theorem written_kept (s : State) (n : Nat) : (s.written n).runs = s.runs ∧ (s.written n).ctx = s.ctx ∧
    (s.written n).core n = (((s.core n).settle ((s.core n).cyc + 2 ^ 16)).lmFlush false).lmFlush true := by
  unfold State.written
  dsimp only
  generalize (((s.core n).settle ((s.core n).cyc + 2 ^ 16)).lmFlush false).lmFlush true = c
  obtain ⟨c1, r1, x1⟩ := writeBack_kept (s.setCore n c) n false
  obtain ⟨c2, r2, x2⟩ := writeBack_kept ((s.setCore n c).writeBack n false) n true
  generalize ((s.setCore n c).writeBack n false).writeBack n true = t at c2 r2 x2 ⊢
  obtain ⟨c3, r3, x3⟩ := takeHorizon_kept t (dieOf n)
  generalize t.takeHorizon (dieOf n) = u at c3 r3 x3 ⊢
  obtain ⟨c4, r4, x4⟩ := mergeVec_kept u (dieOf n) ((s.setCore n c).core n).a.seen
  obtain ⟨c5, r5, x5⟩ := mergeVec_kept (u.mergeVec (dieOf n) ((s.setCore n c).core n).a.seen) (dieOf n) ((s.setCore n c).core n).x.seen
  refine ⟨by rw [r5, r4, r3, r2, r1]; rfl, by rw [x5, x4, x3, x2, x1]; rfl, ?_⟩
  rw [core_congr c5, core_congr c4, core_congr c3, core_congr c2, core_congr c1, State.core_setCore, if_pos rfl]

theorem saveOne_eq (s : State) (area amask n : Nat) : (∃ t pc loops, ((s.written n).core n).task = some t ∧
      s.saveOne area amask n = (s.written n).saveCore area amask n t pc loops) ∨
    (((s.written n).core n).task = none ∧ s.saveOne area amask n = s.written n) := by
  have hc : (s.written n).core n = (s.setCore n ((((s.core n).settle ((s.core n).cyc + 2 ^ 16)).lmFlush false).lmFlush true)).core n :=
    (written_kept s n).2.2.trans ((State.core_setCore ..).trans (if_pos rfl)).symm
  rw [hc]
  unfold State.saveOne
  dsimp only
  split
  · next t h => exact .inl ⟨t, _, _, h, rfl⟩
  · next h => exact .inr ⟨h, rfl⟩

theorem saveOne_runs (s : State) (area amask n : Nat) : (s.saveOne area amask n).runs = s.runs := by
  rcases saveOne_eq s area amask n with ⟨t, pc, loops, -, e⟩ | ⟨-, e⟩
  · rw [e, (saveCore_spec ..).1, (written_kept s n).1]
  · rw [e, (written_kept s n).1]

theorem Core.lmFlush_regs (c : Core) (x : Bool) :
    (c.lmFlush x).g = c.g ∧ (c.lmFlush x).presG = c.presG ∧ (c.lmFlush x).task = c.task := by
  cases x <;> exact ⟨rfl, rfl, rfl⟩

theorem Core.onlyLands.task {c d : Core} (h : c.onlyLands d) : d.task = c.task := by rw [← h.1]

theorem saveOne_g {s : State} {n : Nat} {k : Task} (hk : (s.core n).task = some k) (area amask : Nat) {i : Nat} (hi : i < 64) :
    (s.saveOne area amask n).memRd (s.contextSlot area n + 0x200 + 8 * i) 8 =
      if ((s.core n).settle ((s.core n).cyc + 2 ^ 16)).savesG k.masks.1 i then
        (tget 0 i ((s.core n).settle ((s.core n).cyc + 2 ^ 16)).g).toNat else 0 := by
  obtain ⟨-, hx, hc⟩ := written_kept s n
  obtain ⟨g1, p1, t1⟩ := Core.lmFlush_regs ((s.core n).settle ((s.core n).cyc + 2 ^ 16)) false
  obtain ⟨g2, p2, t2⟩ := Core.lmFlush_regs (((s.core n).settle ((s.core n).cyc + 2 ^ 16)).lmFlush false) true
  have ht : ((s.written n).core n).task = some k := by
    rw [hc, t2, t1, (Core.onlyLands_settle ..).task, hk]
  have hs : s.contextSlot area n = (s.written n).contextSlot area n := by unfold State.contextSlot; rw [hx]
  rcases saveOne_eq s area amask n with ⟨t, pc, loops, h, e⟩ | ⟨h, -⟩
  · rw [Option.some.inj (h.symm.trans ht)] at e
    rw [e, hs, (saveCore_spec ..).2 i hi, hc]
    unfold Core.savesG
    rw [g2, g1, p2, p1]
  · rw [h] at ht; cases ht

/-! ### CONTEXT_SAVE (17 R384) -/

/-- What a save needs. -/
def State.maySave (s : State) (r : Run) : Prop :=
  r.preempted = true ∧ r.aborted = false ∧ (∀ n ∈ s.coresOf r.id, s.quietCore n = true) ∧ s.phasesOver r = true

theorem maySave_iff (s : State) (r : Run) : s.maySave r ↔
    (!r.preempted || r.aborted || !(s.coresOf r.id).all s.quietCore || !s.phasesOver r) = false := by
  unfold State.maySave
  simp [and_assoc]

/-- The accumulator banks that a task of a core's gang asks to save. -/
def State.gangMask (s : State) (n : Nat) : Nat :=
  (upFrom (8 * gangOf n) 8).foldl (fun m k => Nat.lor m (fld ((s.core k).task.elim 0 (fun t => t.masks.2.1)) 56 2)) 0

/-- The tasks of some cores with what they keep beside their slots. -/
def State.keptTasks (s : State) (l : List Nat) : List (Nat × Task) :=
  l.filterMap (fun n => (s.core n).task.map (fun q => (n, { q with kept := (s.core n).keeps })))

/-- The contexts of some cores written. -/
def State.savesAll (s : State) (area : Nat) (l : List Nat) : State := l.foldl (fun t n => t.saveOne area (s.gangMask n) n) s

/-- Cores freed, and their gangs where their launch has a gang level. -/
def State.released (t : State) (r : Run) (l : List Nat) : State :=
  if r.gangLv.isSome then l.foldl (fun t n => t.setGang (gangOf n) Gang.idle) (l.foldl State.freeCore t) else l.foldl State.freeCore t

theorem released_kept (t : State) (r : Run) (l : List Nat) : (t.released r l).cores = (l.foldl State.freeCore t).cores ∧
    (t.released r l).runs = t.runs ∧ (t.released r l).mem = t.mem := by
  have hf := onlyFrees_foldl_freeCore l t
  unfold State.released
  split
  · exact List.foldlRecOn (motive := fun u : State => u.cores = (l.foldl State.freeCore t).cores ∧ u.runs = t.runs ∧ u.mem = t.mem)
      l _ ⟨rfl, hf.runs, hf.mem⟩ (fun _ k _ _ => k)
  · exact ⟨rfl, hf.runs, hf.mem⟩

theorem exec_contextSave {s : State} {r : Run} {area : Nat} (hr : s.run? r.id = some r) (ha : s.freeArea = some area) :
    exec (.contextSave r.id) s =
      if !r.preempted || r.aborted || !(s.coresOf r.id).all s.quietCore || !s.phasesOver r then .next s
      else .next (s.noting fun s' => ((s'.savesAll area (s.coresOf r.id)).released r (s.coresOf r.id)).setRun
        { r with saved := some (area, s'.keptTasks (s.coresOf r.id)), preempted := false }) := by
  show execContextSave r.id s = _
  rw [execContextSave, hr]
  dsimp only
  rw [ha]
  rfl

theorem mem_keptTasks {s : State} {l : List Nat} {e : Nat × Task} (h : e ∈ s.keptTasks l) :
    e.1 ∈ l ∧ ∃ k, (s.core e.1).task = some k ∧ e.2 = { k with kept := e.2.kept } := by
  obtain ⟨n, hn, he⟩ := List.mem_filterMap.1 h
  obtain ⟨k, hk, rfl⟩ := Option.map_eq_some_iff.1 he
  exact ⟨hn, k, hk, rfl⟩

theorem savesAll_runs (s : State) (area : Nat) (l : List Nat) : (s.savesAll area l).runs = s.runs :=
  List.foldlRecOn (motive := fun u : State => u.runs = s.runs) l _ rfl (fun _ k _ _ => (saveOne_runs ..).trans k)

theorem contextSave_saves {s : State} {r : Run} {area : Nat} (hr : s.run? r.id = some r) (ha : s.freeArea = some area)
    (h : s.maySave r) : ∃ t tasks, exec (.contextSave r.id) s = .next t ∧
      t.run? r.id = some { r with saved := some (area, tasks), preempted := false } ∧
      (∀ n ∈ s.coresOf r.id, (t.core n).task = none) ∧
      (∀ e ∈ tasks, e.1 ∈ s.coresOf r.id ∧ ∃ k, (s.core e.1).task = some k ∧ e.2 = { k with kept := e.2.kept }) ∧
      t.mem = (s.savesAll area (s.coresOf r.id)).mem := by
  obtain ⟨k1, k2, k3⟩ := released_kept (s.savesAll area (s.coresOf r.id)) r (s.coresOf r.id)
  have hn := onlySends_noting s fun s' => ((s'.savesAll area (s.coresOf r.id)).released r (s.coresOf r.id)).setRun
    { r with saved := some (area, s'.keptTasks (s.coresOf r.id)), preempted := false }
  refine ⟨_, s.keptTasks (s.coresOf r.id),
    (exec_contextSave hr ha).trans (if_neg (by rw [(maySave_iff ..).1 h]; exact Bool.false_ne_true)), ?_, fun n hn' => ?_,
    fun e he => mem_keptTasks he, (onlySends_mem hn).trans k3⟩
  · exact (run?_congr hn.runs r.id).trans
      (run?_setRun (q := { r with saved := some (area, s.keptTasks (s.coresOf r.id)), preempted := false })
        ((run?_congr (k2.trans (savesAll_runs ..)) r.id).trans hr))
  · rw [core_congr (onlySends_cores hn)]
    exact (congrArg Core.task (core_congr k1 n)).trans (task_foldl_freeCore (.inl hn'))

theorem contextSave_waits {s : State} {r : Run} {area : Nat} (hr : s.run? r.id = some r) (ha : s.freeArea = some area)
    (h : ¬s.maySave r) : exec (.contextSave r.id) s = .next s :=
  (exec_contextSave hr ha).trans (if_pos (Bool.of_not_eq_false fun k => h ((maySave_iff ..).2 k)))

/-! ### The binder as a whole -/

/-- Settles O57: every instruction and event of the binder by its own lemma. -/
theorem binderAndSaveResults : Obligations.BinderAndSaveResults := by
  unfold Obligations.BinderAndSaveResults
  intro s
  refine ⟨fun r cores free hr => deal_spec hr cores free, fun r group p hr hp => ⟨groupStart_waits hr hp, fun hw hd => ?_⟩,
    fun m => ⟨start_ignored, start_resumes, fun r p hm hres hr hp => start_begins hm hres hr hp⟩,
    fun n => ⟨taskEnd_waits, fun r k => taskEnd_ends⟩, fun n => ⟨safepointOverdue_waits, safepointOverdue_traps⟩,
    fun cls v hv => preemptionRequest_spec hv cls, fun r area hr ha => ⟨contextSave_waits hr ha, fun hl => ?_⟩,
    fun r area tasks hr hs => ⟨resumption_waits hr hs, fun hl hd => ?_⟩, fun n slot w h => exec_codeStore_waits h slot w,
    fun n slot w load h => codeStore_spec s n slot w load h, fun l h => codeLoadComplete_spec h, cldctlGo_spec s⟩
  · obtain ⟨t, e, hq, hcore⟩ := groupStart_cores hr hp hw hd
    refine ⟨t, e, hq, fun e he => ?_⟩
    obtain ⟨hc, hstart⟩ := hcore e he
    obtain ⟨r1, r2, r3, r4, r5⟩ := groomed_registers s r group e.1 e.2
    obtain ⟨v1, v2, v3, v4⟩ := groomed_supervisor s r group e.1 e.2
    dsimp only
    rw [hc]
    refine ⟨⟨_, rfl, rfl, rfl, rfl, rfl, rfl, rfl, rfl⟩, r1, r2, r3, r4, r5, rfl, rfl, rfl, v1, v2, v3, v4, fun hi => ?_, hstart⟩
    obtain ⟨w1, w2⟩ := groomed_words s r group e.1 e.2 hi
    exact ⟨w1, fun i h => (w2 i h).trans (congrArg (· % 2 ^ 64) (identWords_getD s r e.1 _ h))⟩
  · obtain ⟨t, tasks, e, h1, h2, h3, hm⟩ := contextSave_saves hr ha hl
    refine ⟨t, tasks, e, h1, h2, h3, fun n k hone hk _ => ?_⟩
    intro c i hi
    rw [State.memRd, hm, hone]
    exact saveOne_g hk area _ hi
  · obtain ⟨t, e, h1, h2, hcore⟩ := resumption_restores hr hs hl hd
    refine ⟨t, e, h1, h2, fun e he => ?_⟩
    obtain ⟨hc, hstart⟩ := hcore e he
    obtain ⟨c1, c2, c3, c4, c5, c6, c7⟩ := restored_registers s r area e.1 e.2
    dsimp only
    rw [hc]
    exact ⟨c1, c2, c3, c4, c5, c6, c7, hstart⟩

end Sys2Proof.Machine
end

section
/-! PROOFS. What a vector instruction leaves: fields of vectors, counted events, the bits that a result takes of its registers, and
the shape that the vector instructions share (04 R100 to R102, 05 R107 to R109, 10 R249 to R251). -/

namespace Sys2Proof.Machine

/-! ### Fields of packed vectors (10 R249) -/

theorem range_eq_upFrom (n : Nat) : List.range n = upFrom 0 n := by rw [upFrom_eq_range', List.range_eq_range']

theorem length_upFrom (i n : Nat) : (upFrom i n).length = n := by rw [upFrom_eq_range', List.length_range']

theorem getElem_upFrom {i n j : Nat} (h : j < (upFrom i n).length) : (upFrom i n)[j] = i + j := by
  simp only [upFrom_eq_range', List.getElem_range', Nat.one_mul]

/-- The lowest field of a number put on top of others. -/
theorem fld_cons_zero (a w r : Nat) : fld (a % 2 ^ w + 2 ^ w * r) (w * 0) w = a % 2 ^ w := by
  rw [fld, Nat.mul_zero, Nat.pow_zero, Nat.div_one, Nat.add_mul_mod_self_left, Nat.mod_mod]

theorem fld_cons_succ (a w r k : Nat) : fld (a % 2 ^ w + 2 ^ w * r) (w * (k + 1)) w = fld r (w * k) w := by
  have h := Nat.mod_lt a (Nat.two_pow_pos w)
  rw [fld, fld, Nat.mul_succ, Nat.add_comm (w * k), Nat.pow_add, ← Nat.div_div_eq_div_mul,
    Nat.add_mul_div_left _ _ (Nat.two_pow_pos w), Nat.div_eq_of_lt h, Nat.zero_add]

theorem fld_mkLanes {f : Nat → Nat} {w i n k : Nat} (h : k < n) : fld (mkLanes f w i n) (w * k) w = f (i + k) % 2 ^ w := by
  induction n generalizing i k with
  | zero => omega
  | succ n ih =>
    cases k with
    | zero => exact fld_cons_zero ..
    | succ k => rw [mkLanes, fld_cons_succ, ih (by omega), Nat.add_assoc, Nat.add_comm 1]

theorem fld_rep {v w n k : Nat} (h : k < n) : fld (rep v w n) (w * k) w = v % 2 ^ w := fld_mkLanes h

theorem fld_pack {w : Nat} {es : List Nat} {k : Nat} (h : k < es.length) : fld (pack w es) (w * k) w = es[k] % 2 ^ w := by
  induction es generalizing k with
  | nil => simp at h
  | cons e es ih =>
    cases k with
    | zero => exact fld_cons_zero ..
    | succ k =>
      have hk : k < es.length := Nat.lt_of_succ_lt_succ h
      rw [List.getElem_cons_succ, ← ih hk]
      exact fld_cons_succ ..

/-- The field of a lane among the bits of the active lanes. -/
theorem fld_laneBits {m w n k : Nat} (h : k < n) : fld (laneBits m w n) (w * k) w = if laneOn m w k then 2 ^ w - 1 else 0 := by
  rw [laneBits, fld_mkLanes h, Nat.zero_add]
  have := Nat.two_pow_pos w
  split
  · exact Nat.mod_eq_of_lt (by omega)
  · exact Nat.zero_mod _

theorem fieldsAt_concat (w : Nat) (es : List (Nat × Nat)) (e : Nat × Nat) : fieldsAt w (es ++ [e]) =
    (setFld (fieldsAt w es).1 (w * e.1) w (2 ^ w - 1), setFld (fieldsAt w es).2 (w * e.1) w e.2) := by
  simp only [fieldsAt, List.foldl_append, List.foldl_cons, List.foldl_nil]

theorem fld_fieldsAt_mask (w : Nat) (es : List (Nat × Nat)) (k : Nat) :
    fld (fieldsAt w es).1 (w * k) w = if k ∈ es.map Prod.fst then 2 ^ w - 1 else 0 := by
  induction es using List.reverseRecOn with
  | nil => simp [fieldsAt, fld]
  | append_singleton es e ih =>
    have := Nat.two_pow_pos w
    rw [fieldsAt_concat, fld_setFld, ih, Nat.mod_eq_of_lt (by omega)]
    simp only [List.map_append, List.mem_append, List.map_cons, List.map_nil, List.mem_singleton]
    by_cases h : k = e.1
    · rw [if_pos h, if_pos (Or.inr h)]
    · rw [if_neg h]
      exact if_congr (by simp only [h, or_false]) rfl rfl

/-- The field of a key that has a value, where every value is the one that `v` gives its key. -/
theorem fld_fieldsAt_value {w : Nat} {es : List (Nat × Nat)} {v : Nat → Nat} (hv : ∀ e ∈ es, e.2 = v e.1) {k : Nat}
    (hk : k ∈ es.map Prod.fst) : fld (fieldsAt w es).2 (w * k) w = v k % 2 ^ w := by
  induction es using List.reverseRecOn with
  | nil => simp at hk
  | append_singleton es e ih =>
    rw [fieldsAt_concat, fld_setFld]
    split
    · next h => rw [h, hv e (by simp)]
    · next h => exact ih (fun d hd => hv d (by simp [hd])) (by simpa [h] using hk)

theorem lane_fits {w i : Nat} (h : i < lanes w) : w * i + w ≤ 1024 :=
  calc w * i + w = w * (i + 1) := (Nat.mul_succ w i).symm
    _ ≤ w * (1024 / w) := Nat.mul_le_mul_left w h
    _ ≤ 1024 := Nat.mul_div_le 1024 w

/-- Elements no wider than the lanes lie within a vector. -/
theorem elem_fits {w d i : Nat} (hd : d ≤ w) (h : i < lanes w) : d * i + d ≤ 1024 :=
  calc d * i + d = d * (i + 1) := (Nat.mul_succ d i).symm
    _ ≤ w * (i + 1) := Nat.mul_le_mul_right _ hd
    _ ≤ 1024 := lane_fits h

/-! ### Counted events (04 R100 to R102) -/

theorem fld_quad {a b c d : Nat} (ha : a < 65536) (hb : b < 65536) (hc : c < 65536) (hd : d < 65536) {i : Nat} (hi : i < 4) :
    fld (BitVec.ofNat 64 (a + 2 ^ 16 * b + 2 ^ 32 * c + 2 ^ 48 * d)).toNat (16 * i) 16 = [a, b, c, d].getD i 0 := by
  rw [BitVec.toNat_ofNat, Nat.mod_eq_of_lt (by omega)]
  unfold fld
  interval_cases i <;> simp only [List.getD_cons_zero, List.getD_cons_succ] <;> omega

/-- An event of the kind that counter `c` counts. -/
def Ev.kind (c : Nat) (e : Ev) : Bool := [e.ovf, e.inf, e.nan, e.srs].getD c false

theorem Ev.kind_none (c : Nat) : Ev.none.kind c = false := by
  match c with
  | 0 | 1 | 2 | 3 => rfl
  | n + 4 => rfl

theorem counted_iff (old new : Word) (es : List Ev) : counted old new es ↔ ∀ c, c < 4 →
    fld new.toNat (16 * c) 16 = min 0xFFFF (fld old.toNat (16 * c) 16 + es.countP (Ev.kind c)) := by
  simp only [counted, List.countP_eq_length_filter]; rfl

theorem countP_cons_b01 (p : Ev → Bool) (e : Ev) (es : List Ev) : (e :: es).countP p = b01 (p e) + es.countP p := by
  rw [List.countP_cons, b01, Nat.add_comm]

theorem countEv_eq (es : List Ev) : countEv es = ⟨es.countP Ev.ovf, es.countP Ev.inf, es.countP Ev.nan, es.countP Ev.srs⟩ := by
  have h (c : Counts) : es.foldl Counts.plus c =
      ⟨c.ovf + es.countP Ev.ovf, c.inf + es.countP Ev.inf, c.nan + es.countP Ev.nan, c.srs + es.countP Ev.srs⟩ := by
    induction es generalizing c with
    | nil => rfl
    | cons e es ih => rw [List.foldl_cons, ih]; simp only [countP_cons_b01, Counts.plus, Nat.add_assoc]
  rw [countEv, h]
  simp only [noCounts, Nat.zero_add]

theorem counted_addCounts (w : Word) (es : List Ev) : counted w (addCounts w (countEv es)) es := by
  rw [counted_iff]
  intro c hc
  have hm (k : Nat) : min 0xFFFF k < 65536 := by omega
  rw [countEv_eq, addCounts, fld_quad (hm _) (hm _) (hm _) (hm _) hc]
  interval_cases c <;> rfl

theorem counted_nil (w : Word) : counted w w [] := by
  rw [counted_iff]
  intro c _
  have h := fld_lt w.toNat (16 * c) 16
  rw [List.countP_nil]
  omega

theorem counted_append {u v w : Word} {es fs : List Ev} (h : counted u v es) (k : counted v w fs) : counted u w (es ++ fs) := by
  rw [counted_iff] at *
  intro c hc
  rw [k c hc, h c hc, List.countP_append]
  omega

/-- Only how many events there are of each kind is counted. -/
theorem counted_congr {u v : Word} {es fs : List Ev} (h : ∀ c, es.countP (Ev.kind c) = fs.countP (Ev.kind c))
    (k : counted u v es) : counted u v fs := by
  rw [counted_iff] at *
  intro c hc
  rw [k c hc, h]

/-- Lanes that are not active count nothing. -/
theorem countP_active (on : Nat → Bool) (ev : Nat → Ev) (is : List Nat) (c : Nat) :
    (is.map (fun i => if on i then ev i else Ev.none)).countP (Ev.kind c) = ((is.filter on).map ev).countP (Ev.kind c) := by
  induction is with
  | nil => rfl
  | cons i is ih =>
    rw [List.map_cons, List.countP_cons, ih]
    by_cases h : on i = true
    · rw [List.filter_cons_of_pos h, List.map_cons, List.countP_cons, if_pos h]
    · rw [List.filter_cons_of_neg h, if_neg h, Ev.kind_none, if_neg Bool.false_ne_true, Nat.add_zero]

theorem fld_clearCounts (w : Word) (m : Nat) {i : Nat} (hi : i < 4) : fld (clearCounts w m).toNat (16 * i) 16 =
    if bitAt m i then 0 else fld w.toNat (16 * i) 16 := by
  have hf (i : Nat) : (if bitAt m i then 0 else fld w.toNat (16 * i) 16) < 65536 := by
    split
    · decide
    · exact fld_lt ..
  rw [clearCounts, fld_quad (hf 0) (hf 1) (hf 2) (hf 3) hi]
  interval_cases i <;> rfl

/-! ### What a register comes to hold (05 R107 to R109) -/

/-- Two cores agree on the file that a write to a register reads. -/
def Core.agrees (c d : Core) : Reg → Prop
  | .t _ => c.t = d.t
  | r => c.reg r = d.reg r

theorem Core.agrees_of_sameRegs {c d : Core} (h : sameRegs c d) (r : Reg) : c.agrees d r := by
  cases r with
  | t i => exact h.2.2.2.2.2.1
  | _ => exact sameRegs_reg h _

theorem Core.agrees.reg {c d : Core} {r : Reg} (h : c.agrees d r) : c.reg r = d.reg r := by
  cases r with
  | t i => rw [Core.reg, Core.reg, show c.t = d.t from h]
  | _ => exact h

/-- A write leaves the file of every register but its own, or the tiles. -/
theorem Core.agrees_setReg_ne (c : Core) {q r : Reg} (h : r ≠ q) (hq : ∀ i, q ≠ .t i) (m v : Nat) : (c.setReg q m v).agrees c r := by
  cases r with
  | t i =>
    obtain ⟨-, -, -, -, -, ht, -⟩ := Core.setReg_file c q m v
    exact ht hq
  | _ => exact Core.reg_setReg_ne c h hq m v

theorem Core.agrees_setReg {c d : Core} {r : Reg} (h : c.agrees d r) (m v : Nat) : (c.setReg r m v).agrees (d.setReg r m v) r := by
  cases r with
  | v i =>
    have h : (tget 0 i c.v).toNat = (tget 0 i d.v).toNat := h
    simp only [Core.agrees, Core.setReg, Core.reg, tget_tput_same, h]
  | px i =>
    by_cases hi : i = 0
    · simp only [Core.agrees, Core.reg, hi, if_true]
    · have h : (tget 0 i c.px).toNat = (tget 0 i d.px).toNat := by simpa only [Core.agrees, Core.reg, if_neg hi] using h
      simp only [Core.agrees, Core.setReg, if_neg hi, Core.reg, tget_tput_same, h]
  | pa i =>
    by_cases hi : i = 0
    · simp only [Core.agrees, Core.reg, hi, if_true]
    · simp only [Core.agrees, Core.setReg, if_neg hi, Core.reg, tget_tput_same]
  | t i =>
    have h : c.t = d.t := h
    simp only [Core.agrees, Core.setReg, Core.setTile, h]
  | g i => simp only [Core.agrees, Core.setReg, Core.reg, tget_tput_same]
  | s i => simp only [Core.agrees, Core.setReg, Core.reg, tget_tput_same]
  | key i => simp only [Core.agrees, Core.setReg, Core.reg, tget_tput_same]

theorem Core.agrees_fold {r : Reg} (ls : List Landing) (hl : ∀ l ∈ ls, l.dst = r) {c d : Core} (h : c.agrees d r) :
    (ls.foldl (fun c l => c.setReg l.dst l.mask l.val) c).agrees (ls.foldl (fun c l => c.setReg l.dst l.mask l.val) d) r := by
  induction ls generalizing c d with
  | nil => exact h
  | cons l ls ih =>
    refine ih (fun k hk => hl k (List.mem_cons_of_mem _ hk)) ?_
    obtain rfl : l.dst = r := hl l List.mem_cons_self
    exact Core.agrees_setReg h ..

/-- The landings for a register. -/
def Core.landingsAt (c : Core) (x : Bool) (r : Reg) : List Landing := (c.stream x).landings.filter (fun l => l.dst == r)

theorem Core.landed_eq (c : Core) (x : Bool) (r : Reg) :
    c.landed x r = (c.landingsAt x r).foldl (fun c l => c.setReg l.dst l.mask l.val) c := rfl

theorem Core.agrees_landed {c d : Core} {x : Bool} {r : Reg} (h : c.agrees d r) (hl : c.landingsAt x r = d.landingsAt x r) :
    (c.landed x r).agrees (d.landed x r) r := by
  rw [Core.landed_eq, Core.landed_eq, hl]
  exact Core.agrees_fold _ (fun l hm => by simpa using (List.mem_filter.1 hm).2) h

/-- The value that the pending results of a stream have for a register. -/
def Core.pendValue (c : Core) (x : Bool) (r : Reg) : Option (Option Nat × Nat) :=
  (c.pends.filter (fun p => p.x == x)).findSome? (fun p => p.value r)

/-- What a register comes to hold depends on its file, its landings and the pending results for it. -/
theorem Core.comes_of_agrees {c d : Core} {x : Bool} {r : Reg} (h : c.agrees d r) (hl : c.landingsAt x r = d.landingsAt x r)
    (hp : c.pendValue x r = d.pendValue x r) : c.comes x r = d.comes x r := by
  have hd := Core.agrees_landed h hl
  unfold Core.comes
  rw [show (c.pends.filter (fun p => p.x == x)).findSome? (fun p => p.value r) = d.pendValue x r from hp,
    show (d.pends.filter (fun p => p.x == x)).findSome? (fun p => p.value r) = d.pendValue x r from rfl, h.reg, hd.reg]
  split
  · rfl
  · split
    · rfl
    · exact (Core.agrees_setReg hd ..).reg
    · rfl

/-- Registers that take a result in the bits of a mask: v registers and predicates of the X-stream but p0 (10 R251). -/
def Reg.byBits : Reg → Prop
  | .v _ => True
  | .px i => i ≠ 0
  | _ => False

theorem Reg.byBits.ne_p0 {r : Reg} (h : r.byBits) : r ≠ .pa 0 ∧ r ≠ .px 0 := by
  cases r <;> simp_all [Reg.byBits]

/-- Registers that a vector instruction writes. -/
def Reg.isVec : Reg → Prop
  | .v _ | .px _ => True
  | _ => False

theorem Reg.isVec.ne_tile {r : Reg} (h : r.isVec) (i : Nat) : r ≠ .t i := by rintro rfl; exact h

theorem bitAt_mergeMask {m old new j : Nat} (h : j < 128) :
    bitAt (mergeMask 1 128 m old new) j = if bitAt m j then bitAt new j else bitAt old j := by
  have hf (n : Nat) : fld n (1 * j) 1 = n / 2 ^ j % 2 := by rw [fld, Nat.one_mul, Nat.pow_one]
  have e := fld_mkLanes (f := fun i => if bitAt m i then fld new (1 * i) 1 else fld old (1 * i) 1) (w := 1) (i := 0) h
  rw [hf, Nat.zero_add] at e
  unfold mergeMask
  rw [bitAt, e]
  split <;> simp only [hf, Nat.pow_one, Nat.mod_mod] <;> rfl

/-- A write takes the bits of its mask and no other (10 R251). -/
theorem Core.bitAt_setReg {r : Reg} (hr : r.byBits) (c : Core) (m v : Nat) {j : Nat} (hj : j < r.width) :
    bitAt ((c.setReg r m v).reg r) j = if bitAt m j then bitAt v j else bitAt (c.reg r) j := by
  have low {w n : Nat} (h : j < w) : bitAt (BitVec.ofNat w n).toNat j = bitAt n j := by
    rw [bitAt_toNat, BitVec.getLsbD_ofNat, decide_eq_true h, Bool.true_and, bitAt_eq]
  cases r with
  | v i =>
    simp only [Core.setReg, Core.reg, tget_tput_same]
    rw [low (show j < 1024 from hj), bitAt_mergeBits]
  | px i =>
    have hi : i ≠ 0 := hr
    have h : j < 128 := hj
    simp only [Core.setReg, if_neg hi, Core.reg, tget_tput_same]
    rw [low h, bitAt_mergeMask h]
  | _ => exact hr.elim

/-! ### Results in the bits of a mask (10 R251, R264) -/

/-- A register comes to hold the bits of a value that a mask selects, and elsewhere what it would have held. -/
def State.merges (s t : State) (r : Reg) (m v : Nat) : Prop :=
  ∀ j, j < r.width → bitAt (t.me.comes s.cur.x r) j = if bitAt m j then bitAt v j else bitAt (s.me.comes s.cur.x r) j

theorem State.merges.fld_on {s t : State} {r : Reg} {m v lo w : Nat} (h : s.merges t r m v) (hw : lo + w ≤ r.width)
    (hm : fld m lo w = 2 ^ w - 1) : fld (t.me.comes s.cur.x r) lo w = fld v lo w := by
  apply Nat.eq_of_testBit_eq
  intro i
  rw [testBit_fld, testBit_fld]
  by_cases hi : i < w
  · have hb := testBit_fld m lo w i
    rw [hm, Nat.testBit_two_pow_sub_one, decide_eq_true hi, Bool.true_and] at hb
    rw [← bitAt_eq, ← bitAt_eq, h _ (by omega), bitAt_eq m, ← hb, if_pos rfl]
  · rw [decide_eq_false hi, Bool.false_and, Bool.false_and]

theorem State.merges.fld_off {s t : State} {r : Reg} {m v lo w : Nat} (h : s.merges t r m v) (hw : lo + w ≤ r.width)
    (hm : fld m lo w = 0) : fld (t.me.comes s.cur.x r) lo w = fld (s.me.comes s.cur.x r) lo w := by
  apply Nat.eq_of_testBit_eq
  intro i
  rw [testBit_fld, testBit_fld]
  by_cases hi : i < w
  · have hb := testBit_fld m lo w i
    rw [hm, Nat.zero_testBit, decide_eq_true hi, Bool.true_and] at hb
    rw [← bitAt_eq, ← bitAt_eq, h _ (by omega), bitAt_eq m, ← hb, if_neg Bool.false_ne_true]
  · rw [decide_eq_false hi, Bool.false_and, Bool.false_and]

/-- Of a state only results have been made: at some registers in the bits of their masks, with the events of some elements. -/
structure State.Results (s t : State) (outs : List (Reg × Nat × Nat)) (es : List Ev) : Prop where
  flow : sameFlow s t
  only : s.onlyMe t
  others : s.me.sameBut t.me (outs.map Prod.fst)
  free : ∀ r, r ∉ outs.map Prod.fst → s.me.pendingReg s.cur.x r = false → t.me.pendingReg s.cur.x r = false
  bits : ∀ o ∈ outs, o.1.byBits → s.merges t o.1 o.2.1 o.2.2
  counts : s.counts t es

/-- Results at registers apart from those of earlier results. -/
theorem State.Results.trans {s t u : State} {outs outs' : List (Reg × Nat × Nat)} {es es' : List Ev} (h : s.Results t outs es)
    (k : t.Results u outs' es') (hd : ∀ r ∈ outs.map Prod.fst, r ∉ outs'.map Prod.fst) : s.Results u (outs ++ outs') (es ++ es') := by
  have hx : t.cur = s.cur := h.flow.1
  refine ⟨sameFlow_trans h.flow k.flow, State.onlyMe_trans h.only k.only, fun x r hr => ?_, fun r hr hp => ?_, fun o ho hb j hj => ?_,
    counted_append h.counts k.counts⟩
  · rw [List.map_append, List.mem_append, not_or] at hr
    rw [k.others x r hr.2, h.others x r hr.1]
  · rw [List.map_append, List.mem_append, not_or] at hr
    have := k.free r hr.2 (by rw [hx]; exact h.free r hr.1 hp)
    rwa [hx] at this
  · rcases List.mem_append.1 ho with ho | ho
    · rw [k.others _ _ (hd _ (List.mem_map_of_mem ho))]
      exact h.bits o ho hb j hj
    · have hn : o.1 ∉ outs.map Prod.fst := fun hm => hd _ hm (List.mem_map_of_mem ho)
      have e := k.bits o ho hb j hj
      rwa [hx, h.others _ _ hn] at e

theorem counts_nil_of_vflags {s t : State} (h : t.me.vflags = s.me.vflags) : s.counts t [] := by
  unfold State.counts
  rw [h]
  exact counted_nil _

/-- Under masks without a bit nothing is written. -/
theorem results_unmasked (s : State) {outs : List (Reg × Nat × Nat)} (h : ∀ o ∈ outs, o.2.1 = 0) : s.Results s outs [] := by
  refine ⟨sameFlow_refl s, s.onlyMe_refl, fun _ _ _ => rfl, fun _ _ hp => hp, fun o ho _ j _ => ?_, counts_nil_of_vflags rfl⟩
  rw [h o ho, bitAt_eq 0, Nat.zero_testBit, if_neg Bool.false_ne_true]

theorem filter_no_key {outs : List (Reg × Nat × Nat)} {r : Reg} (h : r ∉ outs.map Prod.fst) :
    outs.filter (fun p => p.1 == r) = [] :=
  List.filter_eq_nil_iff.2 fun _ hp e => h (eq_of_beq e ▸ List.mem_map_of_mem hp)

/-- Among results at different registers, the one for a register. -/
theorem filter_key {outs : List (Reg × Nat × Nat)} (hn : (outs.map Prod.fst).Nodup) {o : Reg × Nat × Nat} (ho : o ∈ outs) :
    outs.filter (fun p => p.1 == o.1) = [o] := by
  induction outs with
  | nil => simp at ho
  | cons p ps ih =>
    rw [List.map_cons, List.nodup_cons] at hn
    rcases List.mem_cons.1 ho with rfl | ho
    · rw [List.filter_cons_of_pos (by simp), filter_no_key hn.1]
    · have hp : p.1 ≠ o.1 := fun e => hn.1 (e ▸ List.mem_map_of_mem ho)
      rw [List.filter_cons_of_neg (by simpa using hp), ih hn.2 ho]

/-- A result with masks, as it waits to be written. -/
def State.maskedPend (s : State) (outs : List (Reg × Nat × Nat)) : Pending :=
  { id := s.nextId, x := s.cur.x, outs := outs.map (fun o => (o.1, some o.2.2)), masks := outs.map (fun o => (o.1, o.2.1)) }

theorem maskedPend_value (s : State) (outs : List (Reg × Nat × Nat)) (r : Reg) :
    (s.maskedPend outs).value r = (outs.filter (fun p => p.1 == r)).head?.map (fun o => (some o.2.1, o.2.2)) := by
  rw [List.head?_filter]
  simp only [Pending.value, State.maskedPend, List.find?_map, Function.comp_def]
  cases outs.find? (fun p => p.1 == r) <;> rfl

theorem me_pendMasks (s : State) (outs : List (Reg × Nat × Nat)) :
    (s.pendMasks outs).me = { s.me with pends := s.me.pends ++ [s.maskedPend outs] } := by
  unfold State.pendMasks
  dsimp only
  rw [State.me_setMe]; rfl

theorem onlyMe_pendMasks (s : State) (outs : List (Reg × Nat × Nat)) : s.onlyMe (s.pendMasks outs) :=
  State.onlyMe_trans (t := s.fresh.2) ⟨rfl, fun _ _ => rfl⟩ (State.onlyMe_setMe ..)

theorem sameFlow_pendMasks (s : State) (outs : List (Reg × Nat × Nat)) : sameFlow s (s.pendMasks outs) := by
  have hm := me_pendMasks s outs
  have hs : (s.pendMasks outs).st = s.st := by unfold State.st; rw [hm]; rfl
  exact ⟨rfl, by rw [hs], by rw [hs], by rw [hs], by unfold State.now; rw [hm], by rw [hm]⟩

/-- A register with a pending result in the bits of a mask. -/
theorem Core.comes_of_masked {c : Core} {x : Bool} {r : Reg} {m v : Nat} (h0 : r ≠ .pa 0 ∧ r ≠ .px 0)
    (hp : c.pendValue x r = some (some m, v)) : c.comes x r = ((c.landed x r).setReg r m v).reg r := by
  unfold Core.comes
  rw [if_neg (by simp [h0]), show (c.pends.filter (fun p => p.x == x)).findSome? (fun p => p.value r) = some (some m, v) from hp]

theorem results_pendMasks (s : State) {outs : List (Reg × Nat × Nat)} (hn : (outs.map Prod.fst).Nodup)
    (hf : ∀ r ∈ outs.map Prod.fst, s.me.pendingReg s.cur.x r = false) : s.Results (s.pendMasks outs) outs [] := by
  have hm := me_pendMasks s outs
  refine ⟨sameFlow_pendMasks s outs, onlyMe_pendMasks s outs, fun x r hr => ?_, fun r hr hp => ?_, fun o ho hb j hj => ?_,
    counts_nil_of_vflags (by rw [hm])⟩
  · rw [hm]
    exact Core.comes_pend_ne _ _ (by rw [maskedPend_value, filter_no_key hr]; rfl)
  · unfold Core.pendingReg at *
    rw [hm, List.any_append, hp, Bool.false_or, List.any_cons, List.any_nil, Bool.or_false, Bool.and_eq_false_iff, List.any_eq_false]
    refine Or.inr fun q hq => ?_
    obtain ⟨p, hp, rfl⟩ := List.mem_map.1 hq
    have hne : p.1 ≠ r := fun e => hr (e ▸ List.mem_map_of_mem hp)
    simpa using hne
  · have hp := hf _ (List.mem_map_of_mem ho)
    have hv : (s.pendMasks outs).me.pendValue s.cur.x o.1 = some (some o.2.1, o.2.2) := by
      unfold Core.pendValue
      rw [hm]
      dsimp only
      rw [List.filter_append, List.findSome?_append, Core.no_value hp, Option.none_or,
        List.filter_cons_of_pos (by simp [State.maskedPend]), List.filter_nil, List.findSome?_cons, maskedPend_value, filter_key hn ho]
      rfl
    have ha : ((s.pendMasks outs).me.landed s.cur.x o.1).agrees (s.me.landed s.cur.x o.1) o.1 := by
      rw [hm]
      exact Core.agrees_landed (Core.agrees_of_sameRegs ⟨rfl, rfl, rfl, rfl, rfl, rfl, rfl⟩ _) rfl
    rw [Core.comes_of_masked hb.ne_p0 hv, (Core.agrees_setReg ha ..).reg, Core.bitAt_setReg hb _ _ _ hj,
      Core.comes_of_not_pending hp hb.ne_p0]

/-- Results of a fixed latency that land together. -/
def landingsOf (k : Nat) (outs : List (Reg × Nat × Nat)) : List Landing :=
  outs.map (fun o => { dst := o.1, mask := o.2.1, val := o.2.2, lands := k })

theorem filter_landingsOf (k : Nat) (outs : List (Reg × Nat × Nat)) (r : Reg) :
    (landingsOf k outs).filter (fun l => l.dst == r) = landingsOf k (outs.filter (fun o => o.1 == r)) := by
  unfold landingsOf
  rw [List.filter_map]; rfl

/-- The state with more results to land. -/
def State.landMore (s : State) (ls : List Landing) : State := s.setSt { s.st with landings := s.st.landings ++ ls }

theorem me_landMore (s : State) (ls : List Landing) :
    (s.landMore ls).me = s.me.setStream s.cur.x { s.st with landings := s.st.landings ++ ls } := State.me_setSt ..

theorem landingsAt_landMore (s : State) (ls : List Landing) (x : Bool) (r : Reg) : (s.landMore ls).me.landingsAt x r =
    if s.cur.x = x then s.me.landingsAt x r ++ ls.filter (fun l => l.dst == r) else s.me.landingsAt x r := by
  unfold Core.landingsAt
  rw [me_landMore, Core.stream_setStream]
  split
  · next e => subst e; exact List.filter_append ..
  · rfl

theorem results_landMore (s : State) (k : Nat) {outs : List (Reg × Nat × Nat)} (hn : (outs.map Prod.fst).Nodup)
    (hf : ∀ r ∈ outs.map Prod.fst, s.me.pendingReg s.cur.x r = false) : s.Results (s.landMore (landingsOf k outs)) outs [] := by
  have hm := me_landMore s (landingsOf k outs)
  have hp (x : Bool) (r : Reg) : (s.landMore (landingsOf k outs)).me.pendingReg x r = s.me.pendingReg x r := by
    unfold Core.pendingReg; rw [hm, Core.pends_setStream]
  have ha (r : Reg) : (s.landMore (landingsOf k outs)).me.agrees s.me r := by
    rw [hm]; exact Core.agrees_of_sameRegs (sameRegs_setStream ..) r
  refine ⟨sameFlow_setSt rfl rfl rfl, State.onlyMe_setMe .., fun x r hr => ?_, fun r _ h => by rwa [hp], fun o ho hb j hj => ?_,
    counts_nil_of_vflags (by rw [hm, Core.setStream_vflags])⟩
  · refine Core.comes_of_agrees (ha r) ?_ (by unfold Core.pendValue; rw [hm, Core.pends_setStream])
    rw [landingsAt_landMore, filter_landingsOf, filter_no_key hr]
    split
    · exact List.append_nil _
    · rfl
  · have hq := hf _ (List.mem_map_of_mem ho)
    have hl : (s.landMore (landingsOf k outs)).me.landed s.cur.x o.1 = ((s.me.landingsAt s.cur.x o.1).foldl
        (fun c l => c.setReg l.dst l.mask l.val) (s.landMore (landingsOf k outs)).me).setReg o.1 o.2.1 o.2.2 := by
      rw [Core.landed_eq, landingsAt_landMore, if_pos rfl, filter_landingsOf, filter_key hn ho, List.foldl_append]
      rfl
    have hg := Core.agrees_fold (s.me.landingsAt s.cur.x o.1) (fun l hl => by simpa using (List.mem_filter.1 hl).2) (ha o.1)
    rw [Core.comes_of_not_pending ((hp ..).trans hq) hb.ne_p0, hl, (Core.agrees_setReg hg ..).reg, Core.bitAt_setReg hb _ _ _ hj,
      Core.comes_of_not_pending hq hb.ne_p0]
    rfl

theorem Core.onlyLands.cyc {c d : Core} (h : c.onlyLands d) : d.cyc = c.cyc := by conv_rhs => rw [← h.1]
theorem Core.onlyLands.vflags {c d : Core} (h : c.onlyLands d) : d.vflags = c.vflags := by conv_rhs => rw [← h.1]

/-- A register written at once changes no other. -/
theorem Core.sameBut_setReg (c : Core) {r : Reg} (hr : ∀ i, r ≠ .t i) (m v : Nat) : c.sameBut (c.setReg r m v) [r] := by
  obtain ⟨h1, h2⟩ := Core.setReg_rest c r m v
  intro x q hq
  refine Core.comes_of_agrees (Core.agrees_setReg_ne c (by simpa using hq) hr m v) ?_ (by unfold Core.pendValue; rw [h1])
  unfold Core.landingsAt; rw [h2]

theorem Core.onlyLands.level {c d : Core} (h : c.onlyLands d) : d.level = c.level := by conv_rhs => rw [← h.1]

theorem sameFlow_of_onlyLands {s : State} {c : Core} (h : s.me.onlyLands c) : sameFlow s (s.setMe c) := by
  refine sameFlow_setMe ?_ ?_ ?_ h.cyc h.level
  all_goals
    unfold State.st
    rw [← h.2 s.cur.x]

theorem results_setReg (s : State) {r : Reg} (hr : r.isVec) (m v : Nat) (hf : s.me.pendingReg s.cur.x r = false)
    (hl : s.me.landingsAt s.cur.x r = []) : s.Results (s.setMe (s.me.setReg r m v)) [(r, m, v)] [] := by
  obtain ⟨h1, h2⟩ := Core.setReg_rest s.me r m v
  have hp (x : Bool) (q : Reg) : (s.me.setReg r m v).pendingReg x q = s.me.pendingReg x q := by unfold Core.pendingReg; rw [h1]
  have hv : (s.me.setReg r m v).vflags = s.me.vflags := (Core.onlyLands_setReg s.me r m v).vflags
  refine ⟨sameFlow_of_onlyLands (Core.onlyLands_setReg ..), State.onlyMe_setMe .., ?_, fun q _ h => ?_, fun o ho hb j hj => ?_,
    counts_nil_of_vflags (by rw [State.me_setMe, hv])⟩
  · rw [State.me_setMe]; exact Core.sameBut_setReg _ hr.ne_tile m v
  · rwa [State.me_setMe, hp]
  · obtain rfl := List.mem_singleton.1 ho
    have hland (c : Core) (hc : c.landingsAt s.cur.x r = []) : c.landed s.cur.x r = c := by
      rw [Core.landed_eq, hc, List.foldl_nil]
    have hs : (s.me.setReg r m v).landingsAt s.cur.x r = [] := by unfold Core.landingsAt at *; rwa [h2]
    rw [State.me_setMe, Core.comes_of_not_pending ((hp ..).trans hf) hb.ne_p0, hland _ hs, Core.bitAt_setReg hb _ _ _ hj,
      Core.comes_of_not_pending hf hb.ne_p0, hland _ hl]

theorem results_writeFixed (s : State) {r : Reg} (hr : r.isVec) (m v lat : Nat) (hf : s.me.pendingReg s.cur.x r = false) :
    s.Results (s.writeFixed r m v lat) [(r, m, v)] [] := by
  by_cases hc : lat ≤ 1 ∧ s.st.landings.filter (fun l => l.dst == r) = []
  · rw [show s.writeFixed r m v lat = s.setMe (s.me.setReg r m v) from if_pos hc]
    exact results_setReg s hr m v hf hc.2
  · obtain ⟨k, e⟩ : ∃ k, s.writeFixed r m v lat = s.landMore (landingsOf k [(r, m, v)]) := ⟨_, if_neg hc⟩
    rw [e]
    exact results_landMore s k (List.nodup_singleton _) (by simpa using hf)

theorem results_pendV (s : State) (r : Reg) (m v : Nat) (hf : s.me.pendingReg s.cur.x r = false) :
    s.Results (s.pendV r m v) [(r, m, v)] [] := by
  unfold State.pendV
  split
  · exact results_unmasked s (by simpa)
  · exact results_pendMasks s (List.nodup_singleton _) (by simpa using hf)

theorem results_putV (s : State) {r : Reg} (hr : r.isVec) (m v lat : Nat) (hf : s.me.pendingReg s.cur.x r = false) :
    s.Results (s.putV r m v lat) [(r, m, v)] [] := by
  unfold State.putV
  split
  · exact results_pendV s r m v hf
  · split
    · exact results_unmasked s (by simpa)
    · exact results_writeFixed s hr m v lat hf

theorem results_putVs (s : State) {outs : List (Reg × Nat × Nat)} (lat : Nat) (hn : (outs.map Prod.fst).Nodup)
    (hf : ∀ r ∈ outs.map Prod.fst, s.me.pendingReg s.cur.x r = false) : s.Results (s.putVs outs lat) outs [] := by
  unfold State.putVs
  split
  · next h => exact results_unmasked s (by simpa using h)
  · split
    · exact results_pendMasks s hn hf
    · exact results_landMore s _ hn hf

theorem results_countV (s : State) (es : List Ev) : s.Results (s.countV es) [] es := by
  have hm : (s.countV es).me = { s.me with vflags := addCounts s.me.vflags (countEv es) } := State.me_setMe ..
  have hs (x : Bool) : (s.countV es).me.stream x = s.me.stream x := by rw [hm]; cases x <;> rfl
  refine ⟨sameFlow_setMe ?_ ?_ ?_ rfl rfl, State.onlyMe_setMe .., fun x r _ => ?_, fun r _ h => ?_,
    fun o ho => absurd ho List.not_mem_nil, ?_⟩
  · rw [← hm, hs]; rfl
  · rw [← hm, hs]; rfl
  · rw [← hm, hs]; rfl
  · exact Core.comes_congr (by rw [hm]; exact ⟨rfl, rfl, rfl, rfl, rfl, rfl, rfl⟩) (by rw [hm]) (by rw [hs])
  · unfold Core.pendingReg at *; rwa [hm]
  · unfold State.counts; rw [hm]; exact counted_addCounts _ es

/-- Events counted, and a result written. -/
theorem results_countV_putV (s : State) (es : List Ev) {r : Reg} (hr : r.isVec) (m v lat : Nat)
    (hf : s.me.pendingReg s.cur.x r = false) : s.Results ((s.countV es).putV r m v lat) [(r, m, v)] es := by
  have hc := results_countV s es
  have hp := hc.free r List.not_mem_nil hf
  rw [← hc.flow.1] at hp
  have h := hc.trans (results_putV _ hr m v lat hp) (fun _ h => absurd h List.not_mem_nil)
  rwa [List.append_nil] at h

/-! ### The shape of a vector instruction (10 R249 to R251) -/

/-- An instruction has completed with some results. -/
structure State.Completes (s t : State) (h : Hdr) (outs : List (Reg × Nat × Nat)) (es : List Ev) : Prop where
  went : s.wentOn t h
  only : s.onlyMe t
  others : s.me.sameBut t.me (outs.map Prod.fst)
  bits : ∀ o ∈ outs, o.1.byBits → s.merges t o.1 o.2.1 o.2.2
  counts : s.counts t es

/-- What leaving an instruction keeps of a core. -/
theorem retire_keeps {u t : State} {h : Hdr} (ht : retire h u = .next t) :
    (∀ x r, t.me.comes x r = u.me.comes x r) ∧ t.me.vflags = u.me.vflags ∧ ∀ r, t.me.reg r = u.me.reg r := by
  obtain ⟨t', e, -, -, m⟩ := retire_spec h u
  obtain rfl : t' = t := by rw [e] at ht; injection ht
  rw [m]
  refine ⟨fun x r => Core.comes_leave _ _ _ _ _ (by simp only [Stream.advance, Stream.left]; rfl), ?_, fun r => ?_⟩
  · cases u.cur.x <;> rfl
  · rw [Core.reg_issued, Core.reg_setStream]

theorem State.Results.retire {s u : State} {outs : List (Reg × Nat × Nat)} {es : List Ev} (hr : s.Results u outs es) (h : Hdr) :
    ∃ t, Machine.retire h u = .next t ∧ s.Completes t h outs es := by
  obtain ⟨t, e, w, o, -⟩ := retire_spec h u
  obtain ⟨hc, hv, -⟩ := retire_keeps e
  refine ⟨t, e, wentOn_of_sameFlow hr.flow w, State.onlyMe_trans hr.only o, fun x r hn => ?_, fun o ho hb j hj => ?_, ?_⟩
  · rw [hc, hr.others x r hn]
  · rw [hc, hr.bits o ho hb j hj]
  · have := hr.counts
    unfold State.counts at *
    rwa [hv]

theorem needsV_free {s : State} {h : Hdr} {f : VForm} {keeps : Bool} {reads writes : List Reg}
    (hn : s.serves (needsV h f keeps reads writes)) : ∀ r ∈ writes, s.me.pendingReg s.cur.x r = false :=
  fun _ hr => free_of_met hn.1 (List.mem_append_right _ hr)

/-- A vector instruction whose needs are met completes with the results that it retires with. -/
theorem vecOp_completes {i : Instr} {h : Hdr} {f : VForm} {keeps : Bool} {reads writes : List Reg} {s u : State}
    {k : Nat → State → Out} {outs : List (Reg × Nat × Nat)} {es : List Ev} {o : Out} (ho : o = vecOp i f keeps reads writes s k)
    (hh : i.hdr = h) (hi : s.issues i) (hn : s.serves (needsV h f keeps reads writes)) (hk : k (s.laneMask h) s = retire h u)
    (hr : s.Results u outs es) : ∃ t, o = .next t ∧ s.Completes t h outs es := by
  subst hh
  have hq := withNeeds_eq hn (fun s => k (s.laneMask i.hdr) s)
  unfold needsV at hq
  have e : vecOp i f keeps reads writes s k = retire i.hdr u := by
    unfold vecOp
    rw [issue_eq hi]
    dsimp only
    rw [hq, hk, keepGuard_retire]
  rw [ho, e]
  exact hr.retire i.hdr

/-- The fields of an instruction that issues are as step 1 of 05 R131 asks. -/
theorem wfFor_of_issues {s : State} {i : Instr} (h : s.issues i) : i.wfFor s.cur.x = true := by
  obtain ⟨h, -⟩ := h
  unfold State.refusal at h
  by_contra hw
  rw [Bool.not_eq_true] at hw
  simp [hw] at h

/-- Active lanes written under the mask of their bits. -/
theorem getsLanes_of_merges {s t : State} {i m w v : Nat} {val : Nat → Nat}
    (h : s.merges t (.v i) (laneBits m w (lanes w)) v)
    (hv : ∀ k, k < lanes w → laneOn m w k = true → fld v (w * k) w = val k % 2 ^ w) : s.getsLanes t (.v i) m w val := by
  intro k hk
  have hf := lane_fits hk
  split
  · next hon => rw [h.fld_on hf (by rw [fld_laneBits hk, if_pos hon]), hv k hk hon]
  · next hoff => exact h.fld_off hf (by rw [fld_laneBits hk, if_neg hoff])

/-- Lanes of a register that is written whole. -/
theorem getsLanes_of_whole {s t : State} {i w v x : Nat} (h : s.merges t (.v i) allLanes v)
    (hv : ∀ k, k < lanes w → fld v (w * k) w = x % 2 ^ w) (hw : ∀ k, k < lanes w → laneOn allOnes w k = true) :
    s.getsLanes t (.v i) allOnes w (fun _ => x) := by
  intro k hk
  have hf := lane_fits hk
  rw [if_pos (hw k hk), ← hv k hk]
  refine h.fld_on hf (Nat.eq_of_testBit_eq fun j => ?_)
  rw [testBit_fld, allLanes, Nat.testBit_two_pow_sub_one, Nat.testBit_two_pow_sub_one]
  by_cases hj : j < w
  · simp [hj, (by omega : w * k + j < 1024)]
  · simp [hj]

end Sys2Proof.Machine
end

section
/-! PROOFS. Vector conversions, dot products, special functions, counters and the key context (04 R92, R97, 10 R262 to R276). -/

namespace Sys2Proof.Machine

/-! ### Special functions (04 R97, 10 R274) -/

theorem special_nan {fn : Nat} (h : fn < 5) : special fn .nan = (0x7FC00000, Ev.none) := by interval_cases fn <;> rfl

/-- A logarithm and the two roots of a negative number. -/
theorem special_negative {fn m : Nat} {e : Int} (h : fn = 1 ∨ fn = 3 ∨ fn = 4) (hm : m ≠ 0) :
    special fn (.fin true m e) = (0x7FC00000, Ev.isNan) := by
  rcases h with rfl | rfl | rfl <;> exact if_neg hm

/-- A special function of element `k` of SA. -/
def State.specialLane (s : State) (f : VForm) (fn k : Nat) : Nat × Ev := special fn (decodeF 0 (elem (s.vecA f 32) 32 k))

/-- A special function in every active lane. -/
def State.specialLanes (s : State) (f : VForm) (fn m : Nat) : List (Nat × Ev) :=
  (upFrom 0 (lanes 32)).map (fun k => if laneOn m 32 k then s.specialLane f fn k else (0, Ev.none))

theorem specialLanes_value {s : State} {f : VForm} {fn m k : Nat} (hk : k < lanes 32) (hon : laneOn m 32 k = true) :
    fld (pack 32 ((s.specialLanes f fn m).map Prod.fst)) (32 * k) 32 = (s.specialLane f fn k).1 % 2 ^ 32 := by
  have hl : k < ((s.specialLanes f fn m).map Prod.fst).length := by
    simpa only [State.specialLanes, List.length_map, length_upFrom] using hk
  rw [fld_pack hl]
  simp only [State.specialLanes, List.getElem_map, getElem_upFrom, Nat.zero_add, if_pos hon]

theorem specialLanes_events (s : State) (f : VForm) (fn m c : Nat) : ((s.specialLanes f fn m).map Prod.snd).countP (Ev.kind c) =
    (((List.range (lanes 32)).filter (laneOn m 32)).map (fun k => (s.specialLane f fn k).2)).countP (Ev.kind c) := by
  rw [State.specialLanes, List.map_map, range_eq_upFrom, ← countP_active]
  congr 2
  funext k
  rw [Function.comp_apply]
  split <;> rfl

theorem specialOp_completes {i : Instr} {h : Hdr} {f : VForm} {s : State} (fn : Nat) (hh : i.hdr = h) (hi : s.issues i)
    (hn : s.serves (needsV h f true [] [f.vd])) : ∃ t, specialOp i h f fn s = .next t ∧ s.wentOn t h ∧ s.onlyMe t ∧
      s.me.sameBut t.me [f.vd] ∧ s.getsLanes t f.vd (s.laneMask h) 32 (fun k => (s.specialLane f fn k).1) ∧
      s.counts t (((List.range (lanes 32)).filter (laneOn (s.laneMask h) 32)).map (fun k => (s.specialLane f fn k).2)) := by
  have hc := results_countV s ((s.specialLanes f fn (s.laneMask h)).map Prod.snd)
  have hp := hc.free f.vd List.not_mem_nil (needsV_free hn f.vd (List.mem_singleton_self _))
  rw [← hc.flow.1] at hp
  have hr := hc.trans (results_pendV _ f.vd (laneBits (s.laneMask h) 32 (lanes 32))
    (pack 32 ((s.specialLanes f fn (s.laneMask h)).map Prod.fst)) hp) (fun _ h => absurd h List.not_mem_nil)
  rw [List.append_nil] at hr
  obtain ⟨t, e, c⟩ := vecOp_completes (o := specialOp i h f fn s) rfl hh hi hn rfl hr
  exact ⟨t, e, c.went, c.only, c.others, getsLanes_of_merges (c.bits _ (List.mem_singleton_self _) trivial) fun k => specialLanes_value,
    counted_congr (specialLanes_events s f fn _) c.counts⟩

/-! ### Counters (10 R275, R276) -/

/-- A counter set that has counted nothing is as it was. -/
theorem counted_nil_iff {u v : Word} : counted u v [] ↔ v = u := by
  refine ⟨fun h => ?_, fun h => h ▸ counted_nil _⟩
  rw [counted_iff] at h
  have h0 := h 0 (by decide)
  have h1 := h 1 (by decide)
  have h2 := h 2 (by decide)
  have h3 := h 3 (by decide)
  have hu := u.isLt
  have hv := v.isLt
  simp only [fld, List.countP_nil] at h0 h1 h2 h3
  apply BitVec.eq_of_toNat_eq
  omega

theorem vstat_spec {s : State} {h : Hdr} {f : VForm} (hi : s.issues (.vstat h f)) (hn : s.serves (needsV h f true [] [f.vd])) :
    ∃ t, exec (.vstat h f) s = .next t ∧ s.wentOn t h ∧ s.onlyMe t ∧ s.me.sameBut t.me [f.vd] ∧ t.me.vflags = s.me.vflags ∧
      s.getsLanes t f.vd (s.laneMask h) 64 (fun _ => s.me.vflags.toNat) := by
  obtain ⟨t, e, c⟩ := vecOp_completes (h := h) (o := execVstat h f s) rfl rfl hi hn rfl
    (results_pendV s f.vd (laneBits (s.laneMask h) 64 (lanes 64)) (rep s.me.vflags.toNat 64 (lanes 64))
      (needsV_free hn _ (List.mem_singleton_self _)))
  exact ⟨t, e, c.went, c.only, c.others, counted_nil_iff.1 c.counts,
    getsLanes_of_merges (c.bits _ (List.mem_singleton_self _) trivial) fun k hk _ => fld_rep hk⟩

theorem bitAt_ite_allOnes (b : Bool) {j : Nat} (h : j < 128) : bitAt (if b then allOnes else 0) j = b := by
  cases b
  · rw [if_neg Bool.false_ne_true, bitAt_eq, Nat.zero_testBit]
  · rw [if_pos rfl, bitAt_eq, allOnes, Nat.testBit_two_pow_sub_one, decide_eq_true h]

theorem vstatPredicate_spec {s : State} {h : Hdr} {f : VForm} (hi : s.issues (.vstatPredicate h f))
    (hn : s.serves (needsV h f true [] [f.pd])) : ∃ t, exec (.vstatPredicate h f) s = .next t ∧ s.wentOn t h ∧ s.onlyMe t ∧
      s.me.sameBut t.me [f.pd] ∧ t.me.vflags = s.me.vflags ∧ (f.didx ≠ 0 → s.getsBits t f.pd (s.laneMask h) 8 (fun _ =>
        (List.range 4).any (fun i => bitAt f.mask i && fld s.me.vflags.toNat (16 * i) 16 != 0))) := by
  obtain ⟨t, e, c⟩ := vecOp_completes (h := h) (o := execVstatPredicate h f s) rfl rfl hi hn rfl
    (results_pendV s f.pd (s.laneMask h) (if (upFrom 0 4).any (fun i => bitAt f.mask i && fld s.me.vflags.toNat (16 * i) 16 != 0)
      then allOnes else 0) (needsV_free hn _ (List.mem_singleton_self _)))
  refine ⟨t, e, c.went, c.only, c.others, counted_nil_iff.1 c.counts, fun hd j hj => ?_⟩
  have hb : f.pd.byBits := fun e => hd (BitVec.eq_of_toNat_eq e)
  have hm := c.bits _ (List.mem_singleton_self _) hb j hj
  rw [hm, bitAt_ite_allOnes _ hj]
  simp only [laneOn, Nat.div_self (Nat.zero_lt_succ 0), Nat.div_one, Nat.mul_div_cancel_left j (Nat.zero_lt_succ 7)]
  rfl

/-- A core with the counters of a mask cleared. -/
def Core.clearFlags (c : Core) (m : Nat) : Core := { c with vflags := clearCounts c.vflags m }

theorem vclrf_spec {s : State} {h : Hdr} {f : VForm} (hi : s.issues (.vclrf h f)) :
    ∃ t, exec (.vclrf h f) s = .next t ∧ s.wentOn t h ∧ s.onlyMe t ∧ s.me.sameBut t.me [] ∧
      ∀ i, i < 4 → fld t.me.vflags.toNat (16 * i) 16 = if bitAt f.mask i then 0 else fld s.me.vflags.toNat (16 * i) 16 := by
  have hs (x : Bool) : (s.me.clearFlags f.mask).stream x = s.me.stream x := by cases x <;> rfl
  obtain ⟨t, e, w, o, -⟩ := retire_spec h (s.setMe (s.me.clearFlags f.mask))
  obtain ⟨hc, hv, -⟩ := retire_keeps e
  have hf : sameFlow s (s.setMe (s.me.clearFlags f.mask)) := sameFlow_setMe (by rw [hs]; rfl) (by rw [hs]; rfl) (by rw [hs]; rfl) rfl rfl
  refine ⟨t, ?_, wentOn_of_sameFlow hf w, State.onlyMe_trans (State.onlyMe_setMe ..) o, fun x r _ => ?_, fun i hi => ?_⟩
  · show execVclrf h f s = _
    rw [execVclrf, issue_eq hi, keepGuard_retire]
    exact e
  · rw [hc, State.me_setMe]
    exact Core.comes_congr ⟨rfl, rfl, rfl, rfl, rfl, rfl, rfl⟩ rfl (by rw [hs])
  · rw [hv, State.me_setMe]
    exact fld_clearCounts _ _ hi

/-! ### The key context (10 R272) -/

/-- A core with the key context of two values. -/
def Core.keyed (c : Core) (a b : Nat) : Core :=
  ((c.setReg (.key 0x10) 1 (a / 2 ^ 32)).setReg (.key 0x11) 1 a).setReg (.key 0x12) 1 b

theorem Core.reg_setReg_key (c : Core) (n m v : Nat) : (c.setReg (.key n) m v).reg (.key n) = v % 2 ^ 32 := by
  rw [Core.setReg, Core.reg, tget_tput_same, BitVec.toNat_ofNat]
  omega

theorem Core.keyed_reg (c : Core) (a b : Nat) : (c.keyed a b).reg (.key 0x10) = a / 2 ^ 32 % 2 ^ 32 ∧
    (c.keyed a b).reg (.key 0x11) = a % 2 ^ 32 ∧ (c.keyed a b).reg (.key 0x12) = b % 2 ^ 32 := by
  unfold Core.keyed
  refine ⟨?_, ?_, Core.reg_setReg_key ..⟩
  · rw [Core.reg_setReg_ne _ (by decide) (by simp), Core.reg_setReg_ne _ (by decide) (by simp), Core.reg_setReg_key]
  · rw [Core.reg_setReg_ne _ (by decide) (by simp), Core.reg_setReg_key]

theorem Core.sameBut_keyed (c : Core) (a b : Nat) : c.sameBut (c.keyed a b) [.key 0x10, .key 0x11, .key 0x12] := by
  intro x r hr
  simp only [List.mem_cons, List.not_mem_nil, or_false, not_or] at hr
  obtain ⟨h1, h2, h3⟩ := hr
  unfold Core.keyed
  rw [Core.sameBut_setReg _ (by simp) _ _ x r (by simpa), Core.sameBut_setReg _ (by simp) _ _ x r (by simpa),
    Core.sameBut_setReg _ (by simp) _ _ x r (by simpa)]

theorem Core.onlyLands_keyed (c : Core) (a b : Nat) : c.onlyLands (c.keyed a b) :=
  Core.onlyLands_trans (Core.onlyLands_setReg ..) (Core.onlyLands_trans (Core.onlyLands_setReg ..) (Core.onlyLands_setReg ..))

/-- KSET with the needs and the values that its source gives. -/
theorem kset_spec {s : State} {h : Hdr} {f : VForm} {n : Needs} {a b : Nat} {k : State → Out}
    (he : exec (.kset h f) s = issue (.kset h f) s k)
    (hk : k s = withNeeds n s fun s => retire h (s.setMe (s.me.keyed a b)))
    (hi : s.issues (.kset h f)) (hn : s.serves n) (ha : a < 2 ^ 64) :
    ∃ t, exec (.kset h f) s = .next t ∧ s.wentOn t h ∧ s.onlyMe t ∧ t.me.reg (.key 0x10) = a / 2 ^ 32 ∧
      t.me.reg (.key 0x11) = a % 2 ^ 32 ∧ t.me.reg (.key 0x12) = b % 2 ^ 32 ∧
      s.me.sameBut t.me [.key 0x10, .key 0x11, .key 0x12] := by
  obtain ⟨t, e, w, o, -⟩ := retire_spec h (s.setMe (s.me.keyed a b))
  obtain ⟨hc, -, hr⟩ := retire_keeps e
  obtain ⟨k0, k1, k2⟩ := Core.keyed_reg s.me a b
  have hlow : a / 2 ^ 32 % 2 ^ 32 = a / 2 ^ 32 := by omega
  have hf := sameFlow_of_onlyLands (Core.onlyLands_keyed s.me a b)
  refine ⟨t, ?_, wentOn_of_sameFlow hf w, State.onlyMe_trans (State.onlyMe_setMe ..) o, ?_, ?_, ?_, fun x r hx => ?_⟩
  · rw [he, issue_eq hi, hk, withNeeds_eq hn, keepGuard_retire, e]
  · rw [hr, State.me_setMe, k0, hlow]
  · rw [hr, State.me_setMe, k1]
  · rw [hr, State.me_setMe, k2]
  · rw [hc, State.me_setMe]
    exact Core.sameBut_keyed _ a b x r hx

/-! ### Converted elements (10 R262) -/

theorem lanes_le_1024 (w : Nat) : lanes w ≤ 1024 := Nat.div_le_self ..

/-- Field `i` of `w` bits of what a register of the stream of `s` comes to hold in `t`. -/
def State.comingElem (s t : State) (r : Reg) (w i : Nat) : Nat := fld (t.me.comes s.cur.x r) (w * i) w

/-- Elements put at their places: those that have a value hold it, the others stay. -/
theorem State.merges.elems {s t : State} {n w : Nat} {es : List (Nat × Nat)}
    (h : s.merges t (.v n) (fieldsAt w es).1 (fieldsAt w es).2) {v : Nat → Nat} (hv : ∀ e ∈ es, e.2 = v e.1) {k : Nat}
    (hk : w * k + w ≤ 1024) :
    s.comingElem t (.v n) w k = if k ∈ es.map Prod.fst then v k % 2 ^ w else s.comingElem s (.v n) w k := by
  have hm := fld_fieldsAt_mask w es k
  split
  · next hin =>
    rw [if_pos hin] at hm
    exact (h.fld_on hk hm).trans (fld_fieldsAt_value hv hin)
  · next hout =>
    rw [if_neg hout] at hm
    exact h.fld_off hk hm

/-- The same where the places are a list of their own. -/
theorem State.merges.places {s t : State} {n w : Nat} {is : List Nat} {v : Nat → Nat}
    (h : s.merges t (.v n) (fieldsAt w (is.map (fun i => (i, v i)))).1 (fieldsAt w (is.map (fun i => (i, v i)))).2) {k : Nat}
    (hk : w * k + w ≤ 1024) :
    s.comingElem t (.v n) w k = if k ∈ is then v k % 2 ^ w else s.comingElem s (.v n) w k := by
  have e : (is.map (fun i => (i, v i))).map Prod.fst = is := by rw [List.map_map]; exact List.map_id _
  rw [h.elems (v := v) (by simp) hk, e]

theorem results_putElems (s : State) (f : VForm) (w : Nat) (is : List Nat) (r : Nat → Nat × Ev) (lat : Nat)
    (hf : s.me.pendingReg s.cur.x f.vd = false) : s.Results (s.putElems f w (is.map (fun i => (i, r i))) lat)
      [(f.vd, fieldsAt w (is.map (fun i => (i, (r i).1))))] (is.map (fun i => (r i).2)) := by
  unfold State.putElems elemsAt
  simp only [List.map_map]
  exact results_countV_putV s _ (r := f.vd) trivial _ _ lat hf

/-- The active lanes of `w` bits. -/
def activeLanes (m w : Nat) : List Nat := (List.range (lanes w)).filter (laneOn m w)

theorem mem_activeLanes {m w i : Nat} (h : i < lanes w) : i ∈ activeLanes m w ↔ laneOn m w i = true := by
  rw [activeLanes, List.mem_filter, List.mem_range]; exact and_iff_right h

/-- Element `i` of a conversion to a format other than an MX one (10 R263). -/
def State.cvtLane (s : State) (f : VForm) (i : Nat) : Nat × Ev :=
  cvtTo f.fm (toS (s.scalarB f).toNat 16) f.sp (s.laneRm f i) (s.cvtElem f (toS (s.scalarB f).toNat 16) i)

theorem exec_vcvt (s : State) (h : Hdr) (f : VForm) : exec (.vcvt h f) s = vecOp (.vcvt h f) f true
    (if isMxFmt f.sm then [nextV f.va] else []) (f.vd :: if isMxFmt f.fm then [nextV f.vd] else []) s (fun m s =>
      if isMxFmt f.fm then retire h (s.cvtMx f m)
      else retire h (s.putElems f (fmtWidth f.fm)
        ((activeLanes m (max (fmtWidth f.sm) (fmtWidth f.fm))).map (fun i => (i, s.cvtLane f i))) 4)) := by
  simp only [activeLanes, range_eq_upFrom]
  rfl

/-- VCVT to a format other than an MX one (10 R262, R263). -/
theorem vcvt_plain {s : State} {h : Hdr} {f : VForm} (hmx : isMxFmt f.fm = false) (hi : s.issues (.vcvt h f))
    (hn : s.serves (needsV h f true (if isMxFmt f.sm then [nextV f.va] else [])
      (f.vd :: if isMxFmt f.fm then [nextV f.vd] else []))) :
    ∃ t, exec (.vcvt h f) s = .next t ∧ s.wentOn t h ∧ s.onlyMe t ∧ s.me.sameBut t.me [f.vd] ∧
      s.counts t ((activeLanes (s.laneMask h) (max (fmtWidth f.sm) (fmtWidth f.fm))).map (fun i => (s.cvtLane f i).2)) ∧
      ∀ i, i < lanes (max (fmtWidth f.sm) (fmtWidth f.fm)) → s.comingElem t f.vd (fmtWidth f.fm) i =
        if laneOn (s.laneMask h) (max (fmtWidth f.sm) (fmtWidth f.fm)) i then (s.cvtLane f i).1 % 2 ^ fmtWidth f.fm
        else s.comingElem s f.vd (fmtWidth f.fm) i := by
  have hr := results_putElems s f (fmtWidth f.fm) (activeLanes (s.laneMask h) (max (fmtWidth f.sm) (fmtWidth f.fm))) (s.cvtLane f) 4
    (needsV_free hn f.vd List.mem_cons_self)
  obtain ⟨t, e, c⟩ := vecOp_completes (exec_vcvt s h f) rfl hi hn (if_neg (by rw [hmx]; exact Bool.false_ne_true)) hr
  refine ⟨t, e, c.went, c.only, c.others, c.counts, fun i hi => ?_⟩
  exact (State.merges.places (c.bits _ (List.mem_singleton_self _) trivial) (elem_fits (Nat.le_max_right ..) hi)).trans
    (if_congr (mem_activeLanes hi) rfl rfl)

/-! ### Blocks of an MX format (10 R264) -/

theorem mxBlock_length (ef : Nat) (prop : Bool) (rm : Nat → Rm) (xs : List Ex) : (mxBlock ef prop rm xs).2.length = xs.length := by
  unfold mxBlock
  split <;> simp

/-- Block `j` of a conversion to an MX format. -/
def State.cvtBlock (s : State) (f : VForm) (m j : Nat) : Nat × List (Nat × Ev) :=
  mxBlock (elemFmt f.fm) f.sp (fun i => s.laneRm f (32 * j + i))
    ((upFrom (32 * j) 32).map (fun i => if laneOn m (fmtWidth f.sm) i then s.cvtElem f 0 i else Ex.zero))

theorem cvtBlock_length (s : State) (f : VForm) (m j : Nat) : (s.cvtBlock f m j).2.length = 32 := by
  rw [State.cvtBlock, mxBlock_length, List.length_map, length_upFrom]

/-- A block of 32 lanes of `w` bits has an active one. -/
def blockOn (m w j : Nat) : Bool := (List.range 32).any (fun i => laneOn m w (32 * j + i))

/-- The blocks of lanes of `w` bits that have an active lane. -/
def activeBlocks (m w : Nat) : List Nat := (List.range (lanes w / 32)).filter (blockOn m w)

theorem mem_activeBlocks {m w j : Nat} (h : j < lanes w / 32) : j ∈ activeBlocks m w ↔ blockOn m w j = true := by
  rw [activeBlocks, List.mem_filter, List.mem_range]; exact and_iff_right h

theorem any_upFrom_block (m w j : Nat) : (upFrom (32 * j) 32).any (laneOn m w) = blockOn m w j := by
  rw [blockOn, range_eq_upFrom, ← Nat.add_zero (32 * j), ← map_add_upFrom, List.any_map]; rfl

/-- The elements of the active blocks, each with its place. -/
def State.blockElems (s : State) (f : VForm) (m : Nat) : List (Nat × Nat × Ev) :=
  (activeBlocks m (fmtWidth f.sm)).flatMap (fun j => (s.cvtBlock f m j).2.zipIdx.map (fun p => (32 * j + p.2, p.1)))

/-- The scales of the active blocks, each with its place. -/
def State.blockScales (s : State) (f : VForm) (m : Nat) : List (Nat × Nat) :=
  (activeBlocks m (fmtWidth f.sm)).map (fun j => (j, (s.cvtBlock f m j).1))

theorem cvtMx_eq (s : State) (f : VForm) (m : Nat) : s.cvtMx f m = (s.countV ((s.blockElems f m).map (fun e => e.2.2))).putVs
    [(f.vd, elemsAt (fmtWidth f.fm) (s.blockElems f m)), (nextV f.vd, fieldsAt 8 (s.blockScales f m))] 4 := by
  unfold State.cvtMx State.blockElems State.blockScales activeBlocks
  simp only [any_upFrom_block, range_eq_upFrom, List.flatMap_map, List.map_map]
  rfl

theorem blockElems_events (s : State) (f : VForm) (m : Nat) : (s.blockElems f m).map (fun e => e.2.2) =
    (activeBlocks m (fmtWidth f.sm)).flatMap (fun j => (s.cvtBlock f m j).2.map Prod.snd) := by
  unfold State.blockElems
  rw [List.map_flatMap]
  congr 1
  funext j
  conv_rhs => rw [← List.zipIdx_map_fst 0 (s.cvtBlock f m j).2]
  simp only [List.map_map, Function.comp_def]

theorem mem_blockElems {s : State} {f : VForm} {m : Nat} {e : Nat × Nat × Ev} : e ∈ s.blockElems f m ↔
    e.1 / 32 ∈ activeBlocks m (fmtWidth f.sm) ∧ (s.cvtBlock f m (e.1 / 32)).2[e.1 % 32]? = some e.2 := by
  simp only [State.blockElems, List.mem_flatMap, List.mem_map, List.mem_zipIdx_iff_getElem?]
  constructor
  · rintro ⟨j, hj, ⟨x, i⟩, hx, rfl⟩
    have hi : i < 32 := cvtBlock_length s f m j ▸ (List.getElem?_eq_some_iff.1 hx).1
    dsimp only
    rw [show (32 * j + i) / 32 = j by omega, show (32 * j + i) % 32 = i by omega]
    exact ⟨hj, hx⟩
  · rintro ⟨hj, hx⟩
    exact ⟨e.1 / 32, hj, (e.2, e.1 % 32), hx, Prod.ext (Nat.div_add_mod ..) rfl⟩

/-- The value that a conversion to an MX format gives element `k`. -/
def State.blockElem (s : State) (f : VForm) (m k : Nat) : Nat := ((s.cvtBlock f m (k / 32)).2.getD (k % 32) (0, Ev.none)).1

theorem blockElems_value {s : State} {f : VForm} {m : Nat} :
    ∀ e ∈ (s.blockElems f m).map (fun e => (e.1, e.2.1)), e.2 = s.blockElem f m e.1 := by
  intro e he
  obtain ⟨d, hd, rfl⟩ := List.mem_map.1 he
  obtain ⟨-, hx⟩ := mem_blockElems.1 hd
  rw [State.blockElem, List.getD_eq_getElem?_getD, hx]; rfl

theorem mem_blockElems_places {s : State} {f : VForm} {m k : Nat} :
    k ∈ ((s.blockElems f m).map (fun e => (e.1, e.2.1))).map Prod.fst ↔ k / 32 ∈ activeBlocks m (fmtWidth f.sm) := by
  simp only [List.map_map, List.mem_map, Function.comp_def]
  constructor
  · rintro ⟨e, he, rfl⟩
    exact (mem_blockElems.1 he).1
  · intro hj
    have hk : k % 32 < (s.cvtBlock f m (k / 32)).2.length := by rw [cvtBlock_length]; omega
    exact ⟨(k, (s.cvtBlock f m (k / 32)).2[k % 32]), mem_blockElems.2 ⟨hj, List.getElem?_eq_getElem hk⟩, rfl⟩

/-- VCVT takes to an MX format only elements at least as wide as that format's (10 R263). -/
theorem cvtPair_mx_width {sf df : Nat} (h : (VForm.cvtPair sf df).1 = true) (hd : isMxFmt df = true) :
    fmtWidth df ≤ fmtWidth sf := by
  obtain ⟨h8, h12⟩ : 8 ≤ df ∧ df ≤ 12 := by simpa [isMxFmt] using hd
  have h2 : sf ≤ 2 := by
    by_contra hs
    interval_cases df <;> simp [VForm.cvtPair, hs, VForm.isFloat, isMxFmt, isWideFloat, isIntFmt] at h
  interval_cases df <;> interval_cases sf <;> decide

theorem vcvt_mx_width {s : State} {h : Hdr} {f : VForm} (hi : s.issues (.vcvt h f)) (hmx : isMxFmt f.fm = true) :
    fmtWidth f.fm ≤ fmtWidth f.sm := by
  have hw : f.cvtOk = true := wfFor_of_issues hi
  refine cvtPair_mx_width ?_ hmx
  unfold VForm.cvtOk at hw
  simp only [Bool.and_eq_true] at hw
  exact hw.1.1.1.1.1

/-- VCVT to an MX format (10 R264): each block with an active element is written whole, with its scale. -/
theorem vcvt_mx {s : State} {h : Hdr} {f : VForm} (hmx : isMxFmt f.fm = true) (hi : s.issues (.vcvt h f))
    (hn : s.serves (needsV h f true (if isMxFmt f.sm then [nextV f.va] else [])
      (f.vd :: if isMxFmt f.fm then [nextV f.vd] else []))) :
    ∃ t, exec (.vcvt h f) s = .next t ∧ s.wentOn t h ∧ s.onlyMe t ∧ s.me.sameBut t.me [f.vd, nextV f.vd] ∧
      s.counts t ((activeBlocks (s.laneMask h) (fmtWidth f.sm)).flatMap (fun j => (s.cvtBlock f (s.laneMask h) j).2.map Prod.snd)) ∧
      ∀ j, j < lanes (fmtWidth f.sm) / 32 →
        (s.comingElem t (nextV f.vd) 8 j = if blockOn (s.laneMask h) (fmtWidth f.sm) j
          then (s.cvtBlock f (s.laneMask h) j).1 % 2 ^ 8 else s.comingElem s (nextV f.vd) 8 j) ∧
        ∀ i, i < 32 → s.comingElem t f.vd (fmtWidth f.fm) (32 * j + i) = if blockOn (s.laneMask h) (fmtWidth f.sm) j
          then ((s.cvtBlock f (s.laneMask h) j).2.getD i (0, Ev.none)).1 % 2 ^ fmtWidth f.fm
          else s.comingElem s f.vd (fmtWidth f.fm) (32 * j + i) := by
  have hw := vcvt_mx_width hi hmx
  have hfree : ∀ r ∈ [f.vd, nextV f.vd], s.me.pendingReg s.cur.x r = false := fun r hr =>
    needsV_free hn r (by rw [if_pos hmx]; exact hr)
  have hc := results_countV s ((s.blockElems f (s.laneMask h)).map (fun e => e.2.2))
  have hr := hc.trans (results_putVs (outs := [(f.vd, elemsAt (fmtWidth f.fm) (s.blockElems f (s.laneMask h))),
    (nextV f.vd, fieldsAt 8 (s.blockScales f (s.laneMask h)))]) _ 4 (by simp [VForm.vd, nextV])
    (fun r hr => by rw [hc.flow.1]; exact hc.free r List.not_mem_nil (hfree r hr))) (fun _ h => absurd h List.not_mem_nil)
  rw [List.append_nil, ← cvtMx_eq] at hr
  obtain ⟨t, e, c⟩ := vecOp_completes (exec_vcvt s h f) rfl hi hn (if_pos hmx) hr
  have hb1 := c.bits _ List.mem_cons_self trivial
  have hb2 := c.bits _ (List.mem_cons_of_mem _ List.mem_cons_self) trivial
  refine ⟨t, e, c.went, c.only, c.others, blockElems_events s f _ ▸ c.counts, fun j hj => ⟨?_, fun i hi => ?_⟩⟩
  · have hfit : 8 * j + 8 ≤ 1024 := by have := lanes_le_1024 (fmtWidth f.sm); omega
    exact (State.merges.places hb2 hfit).trans (if_congr (mem_activeBlocks hj) rfl rfl)
  · have hk : 32 * j + i < lanes (fmtWidth f.sm) := by omega
    have hj' : (32 * j + i) / 32 = j := by omega
    have hi' : (32 * j + i) % 32 = i := by omega
    have hm := mem_blockElems_places (s := s) (f := f) (m := s.laneMask h) (k := 32 * j + i)
    rw [hj', mem_activeBlocks hj] at hm
    refine (hb1.elems blockElems_value (elem_fits hw hk)).trans ((if_congr hm rfl rfl).trans ?_)
    rw [State.blockElem, hj', hi']
    rfl

/-! ### Error feedback (04 R92, 10 R266) -/

/-- Element `i` of a conversion with error feedback, the errors in v register `n`: y, then the error. -/
def State.efElem (s : State) (f : VForm) (n i : Nat) : (Nat × Ev) × (Nat × Ev) :=
  efLane f.fm f.sp (decodeF 0 (elem (s.me.reg f.va) 32 i)) (decodeF 0 (elem (s.me.reg (.v n)) 32 i))

theorem exec_vcvtEf (s : State) (h : Hdr) {f : VForm} {eb : BitVec 5} (hsb : f.sb = some (.v eb)) : exec (.vcvtEf h f) s =
    vecOp (.vcvtEf h f) f true [.v eb.toNat] [f.vd, .v eb.toNat] s (fun m s => retire h
      (((s.putElems f (fmtWidth f.fm) ((activeLanes m 32).map (fun i => (i, (s.efElem f eb.toNat i).1))) 4).countV
        ((activeLanes m 32).map (fun i => (s.efElem f eb.toNat i).2.2))).putV (.v eb.toNat)
          (fieldsAt 32 ((activeLanes m 32).map (fun i => (i, (s.efElem f eb.toNat i).2.1)))).1
          (fieldsAt 32 ((activeLanes m 32).map (fun i => (i, (s.efElem f eb.toNat i).2.1)))).2 4)) := by
  show execVcvtEf h f s = _
  simp only [execVcvtEf, hsb, activeLanes, range_eq_upFrom, List.map_map]
  rfl

/-- The destination of a conversion with error feedback is no wider than FP32 and apart from the errors. -/
theorem vcvtEf_form {s : State} {h : Hdr} {f : VForm} {eb : BitVec 5} (hi : s.issues (.vcvtEf h f)) (hsb : f.sb = some (.v eb)) :
    fmtWidth f.fm ≤ 32 ∧ f.vd ≠ .v eb.toNat := by
  have hw : f.efOk = true := wfFor_of_issues hi
  unfold VForm.efOk at hw
  simp only [Bool.and_eq_true, decide_eq_true_eq] at hw
  obtain ⟨⟨-, h7⟩, hne⟩ := hw
  refine ⟨?_, fun e => ?_⟩
  · interval_cases f.fm <;> decide
  · injection e with e
    rw [hsb, BitVec.eq_of_toNat_eq e.symm] at hne
    cases hsa : f.sa <;> simp [hsa] at hne

theorem vcvtEf_spec {s : State} {h : Hdr} {f : VForm} {eb : BitVec 5} (hsb : f.sb = some (.v eb)) (hi : s.issues (.vcvtEf h f))
    (hn : s.serves (needsV h f true [.v eb.toNat] [f.vd, .v eb.toNat])) :
    ∃ t, exec (.vcvtEf h f) s = .next t ∧ s.wentOn t h ∧ s.onlyMe t ∧ s.me.sameBut t.me [f.vd, .v eb.toNat] ∧
      (∀ i, i < 32 → s.comingElem t f.vd (fmtWidth f.fm) i = if laneOn (s.laneMask h) 32 i
        then (s.efElem f eb.toNat i).1.1 % 2 ^ fmtWidth f.fm else s.comingElem s f.vd (fmtWidth f.fm) i) ∧
      s.getsLanes t (.v eb.toNat) (s.laneMask h) 32 (fun i => (s.efElem f eb.toNat i).2.1) ∧
      s.counts t ((activeLanes (s.laneMask h) 32).flatMap
        (fun i => [(s.efElem f eb.toNat i).1.2, (s.efElem f eb.toNat i).2.2])) := by
  obtain ⟨hwd, hne⟩ := vcvtEf_form hi hsb
  have hy := results_putElems s f (fmtWidth f.fm) (activeLanes (s.laneMask h) 32) (fun i => (s.efElem f eb.toNat i).1) 4
    (needsV_free hn f.vd List.mem_cons_self)
  have hfree := hy.free (.v eb.toNat) (by simpa using hne.symm) (needsV_free hn _ (List.mem_cons_of_mem _ List.mem_cons_self))
  rw [← hy.flow.1] at hfree
  have he := results_countV_putV _ ((activeLanes (s.laneMask h) 32).map (fun i => (s.efElem f eb.toNat i).2.2)) (r := .v eb.toNat) trivial
    (fieldsAt 32 ((activeLanes (s.laneMask h) 32).map (fun i => (i, (s.efElem f eb.toNat i).2.1)))).1
    (fieldsAt 32 ((activeLanes (s.laneMask h) 32).map (fun i => (i, (s.efElem f eb.toNat i).2.1)))).2 4 hfree
  obtain ⟨t, e, c⟩ := vecOp_completes (exec_vcvtEf s h hsb) rfl hi hn rfl (hy.trans he (by simpa using hne))
  refine ⟨t, e, c.went, c.only, c.others, fun i hi => ?_, fun i hi => ?_, ?_⟩
  · exact (State.merges.places (c.bits _ List.mem_cons_self trivial) (elem_fits (w := 32) hwd hi)).trans
      (if_congr (mem_activeLanes (w := 32) hi) rfl rfl)
  · exact (State.merges.places (c.bits _ (List.mem_cons_of_mem _ List.mem_cons_self) trivial) (lane_fits hi)).trans
      (if_congr (mem_activeLanes hi) rfl rfl)
  · refine counted_congr (fun k => List.Perm.countP_eq _ ?_) c.counts
    rw [List.map_eq_flatMap (f := fun i => (s.efElem f eb.toNat i).2.2)]
    exact List.map_append_flatMap_perm _ _ _

/-! ### Dot products (04 R95, 10 R267) -/

/-- The term of block `j` of VMXDOT with its second source in v register `n`. -/
def State.dotTerm (s : State) (f : VForm) (n j : Nat) : Term :=
  blockTerm (elem (s.me.reg (nextV f.va)) 8 j) (elem (s.me.reg (nextV (.v n))) 8 j)
    ((upFrom (32 * j) 32).map (fun i => (decodeF (elemFmt f.sm) (elem (s.me.reg f.va) (fmtWidth f.sm) i),
      decodeF (elemFmt f.sm) (elem (s.me.reg (.v n)) (fmtWidth f.sm) i))))

/-- The blocks of VMXDOT that are active. -/
def dotBlocks (f : VForm) (m : Nat) : List Nat := (List.range (1024 / (32 * fmtWidth f.sm))).filter (laneOn m 32)

/-- The rounded sum of VMXDOT. -/
def State.dotSum (s : State) (f : VForm) (n m : Nat) : Nat × Ev :=
  windowSum 0 f.sp (s.laneRm f 0) (Term.of (decodeF 0 (elem (s.me.reg f.vd) 32 0)) :: (dotBlocks f m).map (s.dotTerm f n))

theorem exec_vmxdot (s : State) (h : Hdr) {f : VForm} {vb : BitVec 5} (hsb : f.sb = some (.v vb)) : exec (.vmxdot h f) s =
    vecOp (.vmxdot h f) f true [nextV f.va, nextV (.v vb.toNat), f.vd] [f.vd] s (fun m s =>
      if dotBlocks f m = [] then retire h s
      else retire h ((s.countV [(s.dotSum f vb.toNat m).2]).putV f.vd allLanes (rep (s.dotSum f vb.toNat m).1 32 (lanes 32)) 8)) := by
  show execVmxdot h f s = _
  simp only [execVmxdot, hsb, dotBlocks, State.dotSum, range_eq_upFrom]
  rfl

theorem laneOn_allOnes {k : Nat} (h : k < lanes 32) : laneOn allOnes 32 k = true := by
  have h : k < 32 := h
  rw [laneOn, bitAt_eq, allOnes, Nat.testBit_two_pow_sub_one, decide_eq_true (by omega)]

theorem vmxdot_spec {s : State} {h : Hdr} {f : VForm} {vb : BitVec 5} (hsb : f.sb = some (.v vb)) (hi : s.issues (.vmxdot h f))
    (hn : s.serves (needsV h f true [nextV f.va, nextV (.v vb.toNat), f.vd] [f.vd])) :
    ∃ t, exec (.vmxdot h f) s = .next t ∧ s.wentOn t h ∧ s.onlyMe t ∧ s.me.sameBut t.me [f.vd] ∧
      (dotBlocks f (s.laneMask h) = [] → s.me.sameBut t.me [] ∧ s.counts t []) ∧
      (dotBlocks f (s.laneMask h) ≠ [] → s.getsLanes t f.vd allOnes 32 (fun _ => (s.dotSum f vb.toNat (s.laneMask h)).1) ∧
        s.counts t [(s.dotSum f vb.toNat (s.laneMask h)).2]) := by
  by_cases hb : dotBlocks f (s.laneMask h) = []
  · obtain ⟨t, e, c⟩ := vecOp_completes (exec_vmxdot s h hsb) rfl hi hn (if_pos hb) (results_unmasked s (outs := []) (by simp))
    exact ⟨t, e, c.went, c.only, fun x r _ => c.others x r List.not_mem_nil, fun _ => ⟨c.others, c.counts⟩, fun k => absurd hb k⟩
  · have hr := results_countV_putV s [(s.dotSum f vb.toNat (s.laneMask h)).2] (r := f.vd) trivial allLanes
      (rep (s.dotSum f vb.toNat (s.laneMask h)).1 32 (lanes 32)) 8 (needsV_free hn f.vd (List.mem_singleton_self _))
    obtain ⟨t, e, c⟩ := vecOp_completes (exec_vmxdot s h hsb) rfl hi hn (if_neg hb) hr
    exact ⟨t, e, c.went, c.only, c.others, fun k => absurd k hb, fun _ => ⟨getsLanes_of_whole
      (c.bits _ (List.mem_singleton_self _) trivial) (fun k hk => fld_rep hk) (fun k hk => laneOn_allOnes hk), c.counts⟩⟩

/-! ### The statement (04 R92, R97, R100 to R102, 10 R262 to R276) -/

/-- Settles O52: the special cases by evaluation, each instruction by the results that it retires with. -/
theorem vectorConversionResults : Obligations.VectorConversionResults := by
  unfold Obligations.VectorConversionResults
  refine ⟨by decide +kernel, fun fn hfn => special_nan hfn, fun fn m e hfn hm => special_negative hfn hm, fun s h f => ?_⟩
  refine ⟨fun hi hn => ?_, fun eb hsb hi hn => vcvtEf_spec hsb hi hn, fun vb hsb hi hn => vmxdot_spec hsb hi hn,
    fun e he hi hn => ?_, vstat_spec, vstatPredicate_spec, vclrf_spec,
    fun hi => ⟨fun i hsb hn => ?_, fun c hsb hn => ?_⟩⟩
  · rcases Bool.eq_false_or_eq_true (isMxFmt f.fm) with hmx | hmx
    · obtain ⟨t, e, w, o, hb, hc, hel⟩ := vcvt_mx hmx hi hn
      have hno : isMxFmt f.fm ≠ false := by rw [hmx]; exact Bool.noConfusion
      refine ⟨t, e, w, o, by rw [if_pos hmx]; exact hb, fun k => absurd k hno, fun k => absurd k hno, fun _ => ⟨hc, fun j hj => ?_⟩⟩
      obtain ⟨hs, hl⟩ := hel j hj
      exact ⟨fun hon => ⟨hs.trans (if_pos hon), fun i hi => (hl i hi).trans (if_pos hon)⟩, fun hoff =>
        ⟨hs.trans (if_neg (Bool.not_eq_true _ ▸ hoff)), fun i hi => (hl i hi).trans (if_neg (Bool.not_eq_true _ ▸ hoff))⟩⟩
    · obtain ⟨t, e, w, o, hb, hc, hel⟩ := vcvt_plain hmx hi hn
      have hno : ¬isMxFmt f.fm = true := by rw [hmx]; exact Bool.false_ne_true
      refine ⟨t, e, w, o, by rw [if_neg hno]; exact hb, fun _ => hc, fun _ i hi => ⟨fun hon => ?_, fun hoff => ?_⟩,
        fun k => absurd k hno⟩
      · exact (hel i hi).trans (if_pos hon)
      · exact (hel i hi).trans (if_neg (Bool.not_eq_true _ ▸ hoff))
  · simp only [List.mem_cons, List.not_mem_nil, or_false] at he
    rcases he with rfl | rfl | rfl | rfl | rfl
    · exact specialOp_completes 0 rfl hi hn
    · exact specialOp_completes 1 rfl hi hn
    · exact specialOp_completes 2 rfl hi hn
    · exact specialOp_completes 3 rfl hi hn
    · exact specialOp_completes 4 rfl hi hn
  · exact kset_spec (s := s) (f := f) (show execKset h f s = _ from rfl) (by dsimp only; rw [hsb]; rfl) hi hn (BitVec.isLt _)
  · exact kset_spec (s := s) (f := f) (show execKset h f s = _ from rfl) (by dsimp only; rw [hsb]; rfl) hi hn (BitVec.isLt _)

end Sys2Proof.Machine
end

section
/-! PROOFS. Scalar and control instructions (06): the trip count of a hardware loop; the values of integer, field, division, compare,
move, predicate and address instructions and of the special registers; what their frame leaves out; branches, loops, calls and returns;
the X-stream's start and end, the end of a task and its safe points; TRAP and BRK; queues, presence, sends and the mailbox. -/

namespace Sys2Proof.Machine

/-! ### Loops (06 R149, R150) -/

/-- A loop above the floor with passes left goes back. -/
theorem backEdge_again {r : LoopRec} {rs : List LoopRec} {floor n : Nat} (hf : floor ≤ rs.length) (hn : 1 < n) :
    backEdge r.last floor ({ r with rem := n } :: rs) = ({ r with rem := n - 1 } :: rs, some r.start) := by
  rw [backEdge, if_neg (by simp; omega), if_pos hn]

/-- A loop in its last pass is popped where no other ends at its slot. -/
theorem backEdge_last {r : LoopRec} {rs : List LoopRec} {floor : Nat} (hf : floor ≤ rs.length) (hq : ∀ q ∈ rs, q.last ≠ r.last) :
    backEdge r.last floor ({ r with rem := 1 } :: rs) = (rs, none) := by
  rw [backEdge, if_neg (by simp; omega), if_neg (Nat.lt_irrefl 1)]
  cases rs with
  | nil => rfl
  | cons q qs => rw [backEdge, if_pos (Or.inr (hq q List.mem_cons_self))]

/-- The loop records after `k` passes of the innermost loop. -/
theorem backEdge_iterate {r : LoopRec} {rs : List LoopRec} {floor c : Nat} (hf : floor ≤ rs.length) :
    ∀ k, k < c → (fun ls => (backEdge r.last floor ls).1)^[k] ({ r with rem := c } :: rs) = { r with rem := c - k } :: rs
  | 0, _ => rfl
  | k + 1, h => by
    rw [Function.iterate_succ_apply', backEdge_iterate hf k (by omega), backEdge_again hf (by omega), Nat.sub_sub]

/-- Settles O16: each pass but the last sends control back with one pass less, and the last pops the record. -/
theorem loopRunsItsTripCount : Obligations.LoopRunsItsTripCount := by
  unfold Obligations.LoopRunsItsTripCount
  intro r rs floor c k hf hc hq
  have hl : (fun ls => (backEdge r.last floor ls).1)^[c] ({ r with rem := c } :: rs) = rs := by
    obtain ⟨m, rfl⟩ : ∃ m, c = m + 1 := ⟨c - 1, by omega⟩
    rw [Function.iterate_succ_apply', backEdge_iterate hf m (Nat.lt_succ_self m), show m.succ - m = 1 by omega, backEdge_last hf hq]
  refine ⟨backEdge_iterate hf k, hl, fun h => ?_, fun h => ?_⟩
  · dsimp only
    rw [backEdge_iterate hf k (by omega), backEdge_again hf (by omega)]
  · dsimp only
    rw [backEdge_iterate hf k (by omega), show c - k = 1 by omega, backEdge_last hf hq]

/-! ### Values of OP 0x00 (06 R140) -/

theorem mulHighZ_eq (x y : Word) : mulHighZ x y = ((x.setWidth 128 * y.setWidth 128) >>> 64).setWidth 64 := by
  have hx : x.toNat < 2 ^ 64 := x.isLt
  have hy : y.toNat < 2 ^ 64 := y.isLt
  have hp : x.toNat * y.toNat < 2 ^ 128 := Nat.lt_of_lt_of_eq (Nat.mul_lt_mul'' hx hy) (by decide)
  apply BitVec.eq_of_toNat_eq
  rw [mulHighZ, BitVec.toNat_ofNat, BitVec.toNat_setWidth, BitVec.toNat_ushiftRight, BitVec.toNat_mul, BitVec.toNat_setWidth,
    BitVec.toNat_setWidth, Nat.mod_eq_of_lt (Nat.lt_trans hx (by decide)), Nat.mod_eq_of_lt (Nat.lt_trans hy (by decide)),
    Nat.mod_eq_of_lt hp, Nat.shiftRight_eq_div_pow]

theorem mulHighS_eq (x y : Word) : mulHighS x y = ((x.signExtend 128 * y.signExtend 128) >>> 64).setWidth 64 := by
  have he : x.signExtend 128 * y.signExtend 128 = BitVec.ofInt 128 (x.toInt * y.toInt) := by
    rw [BitVec.ofInt_mul]; rfl
  rw [he]
  apply BitVec.eq_of_toNat_eq
  rw [mulHighS, BitVec.toNat_ofInt, BitVec.toNat_setWidth, BitVec.toNat_ushiftRight, BitVec.toNat_ofInt, Nat.shiftRight_eq_div_pow]
  generalize x.toInt * y.toInt = p
  push_cast
  omega

theorem rotateRight_eq (x : Word) (c : Nat) : x.rotateRight (c % 64) = (x >>> (c % 64)) ||| (x <<< ((64 - c % 64) % 64)) := by
  have hc : c % 64 < 64 := Nat.mod_lt _ (by decide)
  generalize c % 64 = k at hc
  rw [BitVec.rotateRight_def, Nat.mod_eq_of_lt hc]
  rcases Nat.eq_zero_or_pos k with rfl | h0
  · simp
  · rw [Nat.mod_eq_of_lt (by omega : 64 - k < 64)]

/-! ### Values of OP 0x01 to 0x03 (06 R141 to R143) -/

theorem toS_eq (n w : Nat) : toS n w = (BitVec.ofNat w n).toInt := by
  rw [BitVec.toInt_eq_toNat_cond, BitVec.toNat_ofNat]; simp [toS]

theorem ext64_signed (w n : Nat) : ext64 true w n = (BitVec.ofNat w n).signExtend 64 := by
  rw [ext64, if_pos rfl, toS_eq]; rfl

theorem sextVal_eq {x y : Word} (h1 : 1 ≤ y.toNat) (h2 : y.toNat ≤ 64) :
    sextVal x y = (x <<< (64 - y.toNat)).sshiftRight (64 - y.toNat) := by
  rw [sextVal, ext64_signed]
  generalize y.toNat = n at h1 h2
  apply BitVec.eq_of_getLsbD_eq
  intro i hi
  rw [BitVec.getLsbD_signExtend, BitVec.getLsbD_sshiftRight, BitVec.msb_eq_getLsbD_last, BitVec.msb_eq_getLsbD_last]
  by_cases hin : i < n
  · simp [hi, hin, (by omega : 64 - n + i < 64)]
  · have hm : 63 - (64 - n) = n - 1 := by omega
    rw [if_neg hin, if_neg (by omega : ¬64 - n + i < 64)]
    simp [hi, (by omega : 0 < n), decide_eq_false (by omega : ¬64 ≤ i), decide_eq_false (by omega : ¬63 < 64 - n), hm,
      BitVec.getLsbD_eq_getElem (by omega : n - 1 < 64)]

theorem zextVal_eq {x y : Word} (h : y.toNat ≤ 64) : zextVal x y = (x <<< (64 - y.toNat)) >>> (64 - y.toNat) := by
  rw [zextVal, ext64, if_neg Bool.false_ne_true]
  generalize y.toNat = n at h
  apply BitVec.eq_of_getLsbD_eq
  intro i hi
  rw [BitVec.getLsbD_ofNat, BitVec.getLsbD_ushiftRight, BitVec.getLsbD_shiftLeft, Nat.testBit_mod_two_pow]
  by_cases hin : i < n
  · simp [hi, hin, (by omega : 64 - n + i < 64), BitVec.getLsbD]
  · rw [decide_eq_false hin, decide_eq_false (by omega : ¬64 - n + i < 64)]; simp

theorem bfxVal_eq {x y : Word} (h : y.toNat < 8192) :
    bfxVal x y = (x >>> (y.toNat % 64)) &&& BitVec.ofNat 64 (2 ^ (y.toNat / 64) - 1) := by
  rw [bfxVal, fieldLo, fieldWid, Nat.mod_eq_of_lt (by omega : y.toNat / 64 < 128)]
  apply BitVec.eq_of_getLsbD_eq
  intro i hi
  rw [BitVec.getLsbD_ofNat, testBit_fld, BitVec.getLsbD_and, BitVec.getLsbD_ushiftRight, BitVec.getLsbD_ofNat,
    Nat.testBit_two_pow_sub_one, decide_eq_true hi, Bool.true_and, Bool.true_and, Bool.and_comm]
  rfl

theorem satS64_eq (i : Int) : satS64 i = BitVec.ofInt 64 (max (-2 ^ 63) (min (2 ^ 63 - 1) i)) := by
  unfold satS64
  split
  · rw [min_eq_right (by omega), max_eq_left (by omega)]
  · split
    · rw [min_eq_left (by omega), max_eq_right (by omega)]
    · rw [min_eq_right (by omega), max_eq_right (by omega)]

theorem divS_eq (x y : Word) : divS x y = if y = 0 then BitVec.allOnes 64 else x.sdiv y := by
  unfold divS
  split
  · decide
  · apply BitVec.eq_of_toInt_eq
    rw [BitVec.toInt_sdiv, BitVec.toInt_ofInt]

theorem remS_eq (x y : Word) : remS x y = if y = 0 then x else x.srem y := by
  unfold remS
  split
  · rfl
  · rw [← BitVec.toInt_srem, BitVec.ofInt_toInt]

theorem divZ_eq (x y : Word) : divZ x y = if y = 0 then BitVec.allOnes 64 else x / y := by
  unfold divZ
  split
  · decide
  · rw [← BitVec.toNat_udiv, BitVec.ofNat_toNat, BitVec.setWidth_eq]

theorem remZ_eq (x y : Word) : remZ x y = if y = 0 then x else x % y := by
  unfold remZ
  split
  · rfl
  · rw [← BitVec.toNat_umod, BitVec.ofNat_toNat, BitVec.setWidth_eq]

theorem bw_eq_ite (p : Prop) [Decidable p] : bw (decide p) = if p then 1 else 0 := by
  unfold bw; split <;> simp_all

/-! ### Scalar instructions of one and two sources (06 R139) -/

/-- Of the operands only queues have changed: a result at a free destination leaves the instruction completed. -/
theorem give_completes {s u : State} (q : onlyQueues s u) (h : Hdr) (d : Desc) (v : Word) (lat : Nat) (var : Bool)
    (hf : ∀ r ∈ regOf s.cur.x d, s.me.pendingReg s.cur.x r = false) :
    ∃ t, retire h (u.give d v lat var) = .next t ∧ s.wentOn t h ∧ t.holds d v := by
  obtain ⟨t, e, w, -, m⟩ := retire_spec h (u.give d v lat var)
  obtain ⟨hc, -, -⟩ := retire_keeps e
  refine ⟨t, e, wentOn_of_sameFlow (sameFlow_trans (sameFlow_of_onlyQueues q) (sameFlow_give ..)) w, ?_⟩
  refine holds_congr d v w.1 hc (fun k => ?_) (holds_give u d v lat var fun r hr => ?_)
  · rw [m]; unfold Core.issued Core.setStream; cases (u.give d v lat var).cur.x <;> rfl
  · rw [onlyQueues_cur q] at hr ⊢
    rw [onlyQueues_pendingReg q]
    exact hf r hr

/-- What an instruction of two sources completes with. -/
theorem scalar2_result {i : Instr} {h : Hdr} {d a b : Desc} {lat : Nat} {var : Bool} {f : Word → Word → Word} {s : State} {v : Word}
    (he : exec i s = scalar2 i d a b lat var f s) (hh : i.hdr = h) (hv : s.issues i → f (s.takes a b).1 (s.takes a b).2 = v)
    (hi : s.issues i) (hn : s.serves (s.needs2 d a b)) : ∃ t, exec i s = .next t ∧ s.wentOn t h ∧ t.holds d v := by
  rw [he, ← hv hi, ← hh]
  exact scalar2_completes hi hn

/-- What an instruction of one source completes with. -/
theorem scalar1_completes {i : Instr} {h : Hdr} {d a : Desc} {lat : Nat} {f : Word → Word} {s : State}
    (he : exec i s = scalar1 i d a lat f s) (hh : i.hdr = h) (hi : s.issues i)
    (hn : s.serves ((dstNeeds s.cur.x d).and (srcNeeds s.cur.x a))) :
    ∃ t, exec i s = .next t ∧ s.wentOn t h ∧ t.holds d (f (s.take a).1) := by
  rw [he, scalar1, issue_eq hi]
  dsimp only
  rw [withNeeds_eq hn, keepGuard_retire, hh]
  exact give_completes (onlyQueues_take s a) h d _ lat _ fun r hr => free_of_met hn.1 (List.mem_append_left _ (dstNeeds_writes hr))

/-- What an instruction completes with that replaces a field of its destination. -/
theorem scalarUpd_completes {i : Instr} {h : Hdr} {d a b : Desc} {f : Word → Word → Word → Word} {s : State}
    (he : exec i s = scalarUpd i d a b f s) (hh : i.hdr = h) (hi : s.issues i)
    (hn : s.serves ((((dstNeeds s.cur.x d).and (srcNeeds s.cur.x d)).and (srcNeeds s.cur.x a)).and (srcNeeds s.cur.x b))) :
    ∃ t, exec i s = .next t ∧ s.wentOn t h ∧ t.holds d (f (s.take d).1 (s.takes a b).1 (s.takes a b).2) := by
  rw [he, scalarUpd, issue_eq hi]
  dsimp only
  rw [withNeeds_eq hn, keepGuard_retire, hh]
  exact give_completes (onlyQueues_trans (onlyQueues_take s a) (onlyQueues_take _ b)) h d _ 1 _ fun r hr => free_of_met hn.1
    (List.mem_append_left _ (List.mem_append_left _ (List.mem_append_left _ (dstNeeds_writes hr))))

/-- Settles O19: each instruction is `scalar2` with its function of the two sources. -/
theorem integerArithmeticResults : Obligations.IntegerArithmeticResults := by
  unfold Obligations.IntegerArithmeticResults
  intro s h d a b x y
  simp only [List.forall_mem_cons, List.not_mem_nil, false_imp_iff, implies_true, and_true]
  refine ⟨?add, ?sub, ?mul, ?mulhs, ?mulhz, ?and, ?or, ?xor, ?andn, ?shl, ?shr, ?sar, ?rot⟩
  case mulhs => exact scalar2_result rfl rfl fun _ => mulHighS_eq x y
  case mulhz => exact scalar2_result rfl rfl fun _ => mulHighZ_eq x y
  case andn => exact scalar2_result (f := fun a b => a &&& ~~~b) rfl rfl fun _ => rfl
  case shl => exact scalar2_result (f := fun a b => a <<< shiftCount b) rfl rfl fun _ => rfl
  case shr => exact scalar2_result (f := fun a b => a >>> shiftCount b) rfl rfl fun _ => rfl
  case sar => exact scalar2_result (f := fun a b => a.sshiftRight (shiftCount b)) rfl rfl fun _ => rfl
  case rot => exact scalar2_result (f := fun a b => a.rotateRight (shiftCount b)) rfl rfl fun _ => rotateRight_eq x y.toNat
  case add | sub | mul | and | or | xor => exact scalar2_result rfl rfl fun _ => rfl

/-! ### Immediate operands (05 R122, 06 R141) -/

/-- An immediate of a range, and the value that it gives as a second source. -/
theorem takes_imm {b : Desc} {lo hi : Int} (h : b.isImm lo hi = true) (h0 : 0 ≤ lo) (s : State) (a : Desc) :
    lo ≤ (s.takes a b).2.toNat ∧ (s.takes a b).2.toNat ≤ hi := by
  cases b with
  | imm n =>
    rw [Desc.isImm, Bool.and_eq_true] at h
    obtain ⟨h1, h2⟩ : lo ≤ n.toInt ∧ n.toInt ≤ hi := ⟨of_decide_eq_true h.1, of_decide_eq_true h.2⟩
    have hv : ((n.signExtend 64).toNat : Int) = n.toInt := by
      have := BitVec.toInt_signExtend_of_le (x := n) (by decide : 19 ≤ 64)
      rw [BitVec.toInt_eq_toNat_cond] at this
      split at this <;> omega
    show lo ≤ ((n.signExtend 64).toNat : Int) ∧ ((n.signExtend 64).toNat : Int) ≤ hi
    rw [hv]; exact ⟨h1, h2⟩
  | _ => exact absurd h Bool.false_ne_true

/-- The field operand of BFX and BFI as a second source. -/
theorem takes_field {b : Desc} (h : b.isField = true) (s : State) (a : Desc) : (s.takes a b).2.toNat < 8192 := by
  cases b with
  | imm n =>
    simp only [Desc.isField, Bool.and_eq_true, decide_eq_true_eq] at h
    obtain ⟨⟨hn, -⟩, -⟩ := h
    show (n.signExtend 64).toNat < 8192
    have : n.signExtend 64 = n.setWidth 64 := BitVec.signExtend_eq_setWidth_of_msb_false (by rw [BitVec.msb_eq_decide]; simp; omega)
    rw [this, BitVec.toNat_setWidth]
    omega
  | _ => exact absurd h Bool.false_ne_true

/-- The fields of an instruction of both streams that issues are as step 1 of 05 R131 asks. -/
theorem fieldsOk_of_issues {s : State} {i : Instr} (hs : i.side = .both) (h : s.issues i) : i.fieldsOk s.cur.x = true := by
  have := wfFor_of_issues h
  rwa [Instr.wfFor, hs] at this

/-- The width of an extension, of which step 1 of 05 R131 asks that it is 1 to 64. -/
theorem extension_width {s : State} {i : Instr} {d a b : Desc} (hs : i.side = .both)
    (hf : i.fieldsOk s.cur.x = (d.isDst s.cur.x && a.isSrc s.cur.x && b.isImm 1 64)) (h : s.issues i) :
    1 ≤ (s.takes a b).2.toNat ∧ (s.takes a b).2.toNat ≤ 64 := by
  have hw := fieldsOk_of_issues hs h
  rw [hf, Bool.and_eq_true] at hw
  have := takes_imm hw.2 (by decide) s a
  omega

/-- A choice by `≤` is one by `<` where it makes no difference for equal keys. -/
theorem ite_le_eq_ite_lt {α β : Type} [LinearOrder α] {m n : α} {u v : β} (h : m = n → u = v) :
    (if m ≤ n then u else v) = if m < n then u else v := by
  rcases lt_trichotomy m n with hl | he | hg
  · rw [if_pos hl.le, if_pos hl]
  · rw [h he, ite_self, ite_self]
  · rw [if_neg hg.not_ge, if_neg hg.not_gt]

theorem ite_slt {β : Type} {x y : Word} {u v : β} (h : x = y → u = v) :
    (if x.toInt ≤ y.toInt then u else v) = if x.slt y then u else v :=
  (ite_le_eq_ite_lt fun e => h (BitVec.eq_of_toInt_eq e)).trans (if_congr decide_eq_true_iff.symm rfl rfl)

theorem ite_ult {β : Type} {x y : Word} {u v : β} (h : x = y → u = v) :
    (if x.toNat ≤ y.toNat then u else v) = if x.ult y then u else v :=
  (ite_le_eq_ite_lt fun e => h (BitVec.eq_of_toNat_eq e)).trans (if_congr decide_eq_true_iff.symm rfl rfl)

/-- Settles O20: each instruction is `scalar2` with its function of the two sources; the classes of step 1 of 05 R131 bound the
operands of the extensions and of the field. -/
theorem fieldDivisionAndCompareResults : Obligations.FieldDivisionAndCompareResults := by
  unfold Obligations.FieldDivisionAndCompareResults
  intro s h d a b x y n
  simp only [List.forall_mem_cons, List.not_mem_nil, false_imp_iff, implies_true, and_true]
  refine ⟨?sext, ?zext, ?bfx, ?mins, ?maxs, ?minz, ?maxz, ?addsat, ?subsat, ?divs, ?rems, ?divz, ?remz, ?eq, ?ne, ?lts, ?les, ?ltz, ?lez⟩
  case sext =>
    refine scalar2_result (f := sextVal) rfl rfl fun hi => ?_
    obtain ⟨h1, h2⟩ := extension_width (i := .sext h d a b) rfl rfl hi
    exact sextVal_eq h1 h2
  case zext =>
    exact scalar2_result (f := zextVal) rfl rfl fun hi => zextVal_eq (extension_width (i := .zext h d a b) rfl rfl hi).2
  case bfx =>
    refine scalar2_result (f := bfxVal) rfl rfl fun hi => ?_
    have hw := fieldsOk_of_issues rfl hi
    rw [show (Instr.bfx h d a b).fieldsOk s.cur.x = (d.isDst s.cur.x && a.isSrc s.cur.x && b.isField) from rfl, Bool.and_eq_true] at hw
    exact bfxVal_eq (takes_field hw.2 s a)
  case mins => exact scalar2_result (f := fun a b => if a.toInt ≤ b.toInt then a else b) rfl rfl fun _ => ite_slt id
  case maxs => exact scalar2_result (f := fun a b => if a.toInt ≤ b.toInt then b else a) rfl rfl fun _ => ite_slt Eq.symm
  case minz => exact scalar2_result (f := fun a b => if a.toNat ≤ b.toNat then a else b) rfl rfl fun _ => ite_ult id
  case maxz => exact scalar2_result (f := fun a b => if a.toNat ≤ b.toNat then b else a) rfl rfl fun _ => ite_ult Eq.symm
  case addsat => exact scalar2_result (f := fun a b => satS64 (a.toInt + b.toInt)) rfl rfl fun _ => satS64_eq _
  case subsat => exact scalar2_result (f := fun a b => satS64 (a.toInt - b.toInt)) rfl rfl fun _ => satS64_eq _
  case divs => exact scalar2_result rfl rfl fun _ => divS_eq x y
  case rems => exact scalar2_result rfl rfl fun _ => remS_eq x y
  case divz => exact scalar2_result rfl rfl fun _ => divZ_eq x y
  case remz => exact scalar2_result rfl rfl fun _ => remZ_eq x y
  case eq => exact scalar2_result (f := fun a b => bw (decide (a = b))) rfl rfl fun _ => bw_eq_ite (x = y)
  case ne => exact scalar2_result (f := fun a b => bw (decide (a ≠ b))) rfl rfl fun _ => (bw_eq_ite (x ≠ y)).trans (ite_not ..)
  case lts => exact scalar2_result (f := fun a b => bw (decide (a.toInt < b.toInt))) rfl rfl fun _ => rfl
  case les => exact scalar2_result (f := fun a b => bw (decide (a.toInt ≤ b.toInt))) rfl rfl fun _ => rfl
  case ltz => exact scalar2_result (f := fun a b => bw (decide (a.toNat < b.toNat))) rfl rfl fun _ => rfl
  case lez => exact scalar2_result (f := fun a b => bw (decide (a.toNat ≤ b.toNat))) rfl rfl fun _ => rfl

/-! ### Counts of bits (06 R141) -/

theorem clzNat_spec (n : Nat) : ∀ w, clzNat n w ≤ w ∧ (∀ i, w - clzNat n w ≤ i → i < w → n.testBit i = false) ∧
    (clzNat n w < w → n.testBit (w - 1 - clzNat n w) = true)
  | 0 => ⟨Nat.le_refl 0, fun _ _ h => absurd h (Nat.not_lt_zero _), fun h => absurd h (Nat.not_lt_zero _)⟩
  | w + 1 => by
    obtain ⟨h1, h2, h3⟩ := clzNat_spec n w
    rw [clzNat, bitAt_eq]
    by_cases hb : n.testBit w = true
    · rw [if_pos hb]
      exact ⟨Nat.zero_le _, fun i hi hw => absurd hi (by omega), fun _ => hb⟩
    · rw [if_neg hb]
      refine ⟨by omega, fun i hi hw => ?_, fun h => ?_⟩
      · rcases Nat.lt_succ_iff_lt_or_eq.1 hw with hlt | rfl
        · exact h2 i (by omega) hlt
        · exact Bool.eq_false_iff.2 hb
      · rw [show w + 1 - 1 - (1 + clzNat n w) = w - 1 - clzNat n w by omega]
        exact h3 (by omega)

theorem ctzNat_spec (n : Nat) : ∀ w i, ctzNat n i w ≤ w ∧ (∀ j, i ≤ j → j < i + ctzNat n i w → n.testBit j = false) ∧
    (ctzNat n i w < w → n.testBit (i + ctzNat n i w) = true)
  | 0, _ => ⟨Nat.le_refl 0, fun _ h h' => absurd h' (Nat.not_lt.2 h), fun h => absurd h (Nat.not_lt_zero _)⟩
  | w + 1, i => by
    obtain ⟨h1, h2, h3⟩ := ctzNat_spec n w (i + 1)
    rw [ctzNat, bitAt_eq]
    by_cases hb : n.testBit i = true
    · rw [if_pos hb]
      exact ⟨Nat.zero_le _, fun j hi hj => absurd hj (Nat.not_lt.2 hi), fun _ => hb⟩
    · rw [if_neg hb]
      refine ⟨by omega, fun j hi hj => ?_, fun h => ?_⟩
      · rcases Nat.eq_or_lt_of_le hi with rfl | hlt
        · exact Bool.eq_false_iff.2 hb
        · exact h2 j hlt (by omega)
      · rw [← Nat.add_assoc]
        exact h3 (by omega)

theorem popNat_eq (n w : Nat) : popNat n w = (List.range w).countP (fun i => n.testBit i) := by
  induction w with
  | zero => rfl
  | succ w ih =>
    rw [popNat, ih, List.range_succ, List.countP_append, List.countP_singleton, bitAt_eq, b01, Nat.add_comm]

/-! ### Fields of the old destination (06 R141) -/

/-- A word in which a field has been replaced, bit by bit. -/
theorem getLsbD_setFld (old x : Word) (lo w : Nat) {i : Nat} (hi : i < 64) :
    (BitVec.ofNat 64 (setFld old.toNat lo w x.toNat)).getLsbD i =
      if lo ≤ i ∧ i < lo + w then x.getLsbD (i - lo) else old.getLsbD i := by
  rw [BitVec.getLsbD_ofNat, decide_eq_true hi, Bool.true_and, testBit_setFld]
  by_cases h : lo ≤ i
  · rw [if_neg (Nat.not_lt.2 h)]
    exact if_congr (by simp [h]) rfl rfl
  · rw [if_pos (Nat.lt_of_not_le h), if_neg fun k => h k.1]
    rfl

/-- Settles O21: each instruction completes with its function of its operands, whose bits the lemmas above give. -/
theorem moveAndCountResults : Obligations.MoveAndCountResults := by
  unfold Obligations.MoveAndCountResults
  intro s h d a b x n
  refine ⟨scalar1_completes (f := id) rfl rfl, fun hi hn => ?clz, fun hi hn => ?ctz, fun hi hn => ?popc, fun hi hn => ?movk, fun hi hn => ?bfi⟩
  case clz =>
    obtain ⟨t, e, w, hv⟩ := scalar1_completes (f := fun a => BitVec.ofNat 64 (clzNat a.toNat 64)) rfl rfl hi hn
    obtain ⟨h1, h2, h3⟩ := clzNat_spec x.toNat 64
    refine ⟨t, _, e, w, hv, h1, fun i hc => ?_, h3⟩
    by_cases hl : i < 64
    · exact h2 i hc hl
    · exact BitVec.getLsbD_of_ge x i (Nat.not_lt.1 hl)
  case ctz =>
    obtain ⟨t, e, w, hv⟩ := scalar1_completes (f := fun a => BitVec.ofNat 64 (ctzNat a.toNat 0 64)) rfl rfl hi hn
    obtain ⟨h1, h2, h3⟩ := ctzNat_spec x.toNat 64 0
    rw [Nat.zero_add] at h2 h3
    exact ⟨t, _, e, w, hv, h1, fun i => h2 i (Nat.zero_le i), h3⟩
  case popc =>
    obtain ⟨t, e, w, hv⟩ := scalar1_completes (f := fun a => BitVec.ofNat 64 (popNat a.toNat 64)) rfl rfl hi hn
    rw [popNat_eq] at hv
    exact ⟨t, e, w, hv⟩
  case movk =>
    obtain ⟨t, e, w, hv⟩ := scalarUpd_completes (f := movkVal) rfl rfl hi hn
    refine ⟨t, _, e, w, hv, fun i hl => ?_⟩
    have hw := fieldsOk_of_issues rfl hi
    rw [show (Instr.movk h d a b).fieldsOk s.cur.x = (d.isReg s.cur.x && a.isImm 0 65535 && b.isImm 0 3) from rfl, Bool.and_eq_true] at hw
    have hb := takes_imm hw.2 (by decide) s a
    rw [movkVal, Nat.mod_eq_of_lt (b := 4) (by omega)]
    exact getLsbD_setFld _ _ _ _ hl
  case bfi =>
    obtain ⟨t, e, w, hv⟩ := scalarUpd_completes (f := bfiVal) rfl rfl hi hn
    refine ⟨t, _, e, w, hv, fun i hl => ?_⟩
    have hw := fieldsOk_of_issues rfl hi
    rw [show (Instr.bfi h d a b).fieldsOk s.cur.x = (d.isReg s.cur.x && a.isSrc s.cur.x && b.isField) from rfl, Bool.and_eq_true] at hw
    have hb := takes_field hw.2 s a
    rw [bfiVal, fieldLo, fieldWid, Nat.mod_eq_of_lt (a := _ / 64) (by omega)]
    exact getLsbD_setFld _ _ _ _ hl

/-! ### Results at registers (05 R105 to R109) -/

/-- A register that is written whole, other than p0, comes to hold the value. -/
theorem comes_writeReg {s : State} {r : Reg} {v lat : Nat} {var : Bool} (hp : s.me.pendingReg s.cur.x r = false)
    (h0 : r ≠ .pa 0 ∧ r ≠ .px 0) (hm : ∀ c : Core, (c.setReg r (fullMask r) v).reg r = v) :
    (s.writeReg r v lat var).me.comes s.cur.x r = v := by
  unfold State.writeReg
  split
  · exact comes_pendNew s v hp h0
  · obtain ⟨c, e⟩ := State.comes_writeFixed s (fullMask r) v lat hp h0
    rw [e, hm]

theorem sameFlow_writeReg (s : State) (r : Reg) (v lat : Nat) (var : Bool) : sameFlow s (s.writeReg r v lat var) := by
  unfold State.writeReg
  split
  · exact sameFlow_pendNew ..
  · exact sameFlow_writeFixed ..

/-- An instruction that ends with a value for a register. -/
theorem retire_writeReg {s : State} {r : Reg} {v : Nat} (hp : s.me.pendingReg s.cur.x r = false) (h0 : r ≠ .pa 0 ∧ r ≠ .px 0)
    (hm : ∀ c : Core, (c.setReg r (fullMask r) v).reg r = v) (h : Hdr) (lat : Nat) (var : Bool) :
    ∃ t, retire h (s.writeReg r v lat var) = .next t ∧ s.wentOn t h ∧ t.gets r v := by
  obtain ⟨t, e, w, -, -⟩ := retire_spec h (s.writeReg r v lat var)
  obtain ⟨hc, -, -⟩ := retire_keeps e
  have hf := sameFlow_writeReg s r v lat var
  refine ⟨t, e, wentOn_of_sameFlow hf w, ?_⟩
  have hcur : t.cur = s.cur := w.1.trans hf.1
  unfold State.gets
  rw [hc, hcur, comes_writeReg hp h0 hm]

/-- A fixed-latency result changes no other register. -/
theorem sameBut_writeFixed {s : State} {r : Reg} (hr : ∀ i, r ≠ .t i) (m v lat : Nat) (hp : s.me.pendingReg s.cur.x r = false) :
    s.me.sameBut (s.writeFixed r m v lat).me [r] := by
  by_cases hc : lat ≤ 1 ∧ s.st.landings.filter (fun l => l.dst == r) = []
  · rw [show s.writeFixed r m v lat = s.setMe (s.me.setReg r m v) from if_pos hc, State.me_setMe]
    exact Core.sameBut_setReg s.me hr m v
  · obtain ⟨k, e⟩ : ∃ k, s.writeFixed r m v lat = s.landMore (landingsOf k [(r, m, v)]) := ⟨_, if_neg hc⟩
    rw [e]
    exact (results_landMore s k (outs := [(r, m, v)]) (List.nodup_singleton _) (by simpa using hp)).others

theorem onlyMe_writeFixed (s : State) (r : Reg) (m v lat : Nat) : s.onlyMe (s.writeFixed r m v lat) := by
  unfold State.writeFixed
  dsimp only
  split <;> exact State.onlyMe_setMe ..

/-! ### Predicate logic (06 R144) -/

/-- Predicate `i` of a stream. -/
def predReg (x : Bool) (i : BitVec 4) : Reg := if x then .px i.toNat else .pa i.toNat

/-- Bits of a predicate of a stream. -/
def predWidth (x : Bool) : Nat := if x then 128 else 1

theorem predReg_ne_p0 (x : Bool) {i : BitVec 4} (h : i ≠ 0) : predReg x i ≠ .pa 0 ∧ predReg x i ≠ .px 0 := by
  have hi : i.toNat ≠ 0 := fun e => h (BitVec.eq_of_toNat_eq (by simpa using e))
  cases x <;> simpa [predReg] using hi

theorem reg_predReg_lt (c : Core) (x : Bool) (i : BitVec 4) : c.reg (predReg x i) < 2 ^ predWidth x := by
  cases x
  · show (if i.toNat = 0 then 1 else b01 _) < 2
    unfold b01
    split
    · decide
    · split <;> decide
  · show (if i.toNat = 0 then allOnes else (tget 0 i.toNat c.px).toNat) < 2 ^ 128
    split
    · decide
    · exact BitVec.isLt _

/-- A predicate that is written whole. -/
theorem reg_setReg_predReg (c : Core) (x : Bool) {i : BitVec 4} (h : i ≠ 0) {v : Nat} (hv : v < 2 ^ predWidth x) :
    (c.setReg (predReg x i) (fullMask (predReg x i)) v).reg (predReg x i) = v := by
  have hi : i.toNat ≠ 0 := fun e => h (BitVec.eq_of_toNat_eq (by simpa using e))
  cases x
  · have hv : v < 2 := hv
    show (c.setReg (.pa i.toNat) _ v).reg (.pa i.toNat) = v
    rw [Core.setReg, if_neg hi, Core.reg, if_neg hi, tget_tput_same, bitAt_zero, Nat.mod_eq_of_lt hv]
  · exact Core.reg_setReg_fullMask (.px hi) c hv

/-- What a predicate result gives its destination: all its bits to a p register other than p0, bit 0 to a port. -/
def State.getsPred (t : State) (d : Desc) (v : Nat) : Prop :=
  (∀ i, d = .p i → i ≠ 0 → t.gets (predReg t.cur.x i) v) ∧
  ∀ c, d = .port c → ((t.me.fifo c.toNat).entries.getLast?).map Prod.snd = some (if v.testBit 0 then 1 else 0)

/-- The branch-outcome ports that a stream may push are ports 2 and 3. -/
theorem pushB_port {x : Bool} {c : BitVec 4} (h : (Desc.port c).isPushB x = true) : 2 ≤ c.toNat := by
  cases x
  · obtain rfl : c = 2 := by simpa [Desc.isPushB] using h
    decide
  · obtain rfl : c = 3 := by simpa [Desc.isPushB] using h
    decide

theorem retire_givePred {s : State} {d : Desc} {v : Nat} (hp : ∀ r ∈ regOf s.cur.x d, s.me.pendingReg s.cur.x r = false)
    (hd : d.isP = true ∨ d.isPushB s.cur.x = true) (hv : v < 2 ^ predWidth s.cur.x) (h : Hdr) (var : Bool) :
    ∃ t, retire h (s.givePred d v var) = .next t ∧ s.wentOn t h ∧ t.getsPred d v := by
  cases d with
  | p i =>
    by_cases hi : i = 0
    · obtain ⟨t, e, w, -⟩ := retire_spec h (s.givePred (.p i) v var)
      refine ⟨t, e, wentOn_of_sameFlow (sameFlow_writeReg ..) w, fun j hj h0 => absurd (by cases hj; exact hi) h0, nofun⟩
    · obtain ⟨t, e, w, g⟩ := retire_writeReg (hp (predReg s.cur.x i) rfl) (predReg_ne_p0 s.cur.x hi)
        (fun c => reg_setReg_predReg c s.cur.x hi hv) h 1 var
      refine ⟨t, e, w, fun j hj _ => ?_, nofun⟩
      cases hj
      rwa [w.1]
  | port c =>
    obtain ⟨t, e, w, g⟩ := give_completes (onlyQueues_refl s) h (.port c) (BitVec.ofNat 64 (v % 2)) 1 var hp
    refine ⟨t, e, w, nofun, fun k hk => ?_⟩
    cases hk
    have hb : (BitVec.ofNat 64 (v % 2)).getLsbD 0 = v.testBit 0 := by
      rw [BitVec.getLsbD_ofNat, Nat.testBit_mod_two_pow (j := 1)]; rfl
    have g : ((t.me.fifo c.toNat).entries.getLast?).map Prod.snd =
      some (if c.toNat < 2 then BitVec.ofNat 64 (v % 2) else bw ((BitVec.ofNat 64 (v % 2)).getLsbD 0)) := g
    rw [g, hb, if_neg (Nat.not_lt.2 (pushB_port (hd.resolve_left Bool.false_ne_true)))]
    rfl
  | _ => exact absurd hd (by simp [Desc.isP, Desc.isPushB])

/-- What an instruction of predicate logic completes with. -/
theorem predLogic_completes {i : Instr} {h : Hdr} {d : Desc} {a b : BitVec 4} {f : Nat → Nat → Nat} {s : State} {v : Nat}
    (he : exec i s = predLogic i d (.p a) (.p b) f s) (hh : i.hdr = h)
    (hd : s.issues i → d.isP = true ∨ d.isPushB s.cur.x = true)
    (hv : f (s.me.reg (predReg s.cur.x a)) (s.me.reg (predReg s.cur.x b)) = v) (hl : v < 2 ^ predWidth s.cur.x)
    (hi : s.issues i) (hn : s.serves ((dstNeeds s.cur.x d).and (needs [predReg s.cur.x a, predReg s.cur.x b] []))) :
    ∃ t, exec i s = .next t ∧ s.wentOn t h ∧ t.getsPred d v := by
  have hq := withNeeds_eq hn (fun u => retire i.hdr (u.givePred d (f (u.predVal (.p a)) (u.predVal (.p b)))
    (u.varied ((dstNeeds s.cur.x d).and (needs [predReg s.cur.x a, predReg s.cur.x b] [])))))
  rw [he, predLogic, issue_eq hi]
  refine (congrArg (∃ t, keepGuard (s.laneMask i.hdr) · = .next t ∧ s.wentOn t h ∧ t.getsPred d v) hq).mpr ?_
  rw [keepGuard_retire, hh, show f (s.predVal (.p a)) (s.predVal (.p b)) = v from hv]
  exact retire_givePred (fun r hr => free_of_met hn.1 (List.mem_append_left _ (dstNeeds_writes hr))) (hd hi) hl h _

/-- The bits that an instruction of predicate logic completes with. -/
theorem predLogic_result {i : Instr} {h : Hdr} {d : Desc} {a b : BitVec 4} {f : Nat → Nat → Nat} {s : State} {v : Nat} {g : Nat → Bool}
    (he : exec i s = predLogic i d (.p a) (.p b) f s) (hh : i.hdr = h)
    (hd : s.issues i → d.isP = true ∨ d.isPushB s.cur.x = true)
    (hv : f (s.me.reg (predReg s.cur.x a)) (s.me.reg (predReg s.cur.x b)) = v) (hl : v < 2 ^ predWidth s.cur.x)
    (hg : ∀ k, k < predWidth s.cur.x → v.testBit k = g k)
    (hi : s.issues i) (hn : s.serves ((dstNeeds s.cur.x d).and (needs [predReg s.cur.x a, predReg s.cur.x b] []))) :
    ∃ t, exec i s = .next t ∧ s.wentOn t h ∧
      (∀ i, d = .p i → i ≠ 0 → ∀ k, k < predWidth s.cur.x → (t.me.comes t.cur.x (predReg s.cur.x i)).testBit k = g k) ∧
      (∀ c, d = .port c → ((t.me.fifo c.toNat).entries.getLast?).map Prod.snd = some (if g 0 then 1 else 0)) := by
  obtain ⟨t, e, w, hp, hq⟩ := predLogic_completes he hh hd hv hl hi hn
  refine ⟨t, e, w, fun j hj h0 k hk => ?_, fun c hc => ?_⟩
  · have := hp j hj h0
    rw [State.gets, w.1] at this
    rw [w.1, this, hg k hk]
  · rw [hq c hc, hg 0 (by cases s.cur.x <;> decide)]

theorem pnot_lt {x : Bool} {v : Nat} (h : v < 2 ^ predWidth x) : Nat.xor (if x then allOnes else 1) v < 2 ^ predWidth x :=
  Nat.xor_lt_two_pow (by cases x <;> decide) h

theorem pnot_testBit {x : Bool} (v : Nat) {k : Nat} (h : k < predWidth x) :
    (Nat.xor (if x then allOnes else 1) v).testBit k = !v.testBit k := by
  have hm : (if x then allOnes else 1 : Nat) = 2 ^ predWidth x - 1 := by cases x <;> rfl
  rw [hm]
  refine (Nat.testBit_xor ..).trans ?_
  rw [Nat.testBit_two_pow_sub_one, decide_eq_true h, Bool.true_xor]

/-! ### LEA and LEAX (06 R145) -/

theorem leaVal_eq (ga idx : Word) (sh : BitVec 3) (off : BitVec 32) :
    leaVal ga idx sh off = ga + idx * BitVec.ofNat 64 (2 ^ sh.toNat) + off.signExtend 64 := by
  have : idx <<< sh.toNat = idx * BitVec.ofNat 64 (2 ^ sh.toNat) := by
    apply BitVec.eq_of_toNat_eq
    rw [BitVec.toNat_shiftLeft, Nat.shiftLeft_eq, BitVec.toNat_mul, BitVec.toNat_ofNat, Nat.mul_mod_mod]
  rw [leaVal, this]

/-- What LEA and LEAX complete with. -/
theorem leaOp_completes {i : Instr} {h : Hdr} {d a b : BitVec 6} {sh : BitVec 3} {nob : Bool} {off : BitVec 32} {f : Word → Word} {s : State}
    {v : Word} (he : exec i s = leaOp i h d a b sh nob off f s)
    (hv : leaVal (BitVec.ofNat 64 (s.me.reg (.g a.toNat))) (if nob then 0 else f (BitVec.ofNat 64 (s.me.reg (.g b.toNat)))) sh off = v)
    (hi : s.issues i) (hn : s.serves (needs ([Reg.g a.toNat] ++ (if nob then [] else [Reg.g b.toNat])) [Reg.g d.toNat])) :
    ∃ t, exec i s = .next t ∧ s.wentOn t h ∧ t.gets (.g d.toNat) v.toNat := by
  rw [he, leaOp, issue_eq hi]
  dsimp only
  rw [withNeeds_eq hn, keepGuard_retire, hv]
  exact retire_writeReg (free_of_met hn.1 (List.mem_singleton_self _)) ⟨nofun, nofun⟩
    (fun c => Core.reg_setReg_fullMask (.g _) c v.isLt) h 1 _

/-! ### Special registers (05 R110, 06 R146) -/

/-- An instruction of the A-stream that issues: the stream, and its fields. -/
theorem aStream_of_issues {s : State} {i : Instr} (hs : i.side = .a) (h : s.issues i) : s.cur.x = false ∧ i.fieldsOk false = true := by
  have hw := wfFor_of_issues h
  rw [Instr.wfFor, hs] at hw
  refine ⟨?_, hw⟩
  obtain ⟨hr, -⟩ := h
  by_contra hx
  rw [Bool.not_eq_false] at hx
  simp only [State.refusal, Instr.runsOn, hs, hx] at hr
  split at hr
  · cases hr
  · simp at hr

/-- An instruction of the X-stream that issues: the stream, and its fields. -/
theorem xStream_of_issues {s : State} {i : Instr} (hs : i.side = .x) (h : s.issues i) : s.cur.x = true ∧ i.fieldsOk true = true := by
  have hw := wfFor_of_issues h
  rw [Instr.wfFor, hs] at hw
  refine ⟨?_, hw⟩
  obtain ⟨hr, -⟩ := h
  by_contra hx
  rw [Bool.not_eq_true] at hx
  simp only [State.refusal, Instr.runsOn, hs, hx] at hr
  split at hr
  · cases hr
  · simp at hr

theorem readSpecial_completes {i : Instr} {h : Hdr} {r : Reg} {n : Nat} {s : State} (he : exec i s = readSpecial i r n s) (hh : i.hdr = h)
    (hr : r.InWords) (hw : r.width = 64) (h0 : r ≠ .px 0) (hi : s.issues i)
    (hn : s.serves (needs (if 0x10 ≤ n ∧ n ≤ 0x12 then [Reg.key n] else []) [r])) :
    ∃ t, exec i s = .next t ∧ s.wentOn t h ∧ t.gets r (s.me.special s.cur.x n s.dcyc).toNat := by
  rw [he, readSpecial, issue_eq hi]
  rw [withNeeds_eq hn, keepGuard_retire, hh]
  exact retire_writeReg (free_of_met hn.1 (List.mem_singleton_self _)) ⟨(by rintro rfl; cases hr), h0⟩
    (fun c => Core.reg_setReg_fullMask hr c (by rw [hw]; exact BitVec.isLt _)) h 1 _

/-- A write of a special register that is not the key context changes no register. -/
theorem writeSpecial_discarded {i : Instr} {h : Hdr} {r : Reg} {n : Nat} {s : State} (he : exec i s = writeSpecial i r n s) (hh : i.hdr = h)
    (hk : ¬(0x10 ≤ n ∧ n ≤ 0x12)) (hi : s.issues i) (hn : s.serves (needs [r] [])) :
    ∃ t, exec i s = .next t ∧ s.wentOn t h ∧ s.onlyMe t ∧ s.me.sameBut t.me [] ∧ t.me.vflags = s.me.vflags := by
  rw [he, writeSpecial, issue_eq hi]
  rw [withNeeds_eq hn, if_neg hk, keepGuard_retire, hh]
  obtain ⟨t, e, w, o, -⟩ := retire_spec h s
  obtain ⟨hc, hv, -⟩ := retire_keeps e
  exact ⟨t, e, w, o, fun x q _ => hc x q, hv⟩

/-- A write of the key context. -/
theorem writeSpecial_key {i : Instr} {h : Hdr} {r : Reg} {n : Nat} {s : State} (he : exec i s = writeSpecial i r n s) (hh : i.hdr = h)
    (hk : 0x10 ≤ n ∧ n ≤ 0x12) (hi : s.issues i) (hn : s.serves (needs [r] [])) :
    ∃ t, exec i s = .next t ∧ s.wentOn t h ∧ (s.me.pendingReg s.cur.x (.key n) = false →
      t.gets (.key n) (s.me.reg r % 2 ^ 32) ∧ s.me.sameBut t.me [.key n]) := by
  rw [he, writeSpecial, issue_eq hi]
  rw [withNeeds_eq hn, if_pos hk, keepGuard_retire, hh]
  obtain ⟨t, e, w, -, -⟩ := retire_spec h (s.writeFixed (.key n) 1 (s.me.reg r % 2 ^ 32) 1)
  obtain ⟨hc, -, -⟩ := retire_keeps e
  have hf := sameFlow_writeFixed s (.key n) 1 (s.me.reg r % 2 ^ 32) 1
  refine ⟨t, e, wentOn_of_sameFlow hf w, fun hp => ⟨?_, fun x q hq => ?_⟩⟩
  · obtain ⟨c, ec⟩ := State.comes_writeFixed s 1 (s.me.reg r % 2 ^ 32) 1 hp ⟨nofun, nofun⟩
    have hcur : t.cur = s.cur := w.1.trans hf.1
    unfold State.gets
    rw [hc, hcur, ec, Core.reg_setReg_key, Nat.mod_mod]
  · rw [hc]
    exact sameBut_writeFixed (r := .key n) (fun _ => nofun) 1 _ 1 hp x q hq

/-- What the special registers of the A-stream hold. -/
theorem special_a (c : Core) (n : BitVec 6) (dcyc : Nat) :
    let v := (c.special false n.toNat dcyc).toNat
    (n = 0 → v = (BitVec.ofNat 64 (c.cyc - (c.task.elim 0 Task.cyc0))).toNat) ∧ (n = 1 → v = dcyc % 2 ^ 64) ∧
    (n = 2 → v = (c.task.elim 0 Task.errc) % 2 ^ 16) ∧ (n = 3 → v = (c.a.rets.length + c.a.spilled) % 2 ^ 16) ∧
    (n = 4 → v = c.a.loops.length % 8) := by
  refine ⟨?_, ?_, ?_, ?_, ?_⟩ <;> rintro rfl
  · cases h : c.task <;> simp [Core.special, h]
  · simp [Core.special]
  · cases h : c.task <;> simp [Core.special, h]; omega
  · simp [Core.special, Core.stream]; omega
  · simp [Core.special, Core.stream]; omega

/-- What the special registers of the X-stream hold. -/
theorem special_x (c : Core) (n : BitVec 6) (dcyc : Nat) :
    let v := (c.special true n.toNat dcyc).toNat
    (n = 0 → v = (BitVec.ofNat 64 (c.cyc - (c.task.elim 0 Task.cyc0))).toNat) ∧
    (n = 3 → v = (c.x.rets.length + c.x.spilled) % 2 ^ 16) ∧ (n = 4 → v = c.x.loops.length % 8) ∧
    (n = 0x13 → v = c.vflags.toNat) ∧ (n = 0x10 ∨ n = 0x11 ∨ n = 0x12 → v = c.reg (.key n.toNat)) := by
  refine ⟨?_, ?_, ?_, ?_, ?_⟩
  · rintro rfl; cases h : c.task <;> simp [Core.special, h]
  · rintro rfl; simp [Core.special, Core.stream]; omega
  · rintro rfl; simp [Core.special, Core.stream]; omega
  · rintro rfl; rfl
  · have hl (k : Nat) : (BitVec.ofNat 64 (c.reg (.key k))).toNat = c.reg (.key k) := by
      have := (tget 0 k c.key).isLt
      rw [BitVec.toNat_ofNat]
      exact Nat.mod_eq_of_lt (by show (tget 0 k c.key).toNat < _; omega)
    intro h
    rcases h with h | h | h
    all_goals
      subst h
      exact hl _

theorem signExtend_low_word (w : Word) : ext64 true 32 w.toNat = (w.setWidth 32).signExtend 64 := by
  rw [ext64_signed]
  rfl

/-- The special registers with a field, of the two streams. -/
theorem srOk_iff (n : BitVec 6) : (srOk false n = true ↔ n.toNat ≤ 4) ∧
    (srOk true n = true ↔ n = 0 ∨ n = 3 ∨ n = 4 ∨ n = 0x10 ∨ n = 0x11 ∨ n = 0x12 ∨ n = 0x13) := by
  simp [srOk, or_assoc]

/-- Settles O22: predicate logic by the bits of its operands, LEA and LEAX by the address they form, and the special registers
one by one. -/
theorem predicateAddressAndSpecialResults : Obligations.PredicateAddressAndSpecialResults := by
  unfold Obligations.PredicateAddressAndSpecialResults
  refine ⟨?logic, fun s h => ⟨fun d a b sh off nob => ⟨?lea, ?leax⟩, ?rdsr, ?rdsx, ?wrsr, ?wrsx⟩⟩
  case logic =>
    intro s h d a b
    have ha := reg_predReg_lt s.me s.cur.x a
    have hb := reg_predReg_lt s.me s.cur.x b
    have hd (i : Instr) (e : i.side = .both) (f : i.fieldsOk s.cur.x = true → d.isP = true ∨ d.isPushB s.cur.x = true)
      (hi : s.issues i) := f (fieldsOk_of_issues e hi)
    simp only [List.forall_mem_cons, List.not_mem_nil, false_imp_iff, implies_true, and_true]
    refine ⟨?and, ?or, ?xor, ?not⟩
    case and =>
      exact predLogic_result rfl rfl (hd _ rfl (by simp only [Instr.fieldsOk, Bool.and_eq_true, Bool.or_eq_true]; tauto)) rfl
        (Nat.and_lt_two_pow _ hb) fun k _ => Nat.testBit_and ..
    case or =>
      exact predLogic_result rfl rfl (hd _ rfl (by simp only [Instr.fieldsOk, Bool.and_eq_true, Bool.or_eq_true]; tauto)) rfl
        (Nat.or_lt_two_pow ha hb) fun k _ => Nat.testBit_or ..
    case xor =>
      exact predLogic_result rfl rfl (hd _ rfl (by simp only [Instr.fieldsOk, Bool.and_eq_true, Bool.or_eq_true]; tauto)) rfl
        (Nat.xor_lt_two_pow ha hb) fun k _ => Nat.testBit_xor ..
    case not =>
      exact predLogic_result (f := fun v _ => Nat.xor (if s.cur.x then allOnes else 1) v) rfl rfl
        (hd _ rfl (by simp only [Instr.fieldsOk, Bool.and_eq_true, Bool.or_eq_true]; tauto)) rfl (pnot_lt ha) fun k hk => pnot_testBit _ hk
  case lea =>
    exact leaOp_completes (f := id) rfl (by cases nob <;> simp [leaVal_eq])
  case leax =>
    exact leaOp_completes (f := fun w => ext64 true 32 w.toNat) rfl (by rw [leaVal_eq, signExtend_low_word]; cases nob <;> simp)
  case rdsr =>
    intro r n hi hn
    obtain ⟨hx, hf⟩ := aStream_of_issues rfl hi
    have h4 := (srOk_iff n).1.1 hf
    obtain ⟨t, e, w, g⟩ := readSpecial_completes (r := .g r.toNat) (n := n.toNat) rfl rfl (.g _) rfl nofun hi (by rwa [if_neg (by omega)])
    exact ⟨t, _, e, w, g, hx ▸ special_a s.me n s.dcyc⟩
  case rdsx =>
    intro r n hi hn
    obtain ⟨t, e, w, g⟩ := readSpecial_completes (r := .s r.toNat) (n := n.toNat) rfl rfl (.s _) rfl nofun hi hn
    exact ⟨t, _, e, w, g, (xStream_of_issues rfl hi).1 ▸ special_x s.me n s.dcyc⟩
  case wrsr =>
    intro r n hi hn
    have h4 := (srOk_iff n).1.1 (aStream_of_issues rfl hi).2
    obtain ⟨t, e, w, o, hb, -⟩ := writeSpecial_discarded (n := n.toNat) rfl rfl (by omega) hi hn
    exact ⟨t, e, w, o, hb⟩
  case wrsx =>
    intro r n hi hn
    obtain ⟨hx, hf⟩ := xStream_of_issues rfl hi
    by_cases hk : n = 0x10 ∨ n = 0x11 ∨ n = 0x12
    · obtain ⟨t, e, w, g⟩ := writeSpecial_key (n := n.toNat) rfl rfl (by rcases hk with rfl | rfl | rfl <;> decide) hi hn
      exact ⟨t, e, w, fun _ hp => g (hx ▸ hp), fun h0 => absurd hk (by rcases h0 with rfl | rfl | rfl | rfl <;> decide)⟩
    · have hr : n = 0 ∨ n = 3 ∨ n = 4 ∨ n = 0x13 := by have := (srOk_iff n).2.1 hf; tauto
      obtain ⟨t, e, w, -, hb, hv⟩ := writeSpecial_discarded (n := n.toNat) rfl rfl
        (by rcases hr with rfl | rfl | rfl | rfl <;> decide) hi hn
      exact ⟨t, e, w, fun h0 => absurd h0 hk, fun _ => ⟨hb, hv⟩⟩

/-! ### The frame of the scalar instructions (06 R139 to R146) -/

/-- A core whose X-stream runs, with 5 in s1. -/
def keyWriter : State :=
  { State.reset with
    cores := [(0, { Core.idle with x := { Stream.idle with run := true }, s := [(1, 5)] })]
    cur := { core := 0, x := true } }

/-- WRSX of register 0x10, of the key context, from s1. -/
def writeKey : Instr := .wrsx { gneg := false, gpred := 0, stall := 0, w := false } 1 0x10

theorem writeKey_issues : keyWriter.issues writeKey := by decide +kernel

theorem keyWriter_reads_in_time (r : Reg) : keyWriter.tooEarly [r] = none := by
  rw [State.tooEarly, show bitAt (keyWriter.me.svGet 0).toNat 0 = false from by decide]
  rfl

/-- The key context of the current core after an outcome. -/
def keysAfter : Out → Option (Table Word)
  | .next t => some t.me.key
  | _ => none

theorem writeKey_keys : keysAfter (exec writeKey keyWriter) = some [(0x10, 5)] := by decide +kernel

theorem onlyRegs_key {c d : Core} (h : c.onlyRegs d) : d.key = c.key := by
  obtain ⟨e, -⟩ := h
  have := congrArg Core.key e
  exact this

/-- Refutes O23: WRSX of the key context lands at once where nothing is in flight (05 R107), and the key context is none of the
fields of a core that the statement lets change. -/
theorem not_scalarFrame : ¬ Obligations.ScalarFrame := by
  unfold Obligations.ScalarFrame
  intro h
  have hk := writeKey_keys
  cases e : exec writeKey keyWriter with
  | next t =>
    obtain ⟨-, ho, -⟩ := h keyWriter t writeKey.hdr (.imm 0) (.imm 0) (.imm 0) 0 0x10 0 0 1 0 false 0 (writeKey, [.key 0x10], [])
      (List.mem_append_right _ (by simp [writeKey, Instr.hdr])) writeKey_issues keyWriter_reads_in_time e
    rw [e, keysAfter, onlyRegs_key ho] at hk
    exact absurd hk (by decide)
  | _ => rw [e] at hk; exact absurd hk nofun

/-! ### What a transfer of control leaves (05 R114, 06 R148, R150) -/

theorem Core.fifo_leave (c : Core) (x y : Bool) (t : Stream) (k : Nat) : ((c.setStream x t).issued y).fifo k = c.fifo k := by
  unfold Core.fifo
  cases x <;> cases y <;> rfl

theorem Core.onlyRegs_refl (c : Core) : c.onlyRegs c := ⟨rfl, fun _ => rfl⟩

/-- A stream that keeps its order of LM writes leaves the rest of its core. -/
theorem Core.onlyRegs_leave {c d : Core} (h : c.onlyRegs d) (x y : Bool) {t : Stream} (hq : t.lmq = (d.stream x).lmq) :
    c.onlyRegs ((d.setStream x t).issued y) := by
  obtain ⟨h1, h2⟩ := h
  refine ⟨?_, fun z => ?_⟩
  · conv_rhs => rw [← h1]
    cases x <;> cases y <;> rfl
  · rw [Core.stream_issued, Core.stream_setStream, ← h2 z]
    split
    · subst_vars; exact hq
    · rfl

theorem Core.onlyRegs_of_onlyQueues {s t : State} (h : onlyQueues s t) : s.me.onlyRegs t.me := by
  obtain ⟨-, h⟩ := h
  refine ⟨?_, fun x => ?_⟩
  · rw [← h]
  · rw [← h]
    cases x <;> rfl

/-- The stream that leaves its instruction. -/
theorem st_of_left {s t : State} {c : Core} {st : Stream} (hc : t.cur = s.cur) (hm : t.me = (c.setStream s.cur.x st).issued s.cur.x) :
    t.st = st := by
  unfold State.st
  rw [hm, hc, Core.stream_issued, Core.stream_setStream, if_pos rfl]

/-- A transfer leaves no wait, so that no guard is kept. -/
theorem keepGuard_transfer (g : Nat) (h : Hdr) (d : Nat) (s : State) : keepGuard g (transfer h d s) = transfer h d s := by
  obtain ⟨t, e, w, -, m⟩ := transfer_spec h d s
  rw [e]
  exact keepGuard_eq (by rw [st_of_left w.1 m]; rfl)

/-- Setting the current stream twice. -/
theorem Core.setStream_setStream (c : Core) (x : Bool) (t u : Stream) : (c.setStream x t).setStream x u = c.setStream x u := by
  cases x <;> rfl

/-- What a transfer leaves after its stream's stores have changed. -/
theorem transfer_setSt (h : Hdr) (d : Nat) (s : State) (st : Stream) :
    ∃ t, transfer h d (s.setSt st) = .next t ∧ s.wentTo t h d ∧ s.onlyMe t ∧
      t.st = st.left (s.now + 3 + h.stall.toNat) d ∧
      t.me = (s.me.setStream s.cur.x (st.left (s.now + 3 + h.stall.toNat) d)).issued s.cur.x := by
  obtain ⟨t, e, w, o, m⟩ := transfer_spec h d (s.setSt st)
  have hn : (s.setSt st).now = s.now := by unfold State.now; rw [State.me_setSt, Core.setStream_cyc]
  have hm : t.me = (s.me.setStream s.cur.x (st.left (s.now + 3 + h.stall.toNat) d)).issued s.cur.x := by
    rw [m, State.me_setSt, State.st_setSt, hn]
    exact congrArg (Core.issued · s.cur.x) (Core.setStream_setStream ..)
  obtain ⟨hc, hp, hr, hs⟩ := w
  exact ⟨t, e, ⟨hc, hp, by rw [hr, hn], hs⟩, State.onlyMe_trans (State.onlyMe_setMe ..) o, st_of_left hc hm, hm⟩

theorem wentTo_of_sameFlow {s t u : State} {h : Hdr} {d : Nat} (k : sameFlow s t) (w : t.wentTo u h d) : s.wentTo u h d := by
  obtain ⟨k1, -, -, -, k5, -⟩ := k
  obtain ⟨w1, w2, w3, w4⟩ := w
  exact ⟨w1.trans k1, w2, by rw [w3, k5], w4⟩

/-- The loops that a transfer leaves: those from the first on, innermost first, that it keeps. -/
theorem dropLoops_eq_drop (dest floor : Nat) : ∀ ls : List LoopRec, ∃ k, dropLoops dest floor ls = ls.drop k ∧
    (∀ j (hj : j < ls.length), j < k → floor < ls.length - j ∧ ¬((ls[j]).start ≤ dest ∧ dest ≤ (ls[j]).last)) ∧
    (∀ hk : k < ls.length, ls.length - k ≤ floor ∨ (ls[k]).start ≤ dest ∧ dest ≤ (ls[k]).last)
  | [] => ⟨0, rfl, fun _ hj => absurd hj (Nat.not_lt_zero _), fun hk => absurd hk (Nat.not_lt_zero _)⟩
  | r :: rs => by
    rw [dropLoops]
    by_cases hc : rs.length < floor ∨ (r.start ≤ dest ∧ dest ≤ r.last)
    · rw [if_pos hc]
      exact ⟨0, rfl, fun _ _ hj => absurd hj (Nat.not_lt_zero _), fun _ => hc.imp_left fun h => h⟩
    · rw [if_neg hc]
      obtain ⟨k, e, hl, hk⟩ := dropLoops_eq_drop dest floor rs
      rw [not_or, Nat.not_lt] at hc
      refine ⟨k + 1, e, fun j hj hjk => ?_, fun h => ?_⟩
      · cases j with
        | zero => exact ⟨Nat.lt_succ_of_le hc.1, hc.2⟩
        | succ j => simpa using hl j (by simpa using hj) (by omega)
      · simpa using hk (by simpa using h)

/-- What a taken branch leaves. -/
theorem branch_completes {s u : State} (q : onlyQueues s u) (h : Hdr) (d : Nat) :
    ∃ t, branch h d u = .next t ∧ s.wentTo t h d ∧ t.st.loops = dropLoops d s.st.floor s.st.loops ∧ s.onlyMe t ∧
      s.me.onlyRegs t.me ∧ s.me.sameBut t.me [] ∧ ∀ k, t.me.fifo k = u.me.fifo k := by
  obtain ⟨t, e, w, o, hs, m⟩ := transfer_setSt h d u { u.st with loops := dropLoops d u.st.floor u.st.loops }
  refine ⟨t, e, wentTo_of_sameFlow (sameFlow_of_onlyQueues q) w, ?_, State.onlyMe_trans q.1 o, ?_, fun x r _ => ?_, fun k => ?_⟩
  · rw [hs, onlyQueues_st q]
    rfl
  · rw [m]
    exact Core.onlyRegs_leave (Core.onlyRegs_of_onlyQueues q) _ _ rfl
  · rw [m]
    refine (Core.comes_leave _ _ _ _ _ ?_).trans (onlyQueues_comes q x r)
    rfl
  · rw [m, Core.fifo_leave]

/-- What an instruction that retires after pops leaves. -/
theorem retire_popped {s u : State} (q : onlyQueues s u) (h : Hdr) :
    ∃ t, retire h u = .next t ∧ s.wentOn t h ∧ s.onlyMe t ∧ s.me.onlyRegs t.me ∧ s.me.sameBut t.me [] ∧
      ∀ k, t.me.fifo k = u.me.fifo k := by
  obtain ⟨t, e, w, o, m⟩ := retire_spec h u
  obtain ⟨hc, -, -⟩ := retire_keeps e
  refine ⟨t, e, wentOn_of_sameFlow (sameFlow_of_onlyQueues q) w, State.onlyMe_trans q.1 o, ?_, fun x r _ => ?_, fun k => ?_⟩
  · rw [m]
    exact Core.onlyRegs_leave (Core.onlyRegs_of_onlyQueues q) _ _ (by unfold Stream.advance; rfl)
  · rw [hc, onlyQueues_comes q]
  · rw [m, Core.fifo_leave]

theorem keepGuard_branch (g : Nat) (h : Hdr) (d : Nat) (s : State) : keepGuard g (branch h d s) = branch h d s :=
  keepGuard_transfer ..

/-- The outcome queues that a stream may pop are those of ports 2 and 3. -/
theorem isPopB_port {x : Bool} {d : Desc} (h : d.isPopB x = true) : ∃ c, d = .port c ∧ 2 ≤ c.toNat ∧ c.toNat < 4 := by
  cases d with
  | port c =>
    refine ⟨c, rfl, ?_⟩
    cases x
    · obtain rfl : c = 3 := by simpa [Desc.isPopB] using h
      decide
    · obtain rfl : c = 2 := by simpa [Desc.isPopB] using h
      decide
  | _ => exact absurd h nofun

theorem Core.fifo_setFifo (c : Core) {k : Nat} (hk : k < 4) (f : Fifo) : (c.setFifo k f).fifo k = f := by
  match k, hk with
  | 0, _ | 1, _ | 2, _ | 3, _ => rfl

/-- A pop of a queue with an entry removes the oldest. -/
theorem Core.fifo_pop {c : Core} {k t : Nat} (hk : k < 4) (h : 0 < c.poppable k t) :
    ∃ e, (c.fifo k).entries = e :: ((c.pop k).2.fifo k).entries := by
  rw [Core.poppable, if_neg (by omega), if_neg (by omega)] at h
  rw [Core.pop, if_neg (by omega), if_neg (by omega)]
  cases he : (c.fifo k).entries with
  | nil => rw [he] at h; exact absurd h (Nat.lt_irrefl 0)
  | cons e es =>
    refine ⟨e, ?_⟩
    dsimp only
    rw [he, Core.fifo_setFifo c hk]

/-- An outcome queue that serves a source has an entry, which the source takes. -/
theorem fifo_take_outcome {s : State} {q : Desc} (hq : q.isPopB s.cur.x = true) (hn : s.serves (srcNeeds s.cur.x q)) (k : Nat)
    (hk : namesPort q k) : ∃ e, (s.me.fifo k).entries = e :: ((s.take q).2.me.fifo k).entries := by
  obtain ⟨c, rfl, -, h4⟩ := isPopB_port hq
  obtain ⟨c', hc, rfl⟩ := hk
  cases hc
  have hp : 1 ≤ s.me.poppable c.toNat s.now := by
    have := hn.1
    simp only [State.met, srcNeeds, needs, Bool.and_eq_true] at this
    simpa using this.1.1.2
  obtain ⟨e, he⟩ := Core.fifo_pop h4 hp
  refine ⟨e, ?_⟩
  rw [he, State.take, State.me_setMe]

/-- What BRQ and BRQN complete with. -/
theorem branchQ_completes {i : Instr} {h : Hdr} {q : Desc} {off : BitVec 19} {want : Bool} {s : State}
    (he : exec i s = branchQ i h q off want s) (hq : s.issues i → q.isPopB s.cur.x = true) (hi : s.issues i)
    (hn : s.serves (srcNeeds s.cur.x q)) :
    ∃ t, exec i s = .next t ∧ (∀ k, namesPort q k → ∃ e, (s.me.fifo k).entries = e :: (t.me.fifo k).entries) ∧
      (if (s.take q).1.getLsbD 0 = want then
        s.wentTo t h (s.offTarget off) ∧ t.st.loops = dropLoops (s.offTarget off) s.st.floor s.st.loops ∧ s.onlyMe t ∧
          s.me.onlyRegs t.me ∧ s.me.sameBut t.me []
       else s.wentOn t h ∧ s.onlyMe t ∧ s.me.onlyRegs t.me ∧ s.me.sameBut t.me []) := by
  rw [he, branchQ, issue_eq hi, withNeeds_eq hn]
  dsimp only
  rw [bitAt_toNat]
  have hp := fifo_take_outcome (hq hi) hn
  split
  · obtain ⟨t, e, w, l, o, r, b, f⟩ := branch_completes (onlyQueues_take s q) h (s.offTarget off)
    refine ⟨t, by rw [keepGuard_branch, e], fun k hk => ?_, w, l, o, r, b⟩
    rw [f]
    exact hp k hk
  · obtain ⟨t, e, w, o, r, b, f⟩ := retire_popped (onlyQueues_take s q) h
    refine ⟨t, by rw [keepGuard_retire, e], fun k hk => ?_, w, o, r, b⟩
    rw [f]
    exact hp k hk

/-- Settles O24: a branch transfers or retires after its pop, and a transfer drops loop records from the innermost on. -/
theorem branchResults : Obligations.BranchResults := by
  unfold Obligations.BranchResults
  refine ⟨dropLoops_eq_drop, fun s h off q r => ⟨fun hi => ?br, fun hi hn => ?jmp, fun hi hn => ?brq, fun hi hn => ?brqn⟩⟩
  case br =>
    obtain ⟨t, e, w, l, o, k, b, -⟩ := branch_completes (onlyQueues_refl s) h (s.offTarget off)
    refine ⟨t, ?_, w, l, o, k, b⟩
    rw [show exec (.br h off) s = execBr h off s from rfl, execBr, issue_eq hi, keepGuard_branch, e]
  case jmp =>
    obtain ⟨t, e, w, l, o, k, b, -⟩ := branch_completes (onlyQueues_refl s) h (s.regTarget (s.take r).1)
    refine ⟨t, ?_, w, l, o, k, b⟩
    rw [show exec (.jmp h r) s = execJmp h r s from rfl, execJmp, issue_eq hi, withNeeds_eq hn, keepGuard_branch, e]
  case brq =>
    refine branchQ_completes (want := true) rfl (fun hi => ?_) hi hn
    exact (Bool.and_eq_true _ _ ▸ fieldsOk_of_issues rfl hi : q.isPopB s.cur.x = true ∧ _).1
  case brqn =>
    obtain ⟨t, e, p, c⟩ := branchQ_completes (want := false) rfl
      (fun hi => (Bool.and_eq_true _ _ ▸ fieldsOk_of_issues rfl hi : q.isPopB s.cur.x = true ∧ _).1) hi hn
    refine ⟨t, e, p, ?_⟩
    cases hb : (s.take q).1.getLsbD 0
    · rw [hb, if_pos rfl] at c
      exact c
    · rw [hb, if_neg nofun] at c
      exact c

/-! ### LOOP and BREAKL (06 R149, R151) -/

/-- What an instruction leaves that leaves its stream in a given state. -/
theorem leave_spec (s : State) (st : Stream) :
    ∃ t, (.next (s.setMe ((s.me.setStream s.cur.x st).issued s.cur.x)) : Out) = .next t ∧ t.cur = s.cur ∧ s.onlyMe t ∧ t.st = st :=
  ⟨_, rfl, rfl, State.onlyMe_setMe .., st_of_left rfl (State.me_setMe ..)⟩

/-- Settles O25: the cases of LOOP and BREAKL in the order in which they test. -/
theorem loopInstructionResults : Obligations.LoopInstructionResults := by
  unfold Obligations.LoopInstructionResults
  intro s h n off
  refine ⟨fun hi hn => ?loop, fun hi => ?breakl⟩
  case loop =>
    rw [show exec (.loop h n off) s = execLoop h n off s from rfl, execLoop, issue_eq hi, withNeeds_eq hn]
    dsimp only
    have hoff : 1 ≤ off.toNat := by
      have hf : (tripOk s.cur.x n && loopOffOk off) = true := fieldsOk_of_issues rfl hi
      rw [Bool.and_eq_true, loopOffOk, Bool.and_eq_true] at hf
      exact of_decide_eq_true hf.2.1
    by_cases hl : s.wrap ≤ s.st.pc + off.toNat
    · rw [if_pos hl, keepGuard_trap]
      exact ⟨_, rfl, fun _ => rfl, fun h => absurd hl (Nat.not_le.2 h), fun h => absurd hl (Nat.not_le.2 h),
        fun h => absurd hl (Nat.not_le.2 h)⟩
    rw [if_neg hl]
    by_cases hc : (s.take n).1.toNat % 2 ^ 32 = 0
    · rw [if_pos hc, keepGuard_transfer]
      obtain ⟨t, e, w, o, m⟩ := transfer_spec h ((s.st.pc + off.toNat + 1) % s.wrap) s
      exact ⟨t, e, fun h => absurd h hl, fun _ _ => ⟨w, by rw [st_of_left w.1 m]; rfl, o⟩, fun _ h => absurd hc h,
        fun _ h => absurd hc h⟩
    rw [if_neg hc]
    by_cases h4 : 4 ≤ s.st.loops.length
    · rw [if_pos h4, keepGuard_trap]
      exact ⟨_, rfl, fun h => absurd h hl, fun _ h => absurd h hc, fun _ _ _ => rfl, fun _ _ h => absurd h4 (Nat.not_le.2 h)⟩
    rw [if_neg h4, Nat.mod_eq_of_lt (by omega : s.st.pc + 1 < s.wrap)]
    obtain ⟨t, e, hc', o, hs⟩ := leave_spec s ({ s.st with loops :=
      { start := s.st.pc + 1, last := s.st.pc + off.toNat, rem := (s.take n).1.toNat % 2 ^ 32 } :: s.st.loops }.left
        (s.now + 1 + h.stall.toNat) (s.st.pc + 1))
    refine ⟨t, by rw [e, keepGuard_eq (by rw [hs]; rfl)], fun h => absurd h hl, fun _ h => absurd h hc, fun _ _ h => absurd h h4,
      fun _ _ _ => ?_⟩
    rw [hs]
    exact ⟨hc', rfl, rfl, o, rfl, rfl⟩
  case breakl =>
    rw [show exec (.breakl h) s = execBreakl h s from rfl, execBreakl, issue_eq hi]
    cases hl : s.st.loops with
    | nil =>
      dsimp only
      rw [keepGuard_trap]
      exact ⟨_, rfl, fun _ => rfl, nofun⟩
    | cons r rs =>
      dsimp only
      by_cases hf : s.st.floor ≤ rs.length
      · rw [if_pos hf, keepGuard_transfer]
        obtain ⟨t, e, w, o, hs, -⟩ := transfer_setSt h ((r.last + 1) % s.wrap) s { s.st with loops := rs }
        refine ⟨t, e, fun h => absurd (Nat.lt_succ_of_le hf) (Nat.not_lt.2 h), fun q qs hq _ => ?_⟩
        cases hq
        exact ⟨w, by rw [hs]; rfl, o⟩
      · rw [if_neg hf, keepGuard_trap]
        refine ⟨_, rfl, fun _ => rfl, fun q qs hq h => ?_⟩
        cases hq
        exact absurd h hf

/-! ### Starting and ending the X-stream (06 R153, R154) -/

theorem State.onlyMe_reqs {s t : State} (h : s.onlyMe t) : t.reqs = s.reqs := by
  obtain ⟨h, -⟩ := h
  rw [← h]

theorem State.onlyMe_mem {s t : State} (h : s.onlyMe t) : t.mem = s.mem := by
  obtain ⟨h, -⟩ := h
  rw [← h]

/-- What a waiting instruction leaves, its guard kept. -/
theorem keepGuard_stall_spec (g : Nat) (s : State) :
    ∃ t st, keepGuard g (stall s) = .next t ∧ s.waited t ∧ s.onlyMe t ∧ t.me = s.me.setStream s.cur.x st ∧ st.stage = s.st.stage ∧
      t.reqs = s.reqs := by
  obtain ⟨t, e, ⟨w1, w2, w3⟩, o, m⟩ := stall_spec s
  have hq := State.onlyMe_reqs o
  rw [e]
  rcases keepGuard_cases g (.next t) with e' | ⟨t', e', e''⟩
  · exact ⟨t, _, e', ⟨w1, w2, w3⟩, o, m, rfl, hq⟩
  · cases e'
    refine ⟨_, { t.st with guarded := some g }, e'', ⟨w1, ?_, ?_⟩, State.onlyMe_trans o (State.onlyMe_setMe ..), ?_, ?_, hq⟩
    · rw [State.st_setSt, ← w2]
    · rw [State.st_setSt, ← w3]
    · rw [State.me_setSt, m, w1]
      exact Core.setStream_setStream ..
    · show t.st.stage = _
      unfold State.st
      rw [m, w1, Core.setStream_stream]
      rfl

/-- A stream that comes to hold what it held, whatever else of it changes. -/
theorem Core.sameBut_x (c : Core) {t : Stream} (h : t.landings = c.x.landings) : c.sameBut { c with x := t } [] := fun x r _ =>
  Core.comes_congr ⟨rfl, rfl, rfl, rfl, rfl, rfl, rfl⟩ rfl (by cases x with | false => rfl | true => exact h)

/-- Settles O27: XGO by the state of the X-stream, XEND by its outstanding results. -/
theorem streamStartAndEnd : Obligations.StreamStartAndEnd := by
  unfold Obligations.StreamStartAndEnd
  intro s h r
  refine ⟨fun hi hn => ?xgo, fun hi => ?xend⟩
  case xgo =>
    obtain ⟨hx, -⟩ := aStream_of_issues rfl hi
    rw [show exec (.xgo h r) s = execXgo h r s from rfl, execXgo, issue_eq hi, withNeeds_eq hn]
    cases hr : s.me.x.run
    · rw [if_neg nofun, keepGuard_retire]
      dsimp only
      generalize hc : ({ s.me with x := _ } : Core) = c
      have hf : sameFlow s (s.setMe c) := by
        subst hc
        exact sameFlow_setMe (by unfold State.st; rw [hx]; rfl) (by unfold State.st; rw [hx]; rfl) (by unfold State.st; rw [hx]; rfl) rfl rfl
      obtain ⟨t, e, w, o, m⟩ := retire_spec h (s.setMe c)
      obtain ⟨hk, -, -⟩ := retire_keeps e
      rw [State.me_setMe] at m hk
      rw [show (s.setMe c).cur.x = false from hx] at m
      refine ⟨t, e, State.onlyMe_trans (State.onlyMe_setMe ..) o, nofun, fun _ => ⟨hx, wentOn_of_sameFlow hf w, ?_⟩⟩
      have hb : s.me.sameBut t.me [] := fun y q hq => by
        rw [hk]
        subst hc
        exact Core.sameBut_x s.me (by rfl) y q hq
      rw [m] at hb ⊢
      subst hc
      exact ⟨rfl, rfl, rfl, rfl, rfl, Nat.lt_of_lt_of_le (Nat.lt_succ_self _) (Nat.le_max_right ..), hb, rfl, rfl, rfl⟩
    · rw [if_pos rfl]
      obtain ⟨t, st, e, w, o, m, -⟩ := keepGuard_stall_spec (s.laneMask (Instr.xgo h r).hdr) s
      refine ⟨t, e, o, fun _ => ⟨w, ?_⟩, nofun⟩
      rw [m, hx]
      rfl
  case xend =>
    obtain ⟨hx, -⟩ := xStream_of_issues rfl hi
    rw [show exec (.xend h) s = execXend h s from rfl, execXend, issue_eq hi]
    cases hb : s.busy
    · rw [if_neg nofun]
      obtain ⟨t, e, w, o, m⟩ := retire_spec h s
      obtain ⟨hc, -, -⟩ := retire_keeps e
      rw [e]
      dsimp only
      have hw : t.me.x.waitFrom = none := by
        rw [m, hx]
        rfl
      rw [keepGuard_eq (by unfold State.st; rw [State.me_setMe, show (t.setMe _).cur = s.cur from w.1, hx]; exact hw)]
      refine ⟨_, rfl, State.onlyMe_trans o (State.onlyMe_setMe ..), nofun, fun _ => ?_⟩
      rw [State.me_setMe]
      refine ⟨rfl, rfl, rfl, rfl, fun y q hq => ?_, ?_⟩
      · exact (Core.sameBut_x t.me (by rfl) y q hq).trans (hc y q)
      · rw [m]
        cases s.cur.x <;> rfl
    · rw [if_pos rfl]
      obtain ⟨t, st, e, w, o, -⟩ := keepGuard_stall_spec (s.laneMask (Instr.xend h).hdr) s
      exact ⟨t, e, o, fun _ => w, nofun⟩

/-! ### Calls and returns (06 R152, 19 R421) -/

/-- Base of the current stream's spill area (16 R360, 19 R421). -/
def State.spillBase (s : State) : Nat :=
  let sv := (s.me.svGet (if isHub s.cur.core then 0x23 else if s.cur.x then 0xA else 0x9)).toNat
  if isHub s.cur.core then sv / 8 % 2 ^ 54 * 8 else sv % 2 ^ 16

/-- Entries of the current stream's spill area. -/
def State.spillCount (s : State) : Nat :=
  let sv := (s.me.svGet (if isHub s.cur.core then 0x23 else if s.cur.x then 0xA else 0x9)).toNat
  if isHub s.cur.core then sv / 2 ^ 57 % 2 ^ 7 else sv / 2 ^ 16 % 2 ^ 16

theorem spillArea_eq (s : State) : s.spillArea = (s.spillBase, s.spillCount) := by
  unfold State.spillArea State.spillBase State.spillCount
  split
  · rfl
  · simp only [fld, Nat.pow_zero, Nat.div_one]

/-- The return entry of a call from the current slot. -/
def State.callEntry (s : State) : RetEntry := { slot := (s.st.pc + 1) % s.wrap, floor := s.st.floor }

/-- A call after the current stream's oldest entry has been spilled. -/
def State.spilt (s t : State) (h : Hdr) (d : Nat) : Prop :=
  s.wentTo t h d ∧ t.st.rets = s.callEntry :: s.st.rets.dropLast ∧ t.st.floor = s.st.loops.length ∧ t.st.spilled = s.st.spilled + 1

/-- What a call leaves, with room in its return store, with the spill area full, and with room there. -/
def State.called (s t : State) (h : Hdr) (d : Nat) : Prop :=
  let slot := s.spillBase + 8 * s.st.spilled
  (s.st.rets.length < 16 → s.wentTo t h d ∧ t.st.rets = s.callEntry :: s.st.rets ∧ t.st.floor = s.st.loops.length ∧
    t.st.loops = s.st.loops ∧ t.st.spilled = s.st.spilled ∧ t.st.lmq = s.st.lmq ∧ s.onlyMe t) ∧
  (16 ≤ s.st.rets.length → s.spillCount ≤ s.st.spilled → t = s.trapOn s.cur.core s.cur.x 0x08 0 0 0) ∧
  (∀ o, s.st.rets.getLast? = some o → 16 ≤ s.st.rets.length → s.st.spilled < s.spillCount →
    (isHub s.cur.core = false → s.me.lmBlocked slot 8 true = false →
      s.spilt t h d ∧ t.st.lmq = s.st.lmq ++ [{ cyc := s.now, addr := slot, bytes := leBytes o.word 8 }]) ∧
    (∀ pg u, isHub s.cur.core = true → s.reaches slot false true pg u →
      s.spilt t h d ∧ u.requests t (pg.addr slot) (.store (leBytes o.word 8)) ∧ t.mem = (u.markDirty pg).mem))

/-- A call's push and transfer. -/
def pushCall (h : Hdr) (dest : Nat) (s : State) : Out :=
  transfer h dest (s.setSt { s.st with rets := s.callEntry :: s.st.rets, floor := s.st.loops.length })

/-- The current stream after its oldest return entry has left it. -/
def State.dropOldest (s : State) (k : Nat) : State := s.setSt { s.st with rets := s.st.rets.dropLast, spilled := k + 1 }

/-- The cases of a call. -/
theorem callTo_cases (h : Hdr) (dest : Nat) (s : State) : callTo h dest s =
    (if s.st.rets.length < 16 then pushCall h dest s
     else if s.spillCount ≤ s.st.spilled then trap 0x08 0 0 0 s
     else
       let slot := s.spillBase + 8 * s.st.spilled
       let bs := leBytes ((s.st.rets.getLast?.map RetEntry.word).getD 0) 8
       if isHub s.cur.core then
         withPage slot false true s fun t u => pushCall h dest (((u.markDirty t).plainStore t slot bs).dropOldest s.st.spilled)
       else if s.me.lmBlocked slot 8 true then stall s
       else pushCall h dest ((s.lmStore slot bs).dropOldest s.st.spilled)) := by
  unfold callTo
  rw [spillArea_eq]
  rfl

theorem withPage_next {va : Nat} {rd wr : Bool} {s : State} {k : TlbEntry → State → Out} (h : ∀ t u, ∃ v, k t u = .next v) :
    ∃ t, withPage va rd wr s k = .next t := by
  unfold withPage
  split
  · exact h ..
  · exact trap_next ..
  · exact stall_next ..

theorem callTo_next (h : Hdr) (dest : Nat) (s : State) : ∃ t, callTo h dest s = .next t := by
  rw [callTo_cases]
  split
  · exact transfer_next ..
  split
  · exact trap_next ..
  dsimp only
  split
  · exact withPage_next fun _ _ => transfer_next ..
  split
  · exact stall_next ..
  · exact transfer_next ..

/-- What a call's push leaves. -/
theorem pushCall_spec (h : Hdr) (dest : Nat) (s : State) :
    ∃ t, (∀ g, keepGuard g (pushCall h dest s) = .next t) ∧ s.wentTo t h dest ∧ s.onlyMe t ∧ t.st.rets = s.callEntry :: s.st.rets ∧
      t.st.floor = s.st.loops.length ∧ t.st.loops = s.st.loops ∧ t.st.spilled = s.st.spilled ∧ t.st.lmq = s.st.lmq := by
  obtain ⟨t, e, w, o, hs, -⟩ := transfer_setSt h dest s { s.st with rets := s.callEntry :: s.st.rets, floor := s.st.loops.length }
  refine ⟨t, fun g => by rw [pushCall, keepGuard_transfer, e], w, o, ?_⟩
  rw [hs]
  exact ⟨rfl, rfl, rfl, rfl, rfl⟩

/-- What a call leaves after a spill from a state whose stream stands where it stood. -/
theorem pushCall_spilt {s u : State} (hf : sameFlow s u) (hw : u.wrap = s.wrap) (hr : u.st.rets = s.st.rets) (h : Hdr) (dest : Nat) :
    ∃ t, (∀ g, keepGuard g (pushCall h dest (u.dropOldest s.st.spilled)) = .next t) ∧ s.spilt t h dest ∧
      t.st.lmq = u.st.lmq ∧ u.onlyMe t := by
  have hd : sameFlow u (u.dropOldest s.st.spilled) := sameFlow_setSt rfl rfl rfl
  have hst : (u.dropOldest s.st.spilled).st = { u.st with rets := u.st.rets.dropLast, spilled := s.st.spilled + 1 } := State.st_setSt ..
  obtain ⟨t, e, w, o, h1, h2, -, h4, h5⟩ := pushCall_spec h dest (u.dropOldest s.st.spilled)
  have hsf := sameFlow_trans hf hd
  obtain ⟨-, hp, hl, hfl, -, -⟩ := hf
  refine ⟨t, e, ⟨wentTo_of_sameFlow hsf w, ?_, ?_, ?_⟩, ?_, State.onlyMe_trans (State.onlyMe_setMe ..) o⟩
  · rw [h1, State.callEntry, State.callEntry, hst, ← hr, show (u.dropOldest s.st.spilled).wrap = u.wrap from rfl, hw, ← hp, ← hfl]
  · rw [h2, hst, ← hl]
  · rw [h4, hst]
  · rw [h5, hst]

theorem onlyReads.cores {s t : State} (h : onlyReads s t) : t.cores = s.cores := by unfold onlyReads at h; rw [← h]
theorem onlyReads.cur {s t : State} (h : onlyReads s t) : t.cur = s.cur := by unfold onlyReads at h; rw [← h]
theorem onlyReads.reqs {s t : State} (h : onlyReads s t) : t.reqs = s.reqs := by unfold onlyReads at h; rw [← h]

theorem sameFlow_of_onlyReads {s t : State} (h : onlyReads s t) : sameFlow s t := sameFlow_of_cores h.cores h.cur

theorem st_of_cores {s t : State} (hc : t.cores = s.cores) (hu : t.cur = s.cur) : t.st = s.st := by
  unfold State.st State.me
  rw [hu, core_congr hc]

theorem mem_send (s : State) (r : Req) : (s.send r).mem = s.mem := by
  unfold State.send
  dsimp only
  split <;> rfl

theorem wrap_of_cur {s u : State} (h : u.cur = s.cur) : u.wrap = s.wrap := by
  unfold State.wrap
  rw [h]

/-- What a sent request adds. -/
theorem reqs_send (s : State) (r : Req) : ∃ q, (s.send r).reqs = s.reqs ++ [q] ∧ q.pa = r.pa ∧ q.kind = r.kind ∧ q.owner = r.owner ∧
    q.st = r.st ∧ q.id = s.nextId := by
  unfold State.send
  dsimp only
  split
  · exact ⟨_, rfl, rfl, rfl, rfl, rfl, rfl⟩
  · exact ⟨_, rfl, rfl, rfl, rfl, rfl, rfl⟩

/-- A Welwick core stores at the home, for it has no cluster. -/
theorem plainStore_hub {s : State} (hh : isHub s.cur.core = true) (t : TlbEntry) (va : Nat) (bs : List Byte) :
    s.plainStore t va bs = s.send { s.newReq (t.addr va) va (.store bs) s.st.carried with cache := false } := by
  have hc : s.meOwner.cluster = none := if_pos hh
  unfold State.plainStore State.flushDirty
  rw [hc]
  dsimp only [Option.bind]
  rw [ite_self]

/-- What a call leaves. -/
theorem called_of_callTo {s t : State} {h : Hdr} {d g : Nat} (e : keepGuard g (callTo h d s) = .next t) : s.called t h d := by
  rw [callTo_cases] at e
  refine ⟨fun hl => ?_, fun hl hc => ?_, fun o ho hl hc => ⟨fun hh hb => ?_, fun pg u hh hr => ?_⟩⟩
  · rw [if_pos hl] at e
    obtain ⟨t', e', w, o, h1, h2, h3, h4, h5⟩ := pushCall_spec h d s
    obtain rfl : t' = t := by rw [e'] at e; injection e
    exact ⟨w, h1, h2, h3, h4, h5, o⟩
  all_goals rw [if_neg (Nat.not_lt.2 hl)] at e
  · rw [if_pos hc, keepGuard_trap] at e
    injection e with e
    exact e.symm
  all_goals
    rw [if_neg (Nat.not_le.2 hc)] at e
    dsimp only at e
    rw [ho, hh] at e
  · rw [if_neg nofun, hb, if_neg nofun] at e
    have hf : sameFlow s (s.lmStore (s.spillBase + 8 * s.st.spilled) (leBytes o.word 8)) := sameFlow_setSt rfl rfl rfl
    have hst : (s.lmStore (s.spillBase + 8 * s.st.spilled) (leBytes o.word 8)).st =
      { s.st with lmq := s.st.lmq ++ [{ cyc := s.now, addr := s.spillBase + 8 * s.st.spilled, bytes := leBytes o.word 8 }] } :=
        State.st_setSt ..
    obtain ⟨t', e', k, q, -⟩ := pushCall_spilt hf rfl (by rw [hst]) h d
    obtain rfl : t' = t := by rw [Option.map_some, Option.getD_some, e'] at e; injection e
    exact ⟨k, by rw [q, hst]⟩
  · have hm := onlyReads_trans (onlyReads_of_reaches hr) (onlyReads_markDirty u pg)
    have hum := onlyReads_markDirty u pg
    rw [if_pos rfl, withPage_eq hr, Option.map_some, Option.getD_some, plainStore_hub (by rw [hm.cur, hh])] at e
    generalize hq : State.newReq .. = q at e
    have hn := onlyUnit_send (u.markDirty pg) { q with cache := false }
    obtain ⟨q', hq1, hq2, hq3, hq4, hq5, -⟩ := reqs_send (u.markDirty pg) { q with cache := false }
    have hf := sameFlow_trans (sameFlow_of_onlyReads hm) (sameFlow_of_onlyUnit hn)
    have hst := (st_of_cores hn.cores hn.cur).trans (st_of_cores hm.cores hm.cur)
    obtain ⟨t', e', k, -, o⟩ := pushCall_spilt hf (wrap_of_cur hf.1) (by rw [hst]) h d
    obtain rfl : t' = t := by rw [e'] at e; injection e
    subst hq
    refine ⟨k, ⟨q', ?_, hq2, hq3, hq4.trans ?_, hq5⟩, ?_⟩
    · rw [State.onlyMe_reqs o, hq1, hum.reqs]
    · show State.meOwner _ = _
      unfold State.meOwner
      rw [hum.cur]
    · rw [State.onlyMe_mem o, mem_send]

/-- What a return leaves. -/
def State.returned (s t : State) (h : Hdr) (slot floor : Nat) (rs : List RetEntry) : Prop :=
  let mine := s.st.loops.drop (s.st.loops.length - s.st.floor)
  s.wentTo t h slot ∧ t.st.rets = rs ∧ t.st.floor = min floor mine.length ∧
    t.st.loops = dropLoops slot (min floor mine.length) mine ∧ s.onlyMe t

theorem returnTo_spec (h : Hdr) (e : RetEntry) {s : State} {st : Stream} (hp : st.pc = s.st.pc) (hl : st.loops = s.st.loops)
    (hf : st.floor = s.st.floor) :
    ∃ t, (∀ g, keepGuard g (returnTo h e (s.setSt st)) = .next t) ∧ s.returned t h e.slot e.floor st.rets ∧ t.st.spilled = st.spilled := by
  unfold returnTo
  rw [State.st_setSt]
  dsimp only
  rw [hl, hf]
  obtain ⟨t, e', w, o, hs, -⟩ := transfer_setSt h e.slot (s.setSt st)
    { st with loops := dropLoops e.slot (min e.floor (s.st.loops.drop (s.st.loops.length - s.st.floor)).length)
                (s.st.loops.drop (s.st.loops.length - s.st.floor)),
              floor := min e.floor (s.st.loops.drop (s.st.loops.length - s.st.floor)).length }
  refine ⟨t, fun g => by rw [← e']; exact keepGuard_transfer .., ⟨wentTo_of_sameFlow (sameFlow_setSt hp hl hf) w, ?_, ?_, ?_,
    State.onlyMe_trans (State.onlyMe_setMe ..) o⟩, ?_⟩
  all_goals rw [hs]; rfl

/-- What RET with an empty store and an entry spilled leaves. -/
def State.refilled (s t : State) (h : Hdr) (w : Nat) : Prop :=
  s.returned t h (w % 2 ^ 12) (w / 2 ^ 12 % 8) [] ∧ t.st.spilled = s.st.spilled - 1

/-- RET that refills. -/
def refill (h : Hdr) (w : Nat) (s : State) : Out :=
  returnTo h (retOf w) (s.setSt { s.st with spilled := s.st.spilled - 1 })

theorem refill_spec (h : Hdr) (w : Nat) {s : State} (hr : s.st.rets = []) :
    ∃ t, (∀ g, keepGuard g (refill h w s) = .next t) ∧ s.refilled t h w := by
  obtain ⟨t, e, k, hs⟩ := returnTo_spec (s := s) (st := { s.st with spilled := s.st.spilled - 1 }) h (retOf w) rfl rfl rfl
  refine ⟨t, e, ?_, hs⟩
  have : s.returned t h (w % 2 ^ 12) (w / 2 ^ 12 % 8) s.st.rets := k
  rwa [hr] at this

/-- RET of a Welwick core with an empty store asks the home for the entry. -/
def askEntry (a : Nat) (s : State) : Out :=
  withPage a true false s fun t s =>
    stallAt (.request s.nextId) (s.send (s.newReq (t.addr a) a (.sync 0 true true 0) (s.vecOf (dieOf s.cur.core))))

/-- The cases of RET with an empty store. -/
theorem execRet_empty {s : State} {h : Hdr} (hi : s.issues (.ret h)) (hr : s.st.rets = []) :
    execRet h s = keepGuard (s.laneMask (Instr.ret h).hdr)
      (if s.st.spilled = 0 then trap 0x09 0 0 0 s
       else if isHub s.cur.core then
         (match s.st.stage with
          | .answered _ v => refill h v s
          | .request id => stallAt (.request id) s
          | _ => askEntry (s.spillBase + 8 * (s.st.spilled - 1)) s)
       else if s.me.lmBlocked (s.spillBase + 8 * (s.st.spilled - 1)) 8 false then stall s
       else refill h (s.me.lmRd s.cur.x (s.spillBase + 8 * (s.st.spilled - 1)) 8) s) := by
  rw [execRet, issue_eq hi]
  dsimp only
  rw [spillArea_eq]
  split
  · next h => exact absurd (hr.symm.trans h) nofun
  · rfl

/-- What an instruction leaves that waits at a stage. -/
theorem keepGuard_stallAt_spec (g : Nat) (k : Stage) (s : State) :
    ∃ t, keepGuard g (stallAt k s) = .next t ∧ s.waited t ∧ s.onlyMe t ∧ t.st.stage = k ∧ t.reqs = s.reqs := by
  unfold stallAt
  generalize hst : ({ s.st with stage := k, waitFrom := _ } : Stream) = st
  obtain ⟨t, st', e, ⟨w1, w2, w3⟩, o, m, hs, hr⟩ := keepGuard_stall_spec g (s.setSt st)
  have hf : sameFlow s (s.setSt st) := by
    subst hst
    exact sameFlow_setSt rfl rfl rfl
  obtain ⟨k1, k2, -, -, k5, -⟩ := hf
  refine ⟨t, e, ⟨w1.trans k1, w2.trans k2, by rw [w3, k5]⟩, State.onlyMe_trans (State.onlyMe_setMe ..) o, ?_, hr⟩
  have ht : t.st = st' := by
    unfold State.st
    rw [m, w1, Core.setStream_stream]
  rw [ht, hs, State.st_setSt, ← hst]

theorem askEntry_spec {s u : State} {a : Nat} {pg : TlbEntry} (h : s.reaches a true false pg u) (g : Nat) :
    ∃ t, keepGuard g (askEntry a s) = .next t ∧ s.waited t ∧ u.requests t (pg.addr a) (.sync 0 true true 0) ∧
      ∃ q, t.reqs.getLast? = some q ∧ t.st.stage = .request q.id := by
  have hu := onlyReads_of_reaches h
  rw [askEntry, withPage_eq h]
  generalize hq : State.newReq .. = q
  obtain ⟨q', hq1, hq2, hq3, hq4, hq5, hq6⟩ := reqs_send u q
  have hn := onlyUnit_send u q
  obtain ⟨t, e, ⟨w1, w2, w3⟩, -, hs, hr⟩ := keepGuard_stallAt_spec g (.request u.nextId) (u.send q)
  obtain ⟨k1, k2, -, -, k5, -⟩ := sameFlow_trans (sameFlow_of_onlyReads hu) (sameFlow_of_onlyUnit hn)
  rw [hq1] at hr
  subst hq
  exact ⟨t, e, ⟨w1.trans k1, w2.trans k2, by rw [w3, k5]⟩, ⟨q', hr, hq2, hq3, hq4, hq5⟩, q', by rw [hr, List.getLast?_concat],
    by rw [hs, hq6]⟩

theorem execRet_next (h : Hdr) (s : State) : ∃ t, execRet h s = .next t := by
  refine issue_next ?_
  dsimp only
  split
  · exact transfer_next ..
  split
  · exact trap_next ..
  split
  · split
    · exact transfer_next ..
    · exact stallAt_next ..
    · exact withPage_next fun _ _ => stallAt_next ..
  split
  · exact stall_next ..
  · exact transfer_next ..

/-- Settles O26: calls by the room in the return store and in the spill area, returns by what the store holds. -/
theorem callAndReturnResults : Obligations.CallAndReturnResults := by
  unfold Obligations.CallAndReturnResults
  intro s h off r
  refine ⟨fun hi => ?call, fun hi hn => ?calli, fun hi => ?ret⟩
  case call =>
    obtain ⟨t, e⟩ := keepGuard_next (g := s.laneMask (Instr.call h off).hdr) (callTo_next h (s.offTarget off) s)
    refine ⟨t, ?_, called_of_callTo e⟩
    rw [show exec (.call h off) s = execCall h off s from rfl, execCall, issue_eq hi, e]
  case calli =>
    obtain ⟨t, e⟩ := keepGuard_next (g := s.laneMask (Instr.calli h r).hdr) (callTo_next h (s.regTarget (s.take r).1) s)
    refine ⟨t, ?_, called_of_callTo e⟩
    rw [show exec (.calli h r) s = execCalli h r s from rfl, execCalli, issue_eq hi, withNeeds_eq hn, e]
  case ret =>
    obtain ⟨t, e⟩ := execRet_next h s
    refine ⟨t, e, fun r rs hr => ?_, fun hr hk => ?_, fun hh hr hk hb => ?_, fun hh hr hk => ⟨fun ok v hs => ?_, fun pg u hs hp => ?_⟩⟩
    · rw [execRet, issue_eq hi] at e
      dsimp only at e
      rw [hr] at e
      obtain ⟨t', e', k, hs⟩ := returnTo_spec (s := s) (st := { s.st with rets := rs }) h r rfl rfl rfl
      obtain rfl : t' = t := by rw [e'] at e; injection e
      exact ⟨k, hs⟩
    all_goals rw [execRet_empty hi hr] at e
    · rw [if_pos hk, keepGuard_trap] at e
      injection e with e
      exact e.symm
    all_goals rw [if_neg (Nat.ne_of_gt hk), hh] at e
    · have hb : s.me.lmBlocked (s.spillBase + 8 * (s.st.spilled - 1)) 8 false = false := hb
      rw [if_neg nofun, hb, if_neg nofun] at e
      obtain ⟨t', e', k⟩ := refill_spec h (s.me.lmRd s.cur.x (s.spillBase + 8 * (s.st.spilled - 1)) 8) hr
      obtain rfl : t' = t := by rw [e'] at e; injection e
      exact k
    · rw [if_pos rfl, hs] at e
      obtain ⟨t', e', k⟩ := refill_spec h v hr
      obtain rfl : t' = t := by rw [e'] at e; injection e
      exact k
    · rw [if_pos rfl, hs] at e
      obtain ⟨t', e', k⟩ := askEntry_spec (a := s.spillBase + 8 * (s.st.spilled - 1)) hp (s.laneMask (Instr.ret h).hdr)
      obtain rfl : t' = t := by exact Host.Outcome.next.inj (e'.symm.trans e)
      exact k

/-! ### The end of a task and its safe points (06 R155, R161, R162) -/

/-- Memory stands, and every register of the current core comes to hold what it would have held. -/
def keepsRegs (s t : State) : Prop := t.cur = s.cur ∧ t.mem = s.mem ∧ s.me.sameBut t.me []

theorem keepsRegs_trans {s t u : State} (h : keepsRegs s t) (k : keepsRegs t u) : keepsRegs s u := by
  obtain ⟨h1, h2, h3⟩ := h
  obtain ⟨k1, k2, k3⟩ := k
  exact ⟨k1.trans h1, k2.trans h2, fun x r hr => (k3 x r hr).trans (h3 x r hr)⟩

theorem keepsRegs_of_cores {s t : State} (hc : t.cores = s.cores) (hu : t.cur = s.cur) (hm : t.mem = s.mem) : keepsRegs s t := by
  refine ⟨hu, hm, fun x r _ => ?_⟩
  unfold State.me
  rw [hu, core_congr hc]

theorem keepsRegs_setMe {s : State} {c : Core} (h : s.me.sameBut c []) : keepsRegs s (s.setMe c) :=
  ⟨rfl, rfl, by rwa [State.me_setMe]⟩

theorem Core.sameBut_setStream (c : Core) (x : Bool) {t : Stream} (h : t.landings = (c.stream x).landings) :
    c.sameBut (c.setStream x t) [] := fun y r _ => by
  refine Core.comes_congr (sameRegs_setStream ..) (by simp) ?_
  rw [Core.stream_setStream]
  split
  · subst_vars; exact h
  · rfl

theorem keepsRegs_setSt {s : State} {t : Stream} (h : t.landings = s.st.landings) : keepsRegs s (s.setSt t) :=
  keepsRegs_setMe (Core.sameBut_setStream _ _ h)

theorem Core.sameBut_lmFlush (c : Core) (x : Bool) : c.sameBut (c.lmFlush x) [] := fun y r _ =>
  Core.comes_congr (by cases x <;> exact ⟨rfl, rfl, rfl, rfl, rfl, rfl, rfl⟩) (by cases x <;> rfl) (by cases x <;> cases y <;> rfl)

theorem mem_sendBack (s : State) (l : CacheLine) : (s.sendBack l).mem = s.mem := by
  unfold State.sendBack
  split
  · rfl
  · exact mem_send ..

theorem mem_sendBacks (s : State) (l : List CacheLine) : (l.foldl State.sendBack s).mem = s.mem :=
  List.foldlRecOn (motive := fun t => t.mem = s.mem) l State.sendBack rfl fun _ k l _ => (mem_sendBack _ l).trans k

theorem keepsRegs_writeBack (s : State) (n : Nat) (x : Bool) : keepsRegs s (s.writeBack n x) :=
  keepsRegs_of_cores (onlyUnit_sendBacks s _).cores (onlyUnit_sendBacks s _).cur (mem_sendBacks s _)

theorem keepsRegs_afterRelease (s : State) (sc : Nat) : keepsRegs s (s.afterRelease sc) := by
  unfold State.afterRelease
  split
  · exact keepsRegs_of_cores rfl rfl rfl
  · have hl : keepsRegs s (s.setMe (s.me.lmFlush s.cur.x)) := keepsRegs_setMe (Core.sameBut_lmFlush s.me s.cur.x)
    have hp : keepsRegs s (s.preRelease sc) := by
      unfold State.preRelease
      dsimp only
      split
      · exact keepsRegs_trans hl (keepsRegs_writeBack ..)
      · exact hl
    refine keepsRegs_trans hp ?_
    unfold State.postRelease
    dsimp only
    split
    · exact keepsRegs_trans (t := (s.preRelease sc).takeHorizon _) (keepsRegs_of_cores rfl rfl rfl) (keepsRegs_setSt rfl)
    · exact keepsRegs_setSt rfl

/-- TEND of a Welwick core ends its fetching. -/
theorem tend_hub {s : State} {h : Hdr} (hh : isHub s.cur.core = true) (hi : s.issues (.tend h)) (hs : s.sending s.cur.core = false)
    (hr : s.releases 5) :
    ∃ t, exec (.tend h) s = .next t ∧ t.st.run = false ∧ t.st.pc = s.st.pc ∧ t.mem = s.mem ∧ s.me.sameBut t.me [] := by
  have hk := keepsRegs_afterRelease s 5
  have hp : (s.afterRelease 5).st.pc = s.st.pc := (sameFlow_afterRelease s 5).2.1
  obtain ⟨-, km, kr⟩ := keepsRegs_trans hk (keepsRegs_setSt (s := s.afterRelease 5)
    (t := { (s.afterRelease 5).st with run := false, waitFrom := none, stage := .start }) rfl)
  rw [show exec (.tend h) s = execTend h s from rfl, execTend, issue_eq hi, if_pos hh, hs, if_neg nofun, withRelease_eq hr,
    keepGuard_eq (by rw [State.st_setSt])]
  exact ⟨_, rfl, by rw [State.st_setSt], by rw [State.st_setSt, hp], km, kr⟩

theorem mapTask_me (s : State) (f : Task → Task) : s.mapTask s.cur.core f = s.setMe { s.me with task := s.me.task.map f } := rfl

theorem sameFlow_mapTask (s : State) (f : Task → Task) : sameFlow s (s.mapTask s.cur.core f) :=
  sameFlow_setMe (by unfold State.st; cases s.cur.x <;> rfl) (by unfold State.st; cases s.cur.x <;> rfl)
    (by unfold State.st; cases s.cur.x <;> rfl) rfl rfl

theorem Core.sameBut_task (c : Core) (k : Option Task) : c.sameBut { c with task := k } [] := fun x _ _ =>
  Core.comes_congr ⟨rfl, rfl, rfl, rfl, rfl, rfl, rfl⟩ rfl (by cases x <;> rfl)

/-- An instruction that retires and changes its core's task. -/
theorem retire_mapTask {s : State} {k : Task} (hk : s.me.task = some k) (h : Hdr) (f : Task → Task) :
    ∃ t, retire h (s.mapTask s.cur.core f) = .next t ∧ s.wentOn t h ∧ s.onlyMe t ∧ s.me.sameBut t.me [] ∧ t.me.task = some (f k) := by
  obtain ⟨t, e, w, o, m⟩ := retire_spec h (s.mapTask s.cur.core f)
  obtain ⟨hc, -, -⟩ := retire_keeps e
  have hm : (s.mapTask s.cur.core f).me = { s.me with task := s.me.task.map f } := by rw [mapTask_me, State.me_setMe]
  refine ⟨t, e, wentOn_of_sameFlow (sameFlow_mapTask s f) w, State.onlyMe_trans (State.onlyMe_setMe ..) o, fun x r hr => ?_, ?_⟩
  · rw [hc, hm]
    exact Core.sameBut_task s.me _ x r hr
  · rw [m, hm, hk]
    cases (s.mapTask s.cur.core f).cur.x <;> rfl

/-- An instruction that waits and changes its core's task. -/
theorem stall_mapTask {s : State} {k : Task} (hk : s.me.task = some k) (g : Nat) (f : Task → Task) :
    ∃ t, keepGuard g (stall (s.mapTask s.cur.core f)) = .next t ∧ s.waited t ∧ s.onlyMe t ∧ t.me.task = some (f k) := by
  obtain ⟨t, st, e, ⟨w1, w2, w3⟩, o, m, -⟩ := keepGuard_stall_spec g (s.mapTask s.cur.core f)
  obtain ⟨k1, k2, -, -, k5, -⟩ := sameFlow_mapTask s f
  have hm : (s.mapTask s.cur.core f).me = { s.me with task := s.me.task.map f } := by rw [mapTask_me, State.me_setMe]
  refine ⟨t, e, ⟨w1.trans k1, w2.trans k2, by rw [w3, k5]⟩, State.onlyMe_trans (State.onlyMe_setMe ..) o, ?_⟩
  rw [m, hm, hk]
  cases (s.mapTask s.cur.core f).cur.x <;> rfl

theorem xQuiet_idle {c : Core} (hr : c.x.run = false) (hh : c.x.halted = false) : c.xQuiet = true := by
  rw [Core.xQuiet, hr, hh]
  rfl

theorem fld_top (v : Word) : fld v.toNat 58 6 = v.toNat / 2 ^ 58 := Nat.mod_eq_of_lt (by have := v.isLt; omega)

/-- Settles O28: TEND on both kinds of core, and the cases of SAFEPT in the order in which it tests. -/
theorem taskEndAndSafePoint : Obligations.TaskEndAndSafePoint := by
  unfold Obligations.TaskEndAndSafePoint
  refine ⟨fun s h hh hi hs hr => tend_hub hh hi hs hr, fun s h slot lmx k hh hk => ⟨fun hi => ?tend, fun hi hn => ?safept⟩⟩
  case tend =>
    obtain ⟨t, e, w, o, m⟩ := stall_mapTask hk (s.laneMask (Instr.tend h).hdr) (fun t => { t with ending := true })
    refine ⟨t, ?_, w, o, m⟩
    rw [show exec (.tend h) s = execTend h s from rfl, execTend, issue_eq hi, hh, if_neg nofun, e]
  case safept =>
    rw [show exec (.safept h slot lmx) s = execSafept h slot lmx s from rfl, execSafept, issue_eq hi, withNeeds_eq hn]
    dsimp only
    rw [fld_top]
    by_cases hm : (s.constSlot (slot.toNat + 1)).toNat / 2 ^ 58 = 0
    · rw [if_neg (not_not_intro hm)]
      by_cases hl : s.me.level = .s
      · obtain ⟨t, e, w, o, b, m⟩ := retire_mapTask hk h (fun t => { t with watchHeld := some 0 })
        rw [if_pos hl, keepGuard_retire]
        exact ⟨t, e, fun h => absurd hm h, fun _ _ => ⟨w, o, b, m⟩, fun _ h => absurd hl h, fun _ h => absurd hl h⟩
      rw [if_neg hl, hk, Option.any_some]
      by_cases hp : k.preempt = false
      · obtain ⟨t, e, w, o, b, m⟩ := retire_mapTask hk h (fun t => { t with watch := some s.now })
        rw [hp, Bool.not_false, if_pos rfl, keepGuard_retire]
        exact ⟨t, e, fun h => absurd hm h, fun _ h => absurd h hl, fun _ _ _ => ⟨w, o, b, m.trans (by rw [hp])⟩, nofun⟩
      · rw [Bool.not_eq_false] at hp
        rw [hp, Bool.not_true, if_neg nofun]
        generalize hb : (if (s.me.xQuiet && (s.queued s.cur.core).isEmpty &&
            (tget none (s.cur.core % 8) (s.gang (gangOf s.cur.core)).arrivals).isNone) = true then
              some (s.constSlot slot.toNat, s.constSlot (slot.toNat + 1), lmx.toNat) else none) = b
        obtain ⟨t, e, w, o, m⟩ := stall_mapTask hk (s.laneMask (Instr.safept h slot lmx).hdr) (fun t => { t with watch := none, safe := b })
        refine ⟨t, e, fun h => absurd hm h, fun _ h => absurd h hl, nofun,
          fun _ _ _ => ⟨w, o, b, m.trans (by rw [hp]), ?_, fun hr hx hq ha => ?_⟩⟩
        · rw [← hb]
          split
          · exact .inr rfl
          · exact .inl rfl
        · rw [← hb, xQuiet_idle hr hx, hq, ha]
          rfl
    · rw [if_pos hm, keepGuard_trap]
      exact ⟨_, rfl, fun _ => rfl, fun h => absurd h hm, fun h => absurd h hm, fun h => absurd h hm⟩

/-! ### TRAP and BRK (06 R163, 08 R215, 17 R390, R391) -/

/-- What a trap of a compute core at level T leaves in its supervisor registers. -/
theorem Core.svGet_trapped (c : Core) (x : Bool) (cause code : Nat) :
    (c.enterTrap x cause code 0 0).svGet (if x then 3 else 2) = BitVec.ofNat 64 ((c.stream x).pc + if x ∧ c.x.run then 4096 else 0) ∧
    (c.enterTrap x cause code 0 0).svGet 4 = BitVec.ofNat 64 (causeWord cause x code 0) ∧ (c.enterTrap x cause code 0 0).svGet 5 = 0 := by
  have hs (m : Nat) : (c.enterTrap x cause code 0 0).svGet m = (((((c.svPut 2 (BitVec.ofNat 64 c.a.pc)).svPut 3
      (BitVec.ofNat 64 (c.x.pc + 2 ^ 12 * b01 c.x.run))).svPut 4 (BitVec.ofNat 64 (causeWord cause x code 0))).svPut 5
      (BitVec.ofNat 64 0)).svPut 8 (BitVec.ofNat 64 c.predWord)).svGet m := by
    unfold Core.enterTrap Core.svGet
    dsimp only
  simp only [hs, Core.svGet_svPut]
  refine ⟨?_, rfl, rfl⟩
  cases x
  · simp [Core.stream]
  · cases c.x.run <;> simp [Core.stream, b01]

theorem cur_trapOn_user {s : State} {n : Nat} (hub : isHub n = false) (hl : (s.core n).level ≠ .s) (x : Bool) (cause code mask info : Nat) :
    (s.trapOn n x cause code mask info).cur = s.cur := by
  unfold State.trapOn
  dsimp only
  rw [if_neg (by rw [hub]; decide), if_neg hl, State.setCore_cur, dropRequest_cur, dropRequest_cur]

theorem causeWord_lt (cause : Nat) (x : Bool) (code : BitVec 16) (h : cause < 256) :
    (BitVec.ofNat 64 (causeWord cause x code.toNat 0)).toNat = cause + (if x then 256 else 0) + 65536 * code.toNat := by
  have hc := code.isLt
  rw [BitVec.toNat_ofNat, causeWord, Nat.mod_eq_of_lt hc, Nat.mod_eq_of_lt]
  · cases x <;> rfl
  · cases x <;> simp [b01] <;> omega

/-- A listed value stands in its table. -/
theorem mem_of_tget_ne {α : Type} {d : α} {k : Nat} : ∀ {t : Table α}, tget d k t ≠ d → (k, tget d k t) ∈ t
  | [], h => absurd rfl h
  | (j, v) :: t, h => by
    rw [tget] at h ⊢
    split
    · next hj =>
      subst hj
      exact List.mem_cons_self
    · next hj =>
      rw [if_neg hj] at h
      exact List.mem_cons_of_mem _ (mem_of_tget_ne h)

theorem mem_coresOf {s : State} {n : Nat} {k : Task} (h : (s.core n).task = some k) : n ∈ s.coresOf k.run := by
  have hm : (n, s.core n) ∈ s.cores := mem_of_tget_ne fun e => by
    rw [show s.core n = Core.idle from e] at h
    exact absurd h nofun
  exact List.mem_map.2 ⟨_, List.mem_filter.2 ⟨hm, by rw [h]; exact beq_self_eq_true _⟩, rfl⟩

/-- The only launch, a take launch under way, is suspended where a stream of its task is halted. -/
theorem suspended_of_halted {s : State} {r : Run} {k : Task} {n : Nat} (hr : s.runs = [r]) (ht : r.takeLv.isSome = true) (hg : r.go = true)
    (hd : r.retired = false) (ha : r.aborted = false) (hk : (s.core n).task = some k) (hi : k.run = r.id)
    (hh : (s.core n).a.halted = true ∨ (s.core n).x.halted = true) : s.suspended r = true := by
  have hgr : s.groupRun r.cgrp = some r := by
    unfold State.groupRun
    rw [hr, List.filter_cons_of_pos (by simp [ht, hg, hd, ha]), List.filter_nil]
    by_cases hs : 0 < r.started <;> simp [hs]
  have hc : (s.coresOf r.id).any (fun n => (s.core n).a.debugged || (s.core n).x.debugged) = true := by
    refine List.any_eq_true.2 ⟨n, hi ▸ mem_coresOf hk, ?_⟩
    rcases hh with hh | hh <;> simp [Stream.debugged, hh]
  rw [State.suspended, hgr, hc, Bool.or_true, Bool.and_true]
  exact beq_self_eq_true _

/-- A change that suspends the only launch tells its root. -/
theorem noting_suspends {s b : State} {r : Run} (hr : b.runs = [r]) (ht : r.takeLv.isSome = true) (hw : (s.run? r.id).any s.suspended = false)
    (hb : b.suspended r = true) :
    (s.noting fun _ => b).sentTo (b.rootPeer r) (.suspend r.cgrp (b.nextCut r.id) r.dIdx) := by
  unfold State.noting
  dsimp only
  simp only [hr, List.filter_cons, ht, hw, hb, List.filter_nil, if_true]
  exact sentTo_post ..

/-- A change says nothing where there is no take launch. -/
theorem noting_untaken {s b : State} (h : ∀ r ∈ b.runs, r.takeLv = none) : (s.noting fun _ => b) = b := by
  have hn : b.runs.filter (fun r => r.takeLv.isSome) = [] := List.filter_eq_nil_iff.2 fun r hr => by rw [h r hr]; exact Bool.false_ne_true
  unfold State.noting
  dsimp only
  rw [hn]
  rfl

theorem Core.holdWatch_eq {c : Core} (h : c.a.halted = true ∨ c.x.halted = true) : c.holdWatch = c.stopWatch := by
  unfold Core.holdWatch
  rw [if_pos (by rcases h with h | h <;> simp [h])]

@[simp] theorem Core.task_issued (c : Core) (x : Bool) : (c.issued x).task = c.task := by cases x <;> rfl

/-- A core after its stream has halted: the task's watchdog stands. -/
theorem Core.stopWatch_task (c : Core) : (∀ k, c.stopWatch.task = some k → k.watch = none) ∧
    ∀ k, c.task = some k → ∃ q, c.stopWatch.task = some q ∧ q.run = k.run := by
  unfold Core.stopWatch
  refine ⟨fun k h => ?_, fun k h => ⟨_, congrArg (Option.map _) h, rfl⟩⟩
  obtain ⟨q, -, rfl⟩ := Option.map_eq_some_iff.1 h
  rfl

theorem Core.stopWatch_stream (c : Core) (x : Bool) : c.stopWatch.stream x = c.stream x := by cases x <;> rfl

/-- A halted stream of a core. -/
theorem Core.halted_of_stream {c : Core} {x : Bool} (h : (c.stream x).halted = true) : c.a.halted = true ∨ c.x.halted = true := by
  cases x
  · exact .inl h
  · exact .inr h

/-- What BRK leaves with a debugger attached, before the launch's roots are told. -/
theorem brk_halts (s : State) (h : Hdr) :
    ∃ t b, retire h (s.setSt { s.st with stepping := true }) = .next t ∧ t.setMe t.me.holdWatch = b ∧ s.wentOn b h ∧ s.onlyMe b ∧
      b.st.halted = true ∧ b.st.waitFrom = none ∧ (∀ k, b.me.task = some k → k.watch = none) ∧
      ∀ k, s.me.task = some k → ∃ q, b.me.task = some q ∧ q.run = k.run := by
  obtain ⟨t, e, w, o, m⟩ := retire_spec h (s.setSt { s.st with stepping := true })
  have hst : t.st = (s.setSt { s.st with stepping := true }).st.advance _ _ _ _ := st_of_left w.1 m
  have hh : t.st.halted = true := by
    rw [hst, State.st_setSt]
    exact Bool.or_true _
  have hm : (t.setMe t.me.holdWatch).me = t.me.stopWatch := by
    rw [State.me_setMe, Core.holdWatch_eq (Core.halted_of_stream hh)]
  have hbs : (t.setMe t.me.holdWatch).st = t.st := by
    unfold State.st
    rw [hm, Core.stopWatch_stream]
    rfl
  obtain ⟨k1, k2⟩ := Core.stopWatch_task t.me
  refine ⟨t, _, e, rfl, ?_, State.onlyMe_trans (State.onlyMe_setMe ..) (State.onlyMe_trans o (State.onlyMe_setMe ..)), by rw [hbs, hh], ?_,
    by rwa [hm], fun k hk => ?_⟩
  · have w' := wentOn_of_sameFlow (sameFlow_setSt (s := s) (t := { s.st with stepping := true }) rfl rfl rfl) w
    unfold State.wentOn at *
    rwa [hbs]
  · rw [hbs, hst]
    rfl
  · rw [hm]
    refine k2 k ?_
    rw [m, ← hk, Core.task_issued, Core.setStream_task, State.me_setSt, Core.setStream_task]

theorem State.onlyMe_runs {s t : State} (h : s.onlyMe t) : t.runs = s.runs := by
  obtain ⟨h, -⟩ := h
  rw [← h]

theorem State.onlyMe_root {s t : State} (h : s.onlyMe t) (r : Run) : t.rootPeer r = s.rootPeer r ∧ t.nextCut r.id = s.nextCut r.id := by
  obtain ⟨h, -⟩ := h
  rw [← h]
  exact ⟨rfl, rfl⟩

/-- What messages leave of an instruction that goes on. -/
theorem wentOn_of_onlySends {s b t : State} {h : Hdr} (hs : onlySends b t) (hu : t.cur = b.cur) (w : s.wentOn b h) : s.wentOn t h := by
  have hst := st_of_cores (onlySends_cores hs) hu
  unfold State.wentOn at *
  rwa [hst, hu]

theorem onlySends_cur {s t : State} (h : onlySends s t) : t.cur = s.cur := by unfold onlySends at h; rw [← h]

/-- Settles O29: TRAP and BRK by what a trap leaves, and BRK under a debugger by its halt and the messages that the halt sends. -/
theorem trapInstructionsRaise : Obligations.TrapInstructionsRaise := by
  unfold Obligations.TrapInstructionsRaise
  intro s h code
  refine ⟨fun hi => ⟨_, ?trap, rfl, fun hh hl => ?regs⟩, fun hi hd => ?brk, fun hi hd => ?halt⟩
  case trap => rw [show exec (.trap h code) s = execTrap h code s from rfl, execTrap, issue_eq hi, keepGuard_trap]
  case regs =>
    have hc : (s.core s.cur.core).level = .t := hl
    obtain ⟨hm, -⟩ := trapOn_user (s := s) hh (by rw [hc]; decide) s.cur.x 0x06 code.toNat 0 0
    have hm : (s.trapOn s.cur.core s.cur.x 0x06 code.toNat 0 0).me = s.me.enterTrap s.cur.x 0x06 code.toNat 0 0 := by
      unfold State.me
      rw [cur_trapOn_user hh (by rw [hc]; decide), hm]
    obtain ⟨k1, k2, k3⟩ := s.me.svGet_trapped s.cur.x 0x06 code.toNat
    rw [hm]
    exact ⟨rfl, k1, by rw [k2]; exact causeWord_lt _ _ _ (by decide), k3⟩
  case brk =>
    rw [show exec (.brk h code) s = execBrk h code s from rfl, execBrk, issue_eq hi, hd, Bool.not_false, if_pos rfl, keepGuard_trap]
  case halt =>
    obtain ⟨t, b, e, hb, w, o, hh, hw, hk, hr⟩ := brk_halts s h
    have hn := onlySends_noting s fun _ => b
    have hc := onlySends_cores hn
    have hu := onlySends_cur hn
    have hst : (s.noting fun _ => b).st = b.st := st_of_cores hc hu
    have hme : (s.noting fun _ => b).me = b.me := by unfold State.me; rw [hu, core_congr hc]
    rw [show exec (.brk h code) s = execBrk h code s from rfl, execBrk, issue_eq hi, hd, Bool.not_true, if_neg nofun, e]
    dsimp only
    rw [hb, keepGuard_eq (by rw [hst, hw])]
    refine ⟨_, rfl, wentOn_of_onlySends hn hu w, by rw [hst, hh], by rwa [hme], (onlySends_mem hn).trans (State.onlyMe_mem o),
      fun n h => (core_congr hc n).trans (o.2 n h), fun ht => ?_, fun r k hrs hkt hid ht hg hd ha hsu => ?_⟩
    · rwa [noting_untaken (by rwa [State.onlyMe_runs o])]
    · obtain ⟨q, hq, hqr⟩ := hr k hkt
      obtain ⟨hp, hcut⟩ := State.onlyMe_root o r
      have hrb : b.runs = [r] := (State.onlyMe_runs o).trans hrs
      have hwas : (s.run? r.id).any s.suspended = false := by
        rw [State.run?, hrs]
        simpa using hsu
      have := noting_suspends hrb ht hwas
        (suspended_of_halted hrb ht hg hd ha hq (hqr.trans hid) (Core.halted_of_stream hh))
      rwa [hp, hcut] at this

/-! ### Queues and presence (06 R156, R157, R160) -/

/-- A register comes to hold the value that a new pending result names for it. -/
theorem comes_pendNew_value {s : State} {outs : List (Reg × Option Nat)} {r : Reg} {v : Nat} (hp : s.me.pendingReg s.cur.x r = false)
    (h0 : r ≠ .pa 0 ∧ r ≠ .px 0) (hv : (outs.find? (fun o => o.1 == r)).bind Prod.snd = some v) :
    (s.pendNew outs).me.comes s.cur.x r = v := by
  have hq : Pending.value { id := s.nextId, x := s.cur.x, outs := outs, masks := [] } r = some (none, v) := by
    rw [Pending.value, hv]
    rfl
  rw [me_pendNew, Core.comes, if_neg (by simp [h0])]
  simp [List.filter_append, List.findSome?_append, Core.no_value hp, hq]

/-- A register that a new pending result does not name comes to hold what it would have held. -/
theorem comes_pendNew_ne {s : State} {outs : List (Reg × Option Nat)} {r : Reg} (h : ∀ o ∈ outs, o.1 ≠ r) (x : Bool) :
    (s.pendNew outs).me.comes x r = s.me.comes x r := by
  rw [me_pendNew]
  refine Core.comes_pend_ne _ _ ?_
  have hn : outs.find? (fun o => o.1 == r) = none := List.find?_eq_none.2 fun o ho => by simpa using h o ho
  rw [Pending.value, hn]
  rfl

/-- What an instruction leaves that ends with new pending results. -/
theorem retire_pends {s u : State} (hf : sameFlow s u) (ho : s.onlyMe u) (outs : List (Reg × Option Nat)) (h : Hdr) :
    ∃ t, retire h (u.pendNew outs) = .next t ∧ s.wentOn t h ∧ s.onlyMe t ∧ (∀ x r, t.me.comes x r = (u.pendNew outs).me.comes x r) ∧
      ∀ k, t.me.fifo k = u.me.fifo k := by
  obtain ⟨t, e, w, o, m⟩ := retire_spec h (u.pendNew outs)
  obtain ⟨hc, -, -⟩ := retire_keeps e
  refine ⟨t, e, wentOn_of_sameFlow (sameFlow_trans hf (sameFlow_pendNew ..)) w,
    State.onlyMe_trans ho (State.onlyMe_trans (onlyMe_pendNew ..) o), hc, fun k => ?_⟩
  rw [m, Core.fifo_leave, me_pendNew]
  rfl

/-- What a predicate that tells an outcome comes to hold. -/
def truth (x b : Bool) : Nat := if b then (if x then allOnes else 1) else 0

theorem outcome_eq (s : State) (p : BitVec 4) (b : Bool) : s.outcome (.p p) b = [(predReg s.cur.x p, some (truth s.cur.x b))] := rfl

/-- A register of a scalar file, as a destination. -/
theorem isReg_cases {x : Bool} {d : Desc} (h : d.isReg x = true) :
    ∃ r, regOf x d = some r ∧ (r ≠ .pa 0 ∧ r ≠ .px 0) ∧ d.isPush x = false ∧
    ∀ (t : State) (v : Word), t.gets r v.toNat → t.holds d v := by
  cases d with
  | g i => exact ⟨.g i.toNat, rfl, ⟨nofun, nofun⟩, rfl, fun _ _ h => h⟩
  | s i => exact ⟨.s i.toNat, rfl, ⟨nofun, nofun⟩, rfl, fun _ _ h => h⟩
  | _ => exact absurd h nofun

/-- The queues that a stream pushes. -/
theorem isPush_port {x : Bool} {d : Desc} (h : d.isPush x = true) : ∃ c, d = .port c ∧ c.toNat < 4 := by
  cases d with
  | port c =>
    refine ⟨c, rfl, ?_⟩
    cases x
    · have h : c = 0 ∨ c = 2 := by simpa [Desc.isPush] using h
      rcases h with rfl | rfl <;> decide
    · have h : c = 1 ∨ c = 3 := by simpa [Desc.isPush] using h
      rcases h with rfl | rfl <;> decide
  | _ => exact absurd h nofun

/-- The queues that a stream pops, the mailbox and the inbox among them. -/
theorem isPop_lt {x : Bool} {c : BitVec 4} (h : (Desc.port c).isPop x = true) : c.toNat < 6 := by
  cases x
  · have h : ((c = 1 ∨ c = 3) ∨ c = 4) ∨ c = 5 := by simpa [Desc.isPop] using h
    rcases h with ((rfl | rfl) | rfl) | rfl <;> decide
  · have h : c = 0 ∨ c = 2 := by simpa [Desc.isPop] using h
    rcases h with rfl | rfl <;> decide

theorem Core.fifo_setFifo_ne (c : Core) {j k : Nat} (hj : j < 4) (hk : k < 4) (h : j ≠ k) (f : Fifo) : (c.setFifo j f).fifo k = c.fifo k := by
  interval_cases j <;> interval_cases k <;> simp [Core.setFifo, Core.fifo] at h ⊢

theorem Core.fifo_push_ne (c : Core) {j k : Nat} (hj : j < 4) (hk : k < 4) (h : j ≠ k) (v : Word) : (c.push j v).fifo k = c.fifo k :=
  Core.fifo_setFifo_ne c hj hk h _

theorem Core.fifo_pop_ne (c : Core) {j k : Nat} (hj : j < 6) (hk : k < 4) (h : j ≠ k) : (c.pop j).2.fifo k = c.fifo k := by
  unfold Core.pop
  split
  · split <;> rfl
  split
  · split <;> rfl
  · dsimp only
    split
    · exact Core.fifo_setFifo_ne c (by omega) hk h _
    · rfl

/-- A source leaves the queues that it does not name. -/
theorem fifo_take_ne {s : State} {a : Desc} (ha : a.isSrc s.cur.x = true) {k : Nat} (hk : k < 4) (hn : ¬namesPort a k) :
    (s.take a).2.me.fifo k = s.me.fifo k := by
  cases a with
  | port c =>
    rw [State.take, State.me_setMe]
    exact Core.fifo_pop_ne _ (isPop_lt ha) hk fun e => hn ⟨c, rfl, e⟩
  | _ => rfl

/-- Whether a predicate tells an outcome, which p0 does not. -/
def State.tells (s t : State) (p : BitVec 4) (b : Bool) : Prop := p ≠ 0 → t.gets (predReg s.cur.x p) (truth s.cur.x b)

/-- An outcome at its predicate among new pending results. -/
theorem tells_of_pends {s u t : State} {p : BitVec 4} {b : Bool} {pre : List (Reg × Option Nat)} (hq : onlyQueues s u)
    (hp : s.me.pendingReg s.cur.x (predReg s.cur.x p) = false) (hn : ∀ o ∈ pre, o.1 ≠ predReg s.cur.x p) (hcur : t.cur = s.cur)
    (hc : ∀ x r, t.me.comes x r = (u.pendNew (pre ++ [(predReg s.cur.x p, some (truth s.cur.x b))])).me.comes x r) : s.tells t p b := by
  intro h0
  have hu := onlyQueues_cur hq
  unfold State.gets
  rw [hc, hcur, ← hu]
  refine comes_pendNew_value (by rw [onlyQueues_pendingReg hq, hu, hp]) (hu ▸ predReg_ne_p0 s.cur.x h0) ?_
  rw [hu, List.find?_append, List.find?_eq_none.2 fun o ho => by simpa using hn o ho]
  simp

theorem toList_regOf_p (x : Bool) (p : BitVec 4) : (regOf x (.p p)).toList = [predReg x p] := rfl

/-- TRYPOP of a queue with nothing to pop. -/
theorem trypop_fails {s : State} {h : Hdr} {d q : Desc} {p : BitVec 4} {k : Nat} (hq : namesPort q k) (hi : s.issues (.trypop h d q (.p p)))
    (hk : s.me.poppable k s.now = 0)
    (hn : s.serves ((needs [] (regOf s.cur.x d).toList).and (needs [] [predReg s.cur.x p]))) :
    ∃ t, exec (.trypop h d q (.p p)) s = .next t ∧ s.wentOn t h ∧ s.tells t p false ∧ t.me.fifo k = s.me.fifo k ∧
      s.me.sameBut t.me [predReg s.cur.x p] ∧ s.onlyMe t := by
  obtain ⟨c, rfl, rfl⟩ := hq
  have hz : ¬0 < s.me.poppable (portOf (.port c)) s.now := by rw [portOf, hk]; exact Nat.lt_irrefl 0
  obtain ⟨t, e, w, o, hc, hf⟩ := retire_pends (sameFlow_refl s) s.onlyMe_refl (s.outcome (.p p) false) h
  refine ⟨t, ?_, w, ?_, hf _, fun x r hr => ?_, o⟩
  · rw [show exec (.trypop h d (.port c) (.p p)) s = execTrypop h d (.port c) (.p p) s from rfl, execTrypop, issue_eq hi]
    dsimp only
    rw [if_neg hz, toList_regOf_p, withNeeds_eq hn, if_neg hz, keepGuard_retire, e]
  · exact tells_of_pends (pre := []) (onlyQueues_refl s)
      (free_of_met hn.1 (List.mem_append_right _ (List.mem_singleton_self _))) nofun w.1 hc
  · rw [hc]
    exact comes_pendNew_ne (fun o ho => by rw [outcome_eq, List.mem_singleton] at ho; subst ho; exact fun e => hr (e ▸ List.mem_singleton_self _)) x

/-- A queue as the destination of a value, which it holds whatever the registers come to hold. -/
theorem holds_port_congr {t u : State} {c : BitVec 4} {v : Word} (h : u.holds (.port c) v) (hf : t.me.fifo c.toNat = u.me.fifo c.toNat) :
    t.holds (.port c) v := by
  unfold State.holds at *
  dsimp only at *
  rwa [hf]

/-- TRYPOP of a queue with an entry. -/
theorem trypop_takes {s : State} {h : Hdr} {d q : Desc} {p : BitVec 4} {k : Nat} (hq : namesPort q k) (hi : s.issues (.trypop h d q (.p p)))
    (hk : 0 < s.me.poppable k s.now) (hn : s.serves ((dstNeeds s.cur.x d).and (needs [] [predReg s.cur.x p])))
    (hd : regOf s.cur.x d ≠ some (predReg s.cur.x p)) :
    ∃ t, exec (.trypop h d q (.p p)) s = .next t ∧ s.wentOn t h ∧ s.tells t p true ∧ t.holds d (s.take q).1 ∧
      s.onlyMe t ∧ (k < 4 → ¬namesPort d k → ∃ e, (s.me.fifo k).entries = e :: (t.me.fifo k).entries) := by
  obtain ⟨c, rfl, rfl⟩ := hq
  have hp : s.me.pendingReg s.cur.x (predReg s.cur.x p) = false :=
    free_of_met hn.1 (List.mem_append_right _ (List.mem_singleton_self _))
  have hw : (d.isDst s.cur.x && (Desc.port c).isPop s.cur.x && (Desc.p p).isP) = true := fieldsOk_of_issues rfl hi
  simp only [Bool.and_eq_true] at hw
  have hpop (hk4 : c.toNat < 4) : ∃ e, (s.me.fifo c.toNat).entries = e :: ((s.take (.port c)).2.me.fifo c.toNat).entries := by
    obtain ⟨e, he⟩ := Core.fifo_pop hk4 hk
    exact ⟨e, by rw [he, State.take, State.me_setMe]⟩
  have hexec (u : State) (hu : (if d.isPush s.cur.x then (s.take (.port c)).2.give d (s.take (.port c)).1 1 false else (s.take (.port c)).2) = u) :
      exec (.trypop h d (.port c) (.p p)) s = retire h (u.pendNew
        ((regOf s.cur.x d).toList.map (fun x => (x, some (s.take (.port c)).1.toNat)) ++ s.outcome (.p p) true)) := by
    rw [show exec (.trypop h d (.port c) (.p p)) s = execTrypop h d (.port c) (.p p) s from rfl, execTrypop, issue_eq hi]
    dsimp only
    rw [if_pos (show 0 < s.me.poppable (portOf (.port c)) s.now from hk), toList_regOf_p, withNeeds_eq hn,
      if_pos (show 0 < s.me.poppable (portOf (.port c)) s.now from hk), keepGuard_retire, hu]
  have hsd := hw.1.1
  rw [Desc.isDst, Bool.or_eq_true] at hsd
  rcases hsd with hr | hpu
  · obtain ⟨r, er, h0, hpush, hh⟩ := isReg_cases hr
    have hqs := onlyQueues_take s (.port c)
    obtain ⟨t, e, w, o, hc, hf⟩ := retire_pends (sameFlow_of_onlyQueues hqs) hqs.1
      ((regOf s.cur.x d).toList.map (fun x => (x, some (s.take (.port c)).1.toNat)) ++ s.outcome (.p p) true) h
    rw [er] at hc
    have hne : r ≠ predReg s.cur.x p := fun e => hd (by rw [er, e])
    refine ⟨t, by rw [hexec _ (if_neg (by rw [hpush]; exact Bool.false_ne_true)), e], w, ?_, hh _ _ ?_, o, fun hk4 _ => ?_⟩
    · exact tells_of_pends (pre := [(r, some (s.take (.port c)).1.toNat)]) hqs hp (by simpa using hne) w.1 hc
    · have hu := onlyQueues_cur hqs
      unfold State.gets
      rw [hc, w.1, ← hu]
      refine comes_pendNew_value ?_ h0 (by simp)
      rw [onlyQueues_pendingReg hqs, hu]
      exact free_of_met hn.1 (List.mem_append_left _ (dstNeeds_writes er))
    · rw [hf]
      exact hpop hk4
  · obtain ⟨c', rfl, h4⟩ := isPush_port hpu
    have hqs := onlyQueues_trans (onlyQueues_take s (.port c)) (onlyQueues_push (s.take (.port c)).2 c'.toNat (s.take (.port c)).1)
    obtain ⟨t, e, w, o, hc, hf⟩ := retire_pends (sameFlow_of_onlyQueues hqs) hqs.1 (s.outcome (.p p) true) h
    refine ⟨t, by rw [hexec _ (if_pos hpu)]; exact e, w, tells_of_pends (pre := []) hqs hp nofun w.1 hc,
      holds_port_congr (holds_give _ _ _ 1 false nofun) (hf _), o, fun hk4 hnd => ?_⟩
    rw [hf, State.me_setMe, Core.fifo_push_ne _ h4 hk4 fun e => hnd ⟨c', rfl, e⟩]
    exact hpop hk4

/-- TRYPUSH, whether its queue has room or not. -/
theorem trypush_spec {s : State} {h : Hdr} {q a : Desc} {p : BitVec 4} {k : Nat} (hq : namesPort q k) (hi : s.issues (.trypush h q a (.p p)))
    (hn : s.serves ((srcNeeds s.cur.x a).and (needs [] [predReg s.cur.x p]))) :
    ∃ t, exec (.trypush h q a (.p p)) s = .next t ∧ s.wentOn t h ∧ s.tells t p (s.me.room k s.now) ∧ s.onlyMe t ∧
      (s.me.room k s.now = true → t.holds q (s.take a).1) ∧
      (s.me.room k s.now = false → ¬namesPort a k → t.me.fifo k = s.me.fifo k) := by
  obtain ⟨c, rfl, rfl⟩ := hq
  have hp : s.me.pendingReg s.cur.x (predReg s.cur.x p) = false :=
    free_of_met hn.1 (List.mem_append_right _ (List.mem_singleton_self _))
  have hw : ((Desc.port c).isPush s.cur.x && a.isSrc s.cur.x && (Desc.p p).isP) = true := fieldsOk_of_issues rfl hi
  simp only [Bool.and_eq_true] at hw
  obtain ⟨c', hc', h4⟩ := isPush_port hw.1.1
  cases hc'
  have hexec : exec (.trypush h (.port c) a (.p p)) s = retire h
      ((if s.me.room c.toNat s.now then (s.take a).2.give (.port c) (s.take a).1 1 false else (s.take a).2).pendNew
        (s.outcome (.p p) (s.me.room c.toNat s.now))) := by
    rw [show exec (.trypush h (.port c) a (.p p)) s = execTrypush h (.port c) a (.p p) s from rfl, execTrypush, issue_eq hi,
      toList_regOf_p, withNeeds_eq hn]
    exact keepGuard_retire ..
  rw [hexec]
  have ht := onlyQueues_take s a
  cases hr : s.me.room c.toNat s.now
  · obtain ⟨t, e, w, o, hc, hf⟩ := retire_pends (sameFlow_of_onlyQueues ht) ht.1 (s.outcome (.p p) false) h
    refine ⟨t, e, w, tells_of_pends (pre := []) ht hp nofun w.1 hc, o, nofun, fun _ hna => ?_⟩
    rw [hf]
    exact fifo_take_ne hw.1.2 h4 hna
  · have hqs := onlyQueues_trans ht (onlyQueues_push (s.take a).2 c.toNat (s.take a).1)
    obtain ⟨t, e, w, o, hc, hf⟩ := retire_pends (sameFlow_of_onlyQueues hqs) hqs.1 (s.outcome (.p p) true) h
    exact ⟨t, e, w, tells_of_pends (pre := []) hqs hp nofun w.1 hc, o, fun _ => holds_port_congr (holds_give _ _ _ 1 false nofun) (hf _),
      nofun⟩

/-- The mode of PUSHB. -/
def pushbMode : Option Desc → Nat
  | some (.imm v) => v.toNat
  | _ => 0

theorem pushbBit_zero (x : Bool) (v : Nat) : pushbBit x v 0 = v.testBit 0 := bitAt_eq v 0

theorem pushbBit_one (x : Bool) (v : Nat) : pushbBit x v 1 = true ↔ ∃ i, i < (if x then 128 else 1) ∧ v.testBit i = true := by
  generalize hw : (if x then 128 else 1 : Nat) = w
  have e : pushbBit x v 1 = (v % 2 ^ w != 0) := by rw [← hw]; rfl
  rw [e, bne_iff_ne, ne_eq]
  constructor
  · intro h
    obtain ⟨i, hi⟩ := Nat.exists_testBit_of_ne_zero h
    rw [Nat.testBit_mod_two_pow, Bool.and_eq_true, decide_eq_true_eq] at hi
    exact ⟨i, hi⟩
  · rintro ⟨i, hi, hv⟩ h
    have := Nat.testBit_mod_two_pow v w i
    rw [h, Nat.zero_testBit, hv, decide_eq_true hi] at this
    exact Bool.false_ne_true this

theorem pushbBit_two (x : Bool) (v : Nat) : pushbBit x v 2 = true ↔ ∀ i, i < (if x then 128 else 1) → v.testBit i = true := by
  generalize hw : (if x then 128 else 1 : Nat) = w
  have e : pushbBit x v 2 = (v % 2 ^ w == 2 ^ w - 1) := by rw [← hw]; rfl
  rw [e, beq_iff_eq]
  constructor
  · intro h i hi
    have := Nat.testBit_mod_two_pow v w i
    rwa [h, Nat.testBit_two_pow_sub_one, decide_eq_true hi, Bool.true_and, eq_comm] at this
  · intro h
    refine Nat.eq_of_testBit_eq fun i => ?_
    rw [Nat.testBit_mod_two_pow, Nat.testBit_two_pow_sub_one]
    by_cases hi : i < w
    · rw [decide_eq_true hi, h i hi, Bool.and_self]
    · rw [decide_eq_false hi, Bool.false_and]

/-- PUSHB pushes the bit that its mode derives. -/
theorem pushb_spec {s : State} {h : Hdr} {q : Desc} {p : BitVec 4} {m : Option Desc} (hi : s.issues (.pushb h q (.p p) m))
    (hn : s.serves ((dstNeeds s.cur.x q).and (needs [predReg s.cur.x p] []))) :
    ∃ t, exec (.pushb h q (.p p) m) s = .next t ∧ s.wentOn t h ∧ s.onlyMe t ∧ s.me.sameBut t.me [] ∧
      t.holds q (bw (pushbBit s.cur.x (s.me.reg (predReg s.cur.x p)) (pushbMode m))) := by
  have hw := fieldsOk_of_issues rfl hi
  have hq : q.isPushB s.cur.x = true := by
    simp only [Instr.fieldsOk, Bool.and_eq_true] at hw
    exact hw.1.1
  cases q with
  | port c =>
    obtain ⟨t, e, w, o, -, b, f⟩ := retire_popped
      (onlyQueues_push s c.toNat (bw (pushbBit s.cur.x (s.me.reg (predReg s.cur.x p)) (pushbMode m)))) h
    refine ⟨t, ?_, w, o, b, holds_port_congr (holds_give s (.port c) _ 1 false nofun) (f _)⟩
    rw [show exec (.pushb h (.port c) (.p p) m) s = execPushb h (.port c) (.p p) m s from rfl]
    unfold execPushb
    rw [issue_eq hi, toList_regOf_p, withNeeds_eq hn]
    exact (keepGuard_retire ..).trans e
  | _ => exact absurd hq nofun

theorem absent_setStream (c : Core) (x : Bool) (t : Stream) (r : Reg) : (c.setStream x t).absent r = c.absent r := by
  cases x <;> cases r <;> rfl

theorem absent_issued (c : Core) (x : Bool) (r : Reg) : (c.issued x).absent r = c.absent r := by cases x <;> cases r <;> rfl

/-- A register that CLRP accepts is absent after it, and no other changes its presence. -/
theorem absent_clear {x : Bool} {d : Desc} {g : Reg} (hd : clrpOk x d = true) (hg : regOf x d = some g) (c : Core) :
    (c.clear g).absent g = true ∧ ∀ y, y ≠ g → (c.clear g).absent y = c.absent y := by
  cases d with
  | g i =>
    cases hg
    rw [clrpOk, Bool.and_eq_true] at hd
    refine ⟨?_, fun y hy => ?_⟩
    · simp only [Core.clear, Core.absent, tget_tput_same, hd.2]
      rfl
    · cases y with
      | g j => simp only [Core.clear, Core.absent, tget_tput_ne _ (fun e => hy (congrArg Reg.g e) : j ≠ i.toNat)]
      | _ => rfl
  | v i =>
    cases hg
    refine ⟨?_, fun y hy => ?_⟩
    · simp only [Core.clear, Core.absent, tget_tput_same]
      rfl
    · cases y with
      | v j => simp only [Core.clear, Core.absent, tget_tput_ne _ (fun e => hy (congrArg Reg.v e) : j ≠ i.toNat)]
      | _ => rfl
  | _ => exact absurd hd nofun

/-- A core whose presence bits alone have changed. -/
theorem clear_keeps (c : Core) (g : Reg) : c.sameBut (c.clear g) [] ∧ (c.clear g).cyc = c.cyc ∧ (c.clear g).level = c.level ∧
    ∀ x, (c.clear g).stream x = c.stream x := by
  have hs : ∀ x, (c.clear g).stream x = c.stream x := fun x => by cases g <;> cases x <;> rfl
  refine ⟨fun x r _ => Core.comes_congr ?_ ?_ (by rw [hs]), ?_, ?_, hs⟩
  · cases g <;> exact ⟨rfl, rfl, rfl, rfl, rfl, rfl, rfl⟩
  all_goals cases g <;> rfl

/-- CLRP waits for the stream's writes of its register, and then makes it absent. -/
theorem clrp_spec {s : State} {h : Hdr} {r : Desc} {g : Reg} (hg : regOf s.cur.x r = some g) (hi : s.issues (.clrp h r))
    (hn : s.serves (needs [] [g])) :
    ∃ t, exec (.clrp h r) s = .next t ∧ s.onlyMe t ∧
      (s.me.inFlight s.cur.x g s.now = true → s.waited t ∧ ∀ y, t.me.absent y = s.me.absent y) ∧
      (s.me.inFlight s.cur.x g s.now = false → s.wentOn t h ∧ t.me.absent g = true ∧ s.me.sameBut t.me [] ∧
        ∀ y, y ≠ g → t.me.absent y = s.me.absent y) := by
  have hw : clrpOk s.cur.x r = true := fieldsOk_of_issues rfl hi
  rw [show exec (.clrp h r) s = execClrp h r s from rfl, execClrp, issue_eq hi, hg, Option.toList_some, withNeeds_eq hn, hg]
  dsimp only
  cases hf : s.me.inFlight s.cur.x g s.now
  · obtain ⟨t, e, w, o, m⟩ := retire_spec h (s.setMe (s.me.clear g))
    obtain ⟨hc, -, -⟩ := retire_keeps e
    obtain ⟨k1, k2, k3, k4⟩ := clear_keeps s.me g
    obtain ⟨a1, a2⟩ := absent_clear hw hg s.me
    rw [if_neg nofun, keepGuard_retire]
    rw [State.me_setMe] at m hc
    have hsf : sameFlow s (s.setMe (s.me.clear g)) := sameFlow_setMe (by rw [k4]; rfl) (by rw [k4]; rfl) (by rw [k4]; rfl) k2 k3
    have ha (y : Reg) : t.me.absent y = (s.me.clear g).absent y := by rw [m, absent_issued, absent_setStream]
    exact ⟨t, e, State.onlyMe_trans (State.onlyMe_setMe ..) o, nofun, fun _ => ⟨wentOn_of_sameFlow hsf w, by rw [ha, a1],
      fun x q hq => (hc x q).trans (k1 x q hq), fun y hy => by rw [ha, a2 y hy]⟩⟩
  · obtain ⟨t, st, e, w, o, m, -⟩ := keepGuard_stall_spec (s.laneMask (Instr.clrp h r).hdr) s
    rw [if_pos rfl]
    exact ⟨t, e, o, fun _ => ⟨w, fun y => by rw [m, absent_setStream]⟩, nofun⟩

/-- Settles O30: each of the four instructions by the lemma about it. -/
theorem queueAndPresenceResults : Obligations.QueueAndPresenceResults := by
  unfold Obligations.QueueAndPresenceResults
  intro s h d q a r p m
  refine ⟨fun k hq hi => ⟨fun hk hn => ?fails, fun hk hn hd => ?takes⟩, fun k hq hi hn => ?trypush, fun hi hn => ?pushb,
    fun g hg hi hn => ?clrp⟩
  case fails => exact trypop_fails hq hi hk hn
  case takes => exact trypop_takes hq hi hk hn hd
  case trypush => exact trypush_spec hq hi hn
  case pushb =>
    obtain ⟨t, e, w, o, b, hh⟩ := pushb_spec hi hn
    refine ⟨t, _, e, w, o, b, hh, ?_, ?_, ?_⟩
    · rintro (rfl | rfl)
      · exact pushbBit_zero _ _
      · exact pushbBit_zero _ _
    · rintro rfl
      exact pushbBit_one _ _
    · rintro rfl
      exact pushbBit_two _ _
  case clrp => exact clrp_spec hg hi hn

/-! ### Sends and the mailbox (05 R112, 06 R158, R159) -/

/-- A send to a core that runs no task of the sender's launch. -/
theorem sendTo_stranger {s : State} {dst : Nat} {tgt : Reg} (hd : s.me.reg tgt % 2 ^ 15 = dst) (h0 : s.fellow s.cur.core dst = none)
    (g : Nat) (h : Hdr) (d : Desc) (v : Nat × State) :
    keepGuard g (sendTo h d tgt s v) = .next (s.trapOn s.cur.core s.cur.x 0x0B 0 0 dst) := by
  unfold sendTo
  dsimp only
  rw [hd, h0, keepGuard_trap]

theorem State.onlyMe_agenda {s t : State} (h : s.onlyMe t) : t.agenda = s.agenda := by
  obtain ⟨h, -⟩ := h
  rw [← h]

/-- What an instruction leaves that sends a message after its pops. -/
theorem retire_sends {s u : State} (hq : onlyQueues s u) (h : Hdr) (m : Instr) :
    ∃ t, retire h { u with agenda := u.agenda ++ [m] } = .next t ∧ s.wentOn t h ∧ t.agenda = s.agenda ++ [m] ∧ s.me.sameBut t.me [] ∧
      t.mem = s.mem := by
  obtain ⟨t, e, w, o, -⟩ := retire_spec h { u with agenda := u.agenda ++ [m] }
  obtain ⟨hc, -, -⟩ := retire_keeps e
  have hf : sameFlow u { u with agenda := u.agenda ++ [m] } := sameFlow_of_cores rfl rfl
  refine ⟨t, e, wentOn_of_sameFlow (sameFlow_trans (sameFlow_of_onlyQueues hq) hf) w, ?_,
    fun x r _ => (hc x r).trans (onlyQueues_comes hq x r), (State.onlyMe_mem o).trans (show u.mem = s.mem from State.onlyMe_mem hq.1)⟩
  rw [State.onlyMe_agenda o, ← State.onlyMe_agenda hq.1]

/-- A send to a core of the sender's launch. -/
theorem sendTo_fellow {s u : State} {dst : Nat} {tgt : Reg} {k : Task} (hd : s.me.reg tgt % 2 ^ 15 = dst)
    (hk : s.fellow s.cur.core dst = some k) (hq : onlyQueues s u) (g : Nat) (h : Hdr) (t : BitVec 6) (f : BitVec 2) (i : BitVec 5) (v : Nat) :
    ∃ w m, keepGuard g (sendTo h (.remote t f i) tgt s (v, u)) = .next w ∧ s.wentOn w h ∧ w.agenda = s.agenda ++ [.sendArrival m] ∧
      m.dst = dst ∧ m.run = k.run ∧ m.wid = k.wid ∧ m.file = f ∧ m.index = i ∧ m.value = v ∧ s.me.sameBut w.me [] ∧ w.mem = s.mem := by
  obtain ⟨w, e, hw, ha, hb, hm⟩ := retire_sends hq h
    (.sendArrival { dst := dst, run := k.run, wid := k.wid, file := f, index := i, value := v, ctx := s.ctxOf s.cur.core })
  refine ⟨w, _, ?_, hw, ha, rfl, rfl, rfl, rfl, rfl, rfl, hb, hm⟩
  unfold sendTo
  dsimp only
  rw [hd, hk]
  exact (keepGuard_retire ..).trans e

/-- What an arrival leaves of a core's inbox, held sends and mailbox. -/
theorem arrival_keeps (c : Core) : c.arrival.inbox = c.inbox ∧ c.arrival.held = c.held := by
  obtain ⟨h, -⟩ := c.onlyLands_arrival
  constructor <;> conv_rhs => rw [← h]

/-- A register write of a send makes its register present. -/
theorem setReg_sent (c : Core) (i v : Nat) :
    ((c.setReg (.g (32 + i)) 1 v).reg (.g (32 + i)) = v % 2 ^ 64 ∧ (c.setReg (.g (32 + i)) 1 v).absent (.g (32 + i)) = false) ∧
    (v < 2 ^ (Reg.v i).width → (c.setReg (.v i) allLanes v).reg (.v i) = v ∧ (c.setReg (.v i) allLanes v).absent (.v i) = false) := by
  refine ⟨⟨?_, ?_⟩, fun hv => ⟨Core.reg_setReg_fullMask (.v i) c hv, ?_⟩⟩
  · simp [Core.setReg, Core.reg]
  · simp [Core.setReg, Core.absent]
  · simp [Core.setReg, Core.absent]

theorem clipPlaced_keeps (c : Core) (ch : Option Nat) : (c.clipPlaced ch).mail = c.mail ∧ (c.clipPlaced ch).heldMail = c.heldMail := by
  unfold Core.clipPlaced
  split
  · split <;> exact ⟨rfl, rfl⟩
  · exact ⟨rfl, rfl⟩

/-- A send that arrives at the task it was sent to. -/
theorem sendArrival_spec {s : State} {m : SendMsg} (ha : s.awaits m.dst m.run m.wid = true) (hb : s.behindHeld m = false) :
    ∃ t, exec (.sendArrival m) s = .next t ∧ t.mem = s.mem ∧ (∀ n, n ≠ m.dst → t.core n = s.core n) ∧
      (m.file = 0 → (t.core m.dst).reg (.g (32 + m.index.toNat)) = m.value % 2 ^ 64 ∧
        (t.core m.dst).absent (.g (32 + m.index.toNat)) = false) ∧
      (m.file = 1 → m.value < 2 ^ 1024 → (t.core m.dst).reg (.v m.index.toNat) = m.value ∧
        (t.core m.dst).absent (.v m.index.toNat) = false) ∧
      (m.file = 2 → (s.core m.dst).inbox.length < 32 →
        (t.core m.dst).inbox = (s.core m.dst).inbox ++ [BitVec.ofNat 64 m.value]) ∧
      (m.file = 2 → 32 ≤ (s.core m.dst).inbox.length → (t.core m.dst).inbox = (s.core m.dst).inbox ∧
        (t.core m.dst).held = (s.core m.dst).held ++ [m]) := by
  have he : exec (.sendArrival m) s = execSendArrival m s := rfl
  rw [he, execSendArrival, ha, hb, Bool.not_true, if_neg nofun, if_neg nofun]
  obtain ⟨hi, hh⟩ := arrival_keeps (s.core m.dst)
  obtain ⟨hg, hv⟩ := setReg_sent (s.core m.dst).arrival m.index.toNat m.value
  refine ⟨_, rfl, rfl, fun n hn => by rw [State.core_setCore, if_neg hn], fun hf => ?_, fun hf hl => ?_, fun hf hl => ?_, fun hf hl => ?_⟩
  all_goals rw [State.core_setCore, if_pos rfl, hf]
  · exact hg
  · exact hv hl
  · rw [if_neg (by decide), if_neg (by decide), if_pos (by rwa [hi])]
    exact congrArg (· ++ _) hi
  · rw [if_neg (by decide), if_neg (by decide), if_neg (by rw [hi]; omega)]
    exact ⟨hi, congrArg (· ++ _) hh⟩

/-- Settles O45: sends by whether their target belongs to the launch, arrivals by the file they name, and what is held by its room. -/
theorem sendsAndMailboxResults : Obligations.SendsAndMailboxResults := by
  unfold Obligations.SendsAndMailboxResults
  refine fun s => ⟨fun h t f i a av => ?send, fun m => ⟨fun ha => ?late, sendArrival_spec⟩, fun n m ms hm hl => ?held,
    fun n ws es hm hl => ?mail⟩
  case send =>
    simp only [List.forall_mem_cons, List.not_mem_nil, false_imp_iff, implies_true, and_true]
    refine ⟨fun hi hn => ?send, fun hi hn => ?vsend⟩
    case send =>
      have e : exec (.send h (.remote t f i) a) s = keepGuard (s.laneMask (Instr.send h (.remote t f i) a).hdr)
          (sendTo h (.remote t f i) (.g t.toNat) s ((s.take a).1.toNat, (s.take a).2)) := by
        rw [show exec (.send h (.remote t f i) a) s = execSend h (.remote t f i) a s from rfl, execSend, issue_eq hi]
        exact congrArg _ (withNeeds_eq hn _)
      rw [e]
      exact ⟨fun h0 => sendTo_stranger rfl h0 .., fun k hk => sendTo_fellow rfl hk (onlyQueues_take s a) ..⟩
    case vsend =>
      have e : exec (.vsend h (.remote t f i) (.v av)) s = keepGuard (s.laneMask (Instr.vsend h (.remote t f i) (.v av)).hdr)
          (sendTo h (.remote t f i) (.s t.toNat) s (s.me.reg (.v av.toNat), s)) := by
        rw [show exec (.vsend h (.remote t f i) (.v av)) s = execVsend h (.remote t f i) (.v av) s from rfl, execVsend, issue_eq hi]
        exact congrArg _ (withNeeds_eq hn _)
      rw [e]
      exact ⟨fun h0 => sendTo_stranger rfl h0 .., fun k hk => sendTo_fellow rfl hk (onlyQueues_refl s) ..⟩
  case late =>
    have e : exec (.sendArrival m) s = execSendArrival m s := rfl
    rw [e, execSendArrival, ha, Bool.not_false, if_pos rfl]
    exact ⟨_, rfl, errRecord_cores .., errRecord_logs ..⟩
  case held =>
    have e : exec (.heldSendDelivery n) s = execHeldSendDelivery n s := rfl
    rw [e, execHeldSendDelivery, hm]
    dsimp only
    rw [if_pos hl]
    refine ⟨_, rfl, ?_⟩
    rw [State.core_setCore, if_pos rfl]
    exact ⟨rfl, rfl⟩
  case mail =>
    have e : exec (.mailboxPlacement n) s = execMailboxPlacement n s := rfl
    rw [e, execMailboxPlacement, hm]
    dsimp only
    rw [if_pos hl]
    refine ⟨_, rfl, ?_⟩
    rw [State.core_setCore, if_pos rfl]
    exact clipPlaced_keeps ..

end Sys2Proof.Machine
end
